-- ==== Sys2Proof/Word.lean ====
section
/-! DEFINITION. Word.lean: the word types of the TVD-192 (R5, R8, R217). -/

namespace Sys2Proof

/-- One byte of memory. -/
abbrev Byte := BitVec 8

/-- A peripheral register (R27). -/
abbrev Reg32 := BitVec 32

/-- A Trifle general register (R217). -/
abbrev Word := BitVec 64

/-- A V register (R245). -/
abbrev VWord := BitVec 128

end Sys2Proof
end

