-- ==== Sys2Proof/Syntax.lean ====
section
/-! DEFINITION. Syntax.lean: the commands of the block, one constructor of `Instr` per row of the spec's table of
operations and events, with the row's operands. Each constructor's docstring names the row and its rule. -/

namespace Sys2Proof

/-- A physical upset of stored bits (R30, R65): the 64-bit granule by its storage number, the flipped bits (0 to 63 data,
64 to 71 check bits c[0] to c[7]), and whether the cells stay faulty. -/
structure Upset where
  gran : Nat
  mask : BitVec 72
  lasting : Bool
deriving DecidableEq, Repr

/-- One word request at a Lattice port (R44, R46, R52): requester number, class (0 maintenance, 1 to 7), for a matrix port the
master whose transaction it is (R14), the chain whose
BOUND or DUPLEX access it is (0 for none, chain + 1 otherwise; R63), the word, read or write, and for a write the bits
written and their values. -/
structure LatReq where
  req : BitVec 8
  cls : Fin 8
  master : Fin 14
  grp : Nat
  word : BitVec 22
  write : Bool
  mask : BitVec 256
  data : BitVec 256
  age : Nat
deriving DecidableEq, Repr

/-- What one strand's own decoder reports on a granule of a word delivered to it, the words of a command counted from 0 in
the order presented: corrected, or uncorrectable (R109). -/
structure StrandDec where
  strand : Fin 3
  word : Nat
  gran : Fin 4
  bad : Bool
deriving DecidableEq, Repr

/-- A strand's proposal of a word or message that differs from the chain's result, counted from 0 in the order proposed: the
patterns by which its address, byte enables and data differ (R110). -/
structure StrandDiff where
  strand : Fin 3
  word : Nat
  addr : BitVec 22
  enables : BitVec 32
  data : BitVec 512
deriving DecidableEq, Repr

/-- The master of a transaction, and the other masters that request its port until it is granted (R34, R35). -/
structure Asker where
  master : Fin 14
  rivals : List (Fin 14)
deriving DecidableEq, Repr

/-- A chain, and what the strands' decoders report on the words of its Cam table (R109, R149). -/
structure TableDec where
  chain : BitVec 12
  dec : List StrandDec
deriving DecidableEq, Repr

/-- What the checks of a resynchronisation find: how many read-backs fail (0, 1, or 2), and which voters' tests, bit 3 × voter +
slice (R197, R201). -/
structure CopyCheck where
  failed : Fin 3
  tests : BitVec 9
deriving DecidableEq, Repr

/-- A voter's disagreement code (R195, R196). -/
inductive VCode where
  | agree
  | odd (slice : Fin 3)
  | threeWay
deriving DecidableEq, Repr

/-- What a step of a lane test finds (R205). -/
inductive LaneFinding where
  | none
  | lanes (failing : List (Fin 68))
  | shared
deriving DecidableEq, Repr

/-- Pixel formats of a camera frame (R393). -/
inductive CamFmt where
  | mono8 | bayer8 | mono10 | mono12 | mono14 | mono16 | bayer16 | other
deriving DecidableEq, Repr

/-- What a probe of a root port finds (R404, R405): a drive and its format, its link and its capacity in LBAs. -/
structure DriveProbe where
  drive : Fin 4
  present : Bool
  formatOk : Bool
  speed : Fin 6
  width : Fin 5
  cap : Nat
deriving DecidableEq, Repr

/-- The body of an RPT (R260, R261): a string instruction with the fields its function uses, DSTEP, or another
instruction, which makes the RPT ILL. -/
inductive RptBody where
  | smov (ra rb : Fin 32) (cs cd : Fin 16)
  | sset (rd rb : Fin 32) (cd : Fin 16) (down : Bool)
  | scmp (rd ra rb : Fin 32) (cs cd : Fin 16) (down : Bool)
  | sscan (rd ra rb : Fin 32) (cs : Fin 16) (down : Bool)
  | dstep (rd rs rt : Fin 32) (w : Bool)
  | other
deriving DecidableEq, Repr

/-- The commands of the block. -/
inductive Instr where
  /-- REGISTER_WRITE (R8): a bus write by a master, with or without the secure attribute. -/
  | registerWrite (master : Fin 14) (secure : Bool) (addr : BitVec 40) (value : BitVec 32)
  /-- BULK_ACCESS (R499, R30): a granted read (of len bytes) or write (of the bytes given), after the upsets given. -/
  | bulkAccess (asker : Asker) (write : Bool) (addr : BitVec 40) (len : Fin 65) (data : List Byte) (upsets : List Upset)
  /-- BULK_RE_READ (R30): the re-read of a granule that was written back. -/
  | bulkReRead (addr : BitVec 40)
  /-- LATTICE_ACCESS (R55): the requests newly presented in one rc, after the upsets given. -/
  | latticeAccess (reqs : List LatReq) (upsets : List Upset)
  /-- READ_DATA (R49): the oldest read in flight reaches its requester. -/
  | readData
  /-- WRITE_HALF (R51): the waiting write half at a logical bank. -/
  | writeHalf (bank : BitVec 8)
  /-- ECC_WRITE_BACK (R66): the maintenance write-back at a physical bank. -/
  | eccWriteBack (pbank : Fin 264)
  /-- ECC_RE_READ (R66): the maintenance re-read at a physical bank. -/
  | eccReRead (pbank : Fin 264)
  /-- PHASE_TABLE_ACTIVATE (R59). -/
  | phaseTableActivate
  /-- SCRUB (R69): one scrub read, after the upsets given. -/
  | scrub (upsets : List Upset)
  /-- SPARE_CMD (R71): LAT_SPARE_CMD with GO. -/
  | spareCmd (lbank : BitVec 8)
  /-- SPARE_PEND_CLEAR (R71): a write to LAT_SPARE_PENDn. -/
  | sparePendClear (n : Fin 8) (mask : BitVec 32)
  /-- COPY_START (R72). -/
  | copyStart
  /-- ROW_COPY (R73). -/
  | rowCopy
  /-- SPARE_SWITCH (R74). -/
  | spareSwitch
  /-- SPARE_ENTRY_WRITE (R76). -/
  | spareEntryWrite (spare : Fin 8) (state : BitVec 2) (lbank : BitVec 8)
  /-- DESCRIPTOR_FETCH (R107): the granted fetch of a launched chain, with what the strands' decoders report. -/
  | descriptorFetch (chain : BitVec 12) (dec : List StrandDec)
  /-- TABLE_LOAD (R149): the Cam table of a launched chain, with what the strands' decoders report on its words (R109). -/
  | tableLoad (load : TableDec)
  /-- STREAM_READ (R102): reader port IN0 to IN3 presents its words for the chain's beat-tap. -/
  | streamRead (chain : BitVec 12) (port : Fin 4) (dec : List StrandDec)
  /-- STREAM_WRITE (R110): writer port OUT0 or OUT1 presents its words for the chain's beat. -/
  | streamWrite (chain : BitVec 12) (port : Fin 2) (diff : List StrandDiff)
  /-- STOP_WRITE_BACK (R118). -/
  | stopWriteBack (chain : BitVec 12) (diff : List StrandDiff)
  /-- QSINK_MESSAGE (R99): the oldest message that a QSINK writer of the chain has in its strand's input buffer, or the padded
  last message of a stopped run, reaches the queue engine. -/
  | qsinkMessage (chain : BitVec 12) (port : Fin 2) (diff : List StrandDiff)
  /-- LOAD (R113): RIB_CCT_CTL.LOAD. -/
  | load
  /-- CCT_LOAD_DONE (R113). -/
  | cctLoadDone
  /-- COMMIT (R114): RIB_CCT_CTL.COMMIT. -/
  | commit
  /-- RIB_DONE (R126): a read of RIB_DONE. -/
  | ribDone
  /-- LANEMAP_WRITE (R126). -/
  | lanemapWrite (strand : Fin 3) (value : BitVec 32)
  /-- RUN_SET (R157). -/
  | runSet
  /-- RUN_CLEAR (R157). -/
  | runClear
  /-- CHECK_PASS (R166): the check pass of the active buffer ends. -/
  | checkPass
  /-- STOPPED_ENTRY (R157). -/
  | stoppedEntry
  /-- ROUND_BOUNDARY (R153): chain time reaches the next multiple of the round length. -/
  | roundBoundary
  /-- NOP (R165). -/
  | nop
  /-- WAIT (R165). -/
  | wait (cyc : BitVec 21)
  /-- LAUNCH (R165). -/
  | launch (strands : BitVec 3) (chain : BitVec 12)
  /-- SLOT (R175). -/
  | slot (lead : BitVec 10) (list : Fin 16) (strands : BitVec 3) (endRcr : BitVec 21)
  /-- RESERVE (R180). -/
  | reserve (endRcr : BitVec 21)
  /-- EXCH (R165). -/
  | exch (deadline : BitVec 21) (dir : BitVec 2) (count : BitVec 7) (first : Fin 64)
  /-- MOVE (R165). -/
  | move (desc : BitVec 8) (mover : Fin 8)
  /-- PTAB (R165). -/
  | ptab (table : Fin 4)
  /-- MARK (R165). -/
  | mark (stamp irq : Bool) (n : Fin 16)
  /-- EVENT_DOORBELL (R165): EVENT of KIND 0b00. -/
  | eventDoorbell (bells : BitVec 32) (chan : Fin 64)
  /-- SEND_EVENT (R165, R267): an event to Trifle, of the sequencer (EVENT of KIND 0b01) or, where that is not the instruction to
  issue, of the Chain Controller or the Archive processor. -/
  | sendEvent
  /-- EVENT_ARM (R176): EVENT of KIND 0b10. -/
  | eventArm (list : Fin 16) (entry : Fin 64)
  /-- EVENT_CANCEL (R176): EVENT of KIND 0b11. -/
  | eventCancel (list : Fin 16) (entry : Fin 64)
  /-- SKIPR (R165). -/
  | skipr (n : BitVec 12) (m : BitVec 15) (k : BitVec 4)
  /-- ROUNDEND (R165). -/
  | roundend
  /-- LAUNCH_DECISION (R175): one decision of the open slot of a list. -/
  | launchDecision (list : Fin 16)
  /-- PREEMPT (R177): the slot of a list reaches END − LEAD. -/
  | preempt (list : Fin 16)
  /-- SLOT_END (R177): the slot of a list reaches END. -/
  | slotEnd (list : Fin 16)
  /-- SOFTCMD_ARM (R176). -/
  | softcmdArm (list : Fin 16) (entry : Fin 64)
  /-- SOFTCMD_CANCEL (R176). -/
  | softcmdCancel (list : Fin 16) (entry : Fin 64)
  /-- DEPTH_MET (R176). -/
  | depthMet (list : Fin 16) (entry : Fin 64)
  /-- RETRY (R180). -/
  | retry
  /-- RESERVE_END (R180). -/
  | reserveEnd
  /-- EXCH_DEADLINE (R172): the deadline of the oldest exchange issue still watched. -/
  | exchDeadline
  /-- SWAP_REQUEST (R184): SCH_SWAP_CTL with GO. -/
  | swapRequest (sched cct fw : Bool)
  /-- ABORT (R185): SCH_SWAP_CTL with ABORT. -/
  | abort
  /-- SWAP_CHECK (R184). -/
  | swapCheck
  /-- SWAP_COMMIT (R184). -/
  | swapCommit
  /-- SWAP (R184). -/
  | swap
  /-- VOTER_DISAGREEMENT (R196): the voters' codes of a tc and the exit voter's alarm. -/
  | voterDisagreement (v0 v1 v2 : VCode) (alarm : Bool)
  /-- RESYNCHRONISATION (R197): the copy and read-back, and what its checks find. -/
  | resynchronisation (check : CopyCheck)
  /-- RESYNC_RESTART (R197). -/
  | resyncRestart
  /-- VOTER_SELF_TEST (R202): does a real disagreement fall in the test tc, and does the tested voter pass. -/
  | voterSelfTest (disturbed pass : Bool)
  /-- MISMATCH_EVENT (R204): the oldest Ribbon mismatch reaches the Recovery Controller. -/
  | mismatchEvent
  /-- TEST_STEP (R205): one step of the lane test of a strand. -/
  | testStep (strand : Fin 3) (found : LaneFinding)
  /-- RC_UPSET (R209): the machines whose parity check fails. -/
  | rcUpset (machines : BitVec 3)
  /-- WATCHER_EXPIRY (R210). -/
  | watcherExpiry
  /-- RESYNC (R203): RCV_CMD with OP RESYNC. -/
  | resync
  /-- LTEST (R216): RCV_CMD with OP LTEST. -/
  | ltest (strand : Fin 3)
  /-- CLRHIST (R216): RCV_CMD with OP CLRHIST. -/
  | clrhist
  /-- ADD (R225): G[rd] := a + b modulo 2^64. -/
  | add (rd ra rb : Fin 32)
  /-- SUB (R225): G[rd] := a − b modulo 2^64. -/
  | sub (rd ra rb : Fin 32)
  /-- AND (R225): Bitwise and. -/
  | and (rd ra rb : Fin 32)
  /-- OR (R225): Bitwise or. -/
  | or (rd ra rb : Fin 32)
  /-- XOR (R225): Bitwise xor. -/
  | xor (rd ra rb : Fin 32)
  /-- ANDN (R225): a and not b. -/
  | andn (rd ra rb : Fin 32)
  /-- SLL (R225): Logical left shift by b[5:0]. -/
  | sll (rd ra rb : Fin 32)
  /-- SRL (R225): Logical right shift by b[5:0]. -/
  | srl (rd ra rb : Fin 32)
  /-- SRA (R225): Arithmetic right shift by b[5:0]. -/
  | sra (rd ra rb : Fin 32)
  /-- SLT (R225): Signed set-less-than. -/
  | slt (rd ra rb : Fin 32)
  /-- SLTU (R225): Unsigned set-less-than. -/
  | sltu (rd ra rb : Fin 32)
  /-- MIN (R225): Signed minimum. -/
  | min (rd ra rb : Fin 32)
  /-- MAX (R225): Signed maximum. -/
  | max (rd ra rb : Fin 32)
  /-- MINU (R225): Unsigned minimum. -/
  | minu (rd ra rb : Fin 32)
  /-- MAXU (R225): Unsigned maximum. -/
  | maxu (rd ra rb : Fin 32)
  /-- ADDW (R225): 32-bit add, sign-extended. -/
  | addw (rd ra rb : Fin 32)
  /-- SUBW (R225): 32-bit subtract, sign-extended. -/
  | subw (rd ra rb : Fin 32)
  /-- SLLW (R225): 32-bit left shift, sign-extended. -/
  | sllw (rd ra rb : Fin 32)
  /-- SRLW (R225): 32-bit logical right shift, sign-extended. -/
  | srlw (rd ra rb : Fin 32)
  /-- SRAW (R225): 32-bit arithmetic right shift. -/
  | sraw (rd ra rb : Fin 32)
  /-- CLZ (R225): Count leading zero bits. -/
  | clz (rd ra : Fin 32)
  /-- CTZ (R225): Count trailing zero bits. -/
  | ctz (rd ra : Fin 32)
  /-- POPC (R225): Count set bits. -/
  | popc (rd ra : Fin 32)
  /-- ADDI (R226): Add immediate. -/
  | addi (rd ra : Fin 32) (imm : BitVec 12)
  /-- ANDI (R226): And immediate. -/
  | andi (rd ra : Fin 32) (imm : BitVec 12)
  /-- ORI (R226): Or immediate. -/
  | ori (rd ra : Fin 32) (imm : BitVec 12)
  /-- XORI (R226): Xor immediate. -/
  | xori (rd ra : Fin 32) (imm : BitVec 12)
  /-- SLTI (R226): Signed set-less-than immediate. -/
  | slti (rd ra : Fin 32) (imm : BitVec 12)
  /-- SLTIU (R226): Unsigned set-less-than immediate. -/
  | sltiu (rd ra : Fin 32) (imm : BitVec 12)
  /-- SLLI (R226): Left shift by immediate. -/
  | slli (rd ra : Fin 32) (sh : Fin 64)
  /-- SRLI (R226): Logical right shift by immediate. -/
  | srli (rd ra : Fin 32) (sh : Fin 64)
  /-- SRAI (R226): Arithmetic right shift by immediate. -/
  | srai (rd ra : Fin 32) (sh : Fin 64)
  /-- ADDIW (R226): 32-bit add immediate, sign-extended. -/
  | addiw (rd ra : Fin 32) (imm : BitVec 12)
  /-- LUI (R227): G[rd] := sext(imm × 2^11, 32). -/
  | lui (rd : Fin 32) (imm : BitVec 21)
  /-- LB (R228): Load a sign-extended byte through a capability. -/
  | lb (rd ra : Fin 32) (cb : Fin 16) (imm : BitVec 9)
  /-- LBU (R228): Load a zero-extended byte. -/
  | lbu (rd ra : Fin 32) (cb : Fin 16) (imm : BitVec 9)
  /-- LH (R228): Load a sign-extended halfword. -/
  | lh (rd ra : Fin 32) (cb : Fin 16) (imm : BitVec 9)
  /-- LHU (R228): Load a zero-extended halfword. -/
  | lhu (rd ra : Fin 32) (cb : Fin 16) (imm : BitVec 9)
  /-- LW (R228): Load a sign-extended word. -/
  | lw (rd ra : Fin 32) (cb : Fin 16) (imm : BitVec 9)
  /-- LWU (R228): Load a zero-extended word. -/
  | lwu (rd ra : Fin 32) (cb : Fin 16) (imm : BitVec 9)
  /-- LD (R228): Load a doubleword. -/
  | ld (rd ra : Fin 32) (cb : Fin 16) (imm : BitVec 9)
  /-- SB (R228): Store a byte. -/
  | sb (rs ra : Fin 32) (cb : Fin 16) (imm : BitVec 9)
  /-- SH (R228): Store a halfword. -/
  | sh (rs ra : Fin 32) (cb : Fin 16) (imm : BitVec 9)
  /-- SW (R228): Store a word. -/
  | sw (rs ra : Fin 32) (cb : Fin 16) (imm : BitVec 9)
  /-- SD (R228): Store a doubleword. -/
  | sd (rs ra : Fin 32) (cb : Fin 16) (imm : BitVec 9)
  /-- ATOMIC_SWAP (R232): Atomically replace memory with b, returning the old value. -/
  | atomicSwap (rd ra rb : Fin 32) (cb : Fin 16) (w : Bool)
  /-- ATOMIC_ADD (R232): Atomically add b to memory. -/
  | atomicAdd (rd ra rb : Fin 32) (cb : Fin 16) (w : Bool)
  /-- ATOMIC_AND (R232): Atomic and. -/
  | atomicAnd (rd ra rb : Fin 32) (cb : Fin 16) (w : Bool)
  /-- ATOMIC_OR (R232): Atomic or. -/
  | atomicOr (rd ra rb : Fin 32) (cb : Fin 16) (w : Bool)
  /-- ATOMIC_XOR (R232): Atomic xor. -/
  | atomicXor (rd ra rb : Fin 32) (cb : Fin 16) (w : Bool)
  /-- ATOMIC_MIN (R232): Atomic signed minimum. -/
  | atomicMin (rd ra rb : Fin 32) (cb : Fin 16) (w : Bool)
  /-- ATOMIC_MAX (R232): Atomic signed maximum. -/
  | atomicMax (rd ra rb : Fin 32) (cb : Fin 16) (w : Bool)
  /-- ATOMIC_MINU (R232): Atomic unsigned minimum. -/
  | atomicMinu (rd ra rb : Fin 32) (cb : Fin 16) (w : Bool)
  /-- ATOMIC_MAXU (R232): Atomic unsigned maximum. -/
  | atomicMaxu (rd ra rb : Fin 32) (cb : Fin 16) (w : Bool)
  /-- CAS (R232): Atomic compare-and-swap against G[rd]. -/
  | cas (rd ra rb : Fin 32) (cb : Fin 16) (w : Bool)
  /-- MUL (R234): Start a signed 64 × 64 multiply into (PH, PL). -/
  | mul (ra rb : Fin 32)
  /-- MULU (R234): Start an unsigned multiply. -/
  | mulu (ra rb : Fin 32)
  /-- MULSU (R234): Start a signed-by-unsigned multiply. -/
  | mulsu (ra rb : Fin 32)
  /-- MAC (R234): Start a signed multiply-accumulate into (PH, PL). -/
  | mac (ra rb : Fin 32)
  /-- MACU (R234): Start an unsigned multiply-accumulate. -/
  | macu (ra rb : Fin 32)
  /-- PRODUCT_WRITE (R235): Three tc after a multiply's X, PL and PH are written. -/
  | productWrite
  /-- DSTEP (R236): Two steps of restoring division on rd, rs and rt. -/
  | dstep (rd rs rt : Fin 32) (w : Bool)
  /-- BCMP (R238): Compare two registers and branch, with a delay slot. -/
  | bcmp (ra rb : Fin 32) (cond : Fin 6) (a : Bool) (disp : BitVec 12)
  /-- BZ (R238): Compare a register with zero and branch. -/
  | bz (ra : Fin 32) (cond : Fin 6) (a : Bool) (disp : BitVec 17)
  /-- JAL (R238): Jump and link by displacement. -/
  | jal (rd : Fin 32) (disp : BitVec 21)
  /-- JALR (R238): Jump and link through a register. -/
  | jalr (rd ra : Fin 32) (imm : BitVec 16)
  /-- SPEC_NOP (R242): The Trifle NOP does nothing. -/
  | specNop
  /-- SYNC (R243): Wait for older instructions, apply pending control-register writes and refetch. -/
  | sync
  /-- MFSR (R242): Read a special register into G[g]. -/
  | mfsr (g : Fin 32) (sr : BitVec 8)
  /-- MTSR (R242): Write a special register from G[g]. -/
  | mtsr (g : Fin 32) (sr : BitVec 8)
  /-- FADD (R248): Floating-point add. -/
  | fadd (fd fa fb : Fin 32) (p : Bool) (rm : BitVec 3)
  /-- FSUB (R248): Floating-point subtract. -/
  | fsub (fd fa fb : Fin 32) (p : Bool) (rm : BitVec 3)
  /-- FMUL (R248): Floating-point multiply. -/
  | fmul (fd fa fb : Fin 32) (p : Bool) (rm : BitVec 3)
  /-- FMIN (R248): IEEE minimum. -/
  | fmin (fd fa fb : Fin 32) (p : Bool)
  /-- FMAX (R248): IEEE maximum. -/
  | fmax (fd fa fb : Fin 32) (p : Bool)
  /-- FMINN (R248): IEEE minimumNumber. -/
  | fminn (fd fa fb : Fin 32) (p : Bool)
  /-- FMAXN (R248): IEEE maximumNumber. -/
  | fmaxn (fd fa fb : Fin 32) (p : Bool)
  /-- FABS (R248): Clear the sign bit. -/
  | fabs (fd fa : Fin 32) (p : Bool)
  /-- FNEG (R248): Invert the sign bit. -/
  | fneg (fd fa : Fin 32) (p : Bool)
  /-- FRSTEP (R250): Reciprocal estimate. -/
  | frstep (fd fa : Fin 32) (p : Bool) (rm : BitVec 3)
  /-- FSQSTEP (R250): Reciprocal square-root estimate. -/
  | fsqstep (fd fa : Fin 32) (p : Bool) (rm : BitVec 3)
  /-- FMA (R248): Fused multiply-add in F registers. -/
  | fma (fd fa fb fc : Fin 32) (negp negc p : Bool) (rm : BitVec 3)
  /-- FLW (R248): Load binary32 into an F register. -/
  | flw (f ra : Fin 32) (cb : Fin 16) (imm : BitVec 9)
  /-- FLD (R248): Load binary64 into an F register. -/
  | fld (f ra : Fin 32) (cb : Fin 16) (imm : BitVec 9)
  /-- FSW (R248): Store binary32. -/
  | fsw (f ra : Fin 32) (cb : Fin 16) (imm : BitVec 9)
  /-- FSD (R248): Store binary64. -/
  | fsd (f ra : Fin 32) (cb : Fin 16) (imm : BitVec 9)
  /-- FMV (R248): Copy an F register. -/
  | fmv (d r : Fin 32)
  /-- FMVXF (R248): Copy an F register to a G register. -/
  | fmvxf (d r : Fin 32)
  /-- FMVFX (R248): Copy a G register to an F register. -/
  | fmvfx (d r : Fin 32)
  /-- FCVTFF (R248): Convert between binary32 and binary64. -/
  | fcvtff (d r : Fin 32) (p : Bool) (rm : BitVec 3)
  /-- FCVTFS (R248): Convert a signed integer to floating point. -/
  | fcvtfs (d r : Fin 32) (p : Bool) (rm : BitVec 3)
  /-- FCVTFU (R248): Convert an unsigned integer to floating point. -/
  | fcvtfu (d r : Fin 32) (p : Bool) (rm : BitVec 3)
  /-- FCVTSF (R248): Convert floating point to a signed integer. -/
  | fcvtsf (d r : Fin 32) (p : Bool) (rm : BitVec 3)
  /-- FCVTUF (R248): Convert floating point to an unsigned integer. -/
  | fcvtuf (d r : Fin 32) (p : Bool) (rm : BitVec 3)
  /-- FCLASS (R251): Classify an F register. -/
  | fclass (d r : Fin 32) (p : Bool)
  /-- FRCSR (R248): Read FCSR. -/
  | frcsr (d : Fin 32)
  /-- FWCSR (R248): Write FCSR. -/
  | fwcsr (r : Fin 32)
  /-- FCMP (R248): Floating-point compare into a G register. -/
  | fcmp (rd fa fb : Fin 32) (cond : Fin 4) (p : Bool)
  /-- VADD (R255): Vector wrapping add. -/
  | vadd (vd va vb : Fin 32) (grp : Fin 3) (es : Fin 4) (pr : Fin 8)
  /-- VSUB (R255): Vector wrapping subtract. -/
  | vsub (vd va vb : Fin 32) (grp : Fin 3) (es : Fin 4) (pr : Fin 8)
  /-- VADDS (R255): Vector signed saturating add. -/
  | vadds (vd va vb : Fin 32) (grp : Fin 3) (es : Fin 4) (pr : Fin 8)
  /-- VSUBS (R255): Vector signed saturating subtract. -/
  | vsubs (vd va vb : Fin 32) (grp : Fin 3) (es : Fin 4) (pr : Fin 8)
  /-- VADDUS (R255): Vector unsigned saturating add. -/
  | vaddus (vd va vb : Fin 32) (grp : Fin 3) (es : Fin 4) (pr : Fin 8)
  /-- VSUBUS (R255): Vector unsigned saturating subtract. -/
  | vsubus (vd va vb : Fin 32) (grp : Fin 3) (es : Fin 4) (pr : Fin 8)
  /-- VAND (R255): Vector and. -/
  | vand (vd va vb : Fin 32) (grp : Fin 3) (es : Fin 4) (pr : Fin 8)
  /-- VOR (R255): Vector or. -/
  | vor (vd va vb : Fin 32) (grp : Fin 3) (es : Fin 4) (pr : Fin 8)
  /-- VXOR (R255): Vector xor. -/
  | vxor (vd va vb : Fin 32) (grp : Fin 3) (es : Fin 4) (pr : Fin 8)
  /-- VANDN (R255): Vector and-not. -/
  | vandn (vd va vb : Fin 32) (grp : Fin 3) (es : Fin 4) (pr : Fin 8)
  /-- VMIN (R255): Vector signed minimum. -/
  | vmin (vd va vb : Fin 32) (grp : Fin 3) (es : Fin 4) (pr : Fin 8)
  /-- VMAX (R255): Vector signed maximum. -/
  | vmax (vd va vb : Fin 32) (grp : Fin 3) (es : Fin 4) (pr : Fin 8)
  /-- VMINU (R255): Vector unsigned minimum. -/
  | vminu (vd va vb : Fin 32) (grp : Fin 3) (es : Fin 4) (pr : Fin 8)
  /-- VMAXU (R255): Vector unsigned maximum. -/
  | vmaxu (vd va vb : Fin 32) (grp : Fin 3) (es : Fin 4) (pr : Fin 8)
  /-- VMUL (R255): Vector wrapping multiply. -/
  | vmul (vd va vb : Fin 32) (grp : Fin 3) (es : Fin 4) (pr : Fin 8)
  /-- VQMULE (R255): Vector fixed-point multiply, ties to even. -/
  | vqmule (vd va vb : Fin 32) (grp : Fin 3) (es : Fin 4) (pr : Fin 8)
  /-- VQMULH (R255): Vector fixed-point multiply, ties up. -/
  | vqmulh (vd va vb : Fin 32) (grp : Fin 3) (es : Fin 4) (pr : Fin 8)
  /-- VSHL (R255): Vector left shift. -/
  | vshl (vd va vb : Fin 32) (grp : Fin 3) (es : Fin 4) (pr : Fin 8)
  /-- VSHLS (R255): Vector saturating left shift. -/
  | vshls (vd va vb : Fin 32) (grp : Fin 3) (es : Fin 4) (pr : Fin 8)
  /-- VSRL (R255): Vector logical right shift. -/
  | vsrl (vd va vb : Fin 32) (grp : Fin 3) (es : Fin 4) (pr : Fin 8)
  /-- VSRA (R255): Vector arithmetic right shift. -/
  | vsra (vd va vb : Fin 32) (grp : Fin 3) (es : Fin 4) (pr : Fin 8)
  /-- VRSHRE (R255): Vector rounding right shift, ties to even. -/
  | vrshre (vd va vb : Fin 32) (grp : Fin 3) (es : Fin 4) (pr : Fin 8)
  /-- VRSHRH (R255): Vector rounding right shift, ties up. -/
  | vrshrh (vd va vb : Fin 32) (grp : Fin 3) (es : Fin 4) (pr : Fin 8)
  /-- VCMP (R256): Vector compare into a predicate. -/
  | vcmp (pd : Fin 8) (va vb : Fin 32) (fn : Fin 6) (es : Fin 4) (grp : Fin 3) (pr : Fin 8)
  /-- PAND (R256): Predicate and. -/
  | pand (pd pa pb : Fin 8)
  /-- POR (R256): Predicate or. -/
  | por (pd pa pb : Fin 8)
  /-- PXOR (R256): Predicate xor. -/
  | pxor (pd pa pb : Fin 8)
  /-- PANDN (R256): Predicate and-not. -/
  | pandn (pd pa pb : Fin 8)
  /-- PNOT (R256): Predicate not. -/
  | pnot (pd pa : Fin 8)
  /-- PFROMG (R256): Predicate from a G register. -/
  | pfromg (pd : Fin 8) (rg : Fin 32)
  /-- PTOG (R256): Predicate to a G register. -/
  | ptog (pa : Fin 8) (rg : Fin 32)
  /-- PCNT (R256): Count predicate bits. -/
  | pcnt (pa : Fin 8) (rg : Fin 32)
  /-- PFIRST (R256): Index of the lowest set predicate bit. -/
  | pfirst (pa : Fin 8) (rg : Fin 32)
  /-- VINS (R257): Insert a G register into a vector element. -/
  | vins (d r : Fin 32) (es : Fin 4) (idx : Fin 64) (grp : Fin 3)
  /-- VEXT (R257): Extract a vector element to a G register. -/
  | vext (d r : Fin 32) (es : Fin 4) (idx : Fin 64) (grp : Fin 3)
  /-- VSPLAT (R257): Broadcast a G register to every element. -/
  | vsplat (d r : Fin 32) (es : Fin 4) (grp : Fin 3)
  /-- VMOVV (R257): Copy a vector group. -/
  | vmovv (d r : Fin 32) (grp : Fin 3)
  /-- VMEM_LOAD (R258): Interruptible predicated vector load from VX_IDX. -/
  | vmemLoad (v ra : Fin 32) (cb : Fin 16) (grp : Fin 3) (es : Fin 4) (pr : Fin 8) (limit : Nat)
  /-- VMEM_STORE (R258): Interruptible predicated vector store from VX_IDX. -/
  | vmemStore (v ra : Fin 32) (cb : Fin 16) (grp : Fin 3) (es : Fin 4) (pr : Fin 8) (limit : Nat)
  /-- RPT (R260): Start or continue a repeated string or DSTEP body. -/
  | rpt (rc : Fin 32) (sz : Fin 4) (imm : BitVec 16) (body : RptBody) (limit : Nat)
  /-- SMOV (R261): Repeated element copy, descending when regions overlap. -/
  | smov (ra rb : Fin 32) (cs cd : Fin 16)
  /-- SSET (R261): Repeated element fill. -/
  | sset (rd rb : Fin 32) (cd : Fin 16) (down : Bool)
  /-- SCMP (R261): Repeated compare that stops at the first difference. -/
  | scmp (rd ra rb : Fin 32) (cs cd : Fin 16) (down : Bool)
  /-- SSCAN (R261): Repeated scan that stops at the first match. -/
  | sscan (rd ra rb : Fin 32) (cs : Fin 16) (down : Bool)
  /-- WAITEV (R268): Wait for the event register, a chain-time limit or an interrupt. -/
  | waitev (rd ra : Fin 32)
  /-- WAITEV_LIMIT (R268): CT reaches a WAITEV's limit and the wait ends with result 1. -/
  | waitevLimit
  /-- SIGEV (R267): Signal an event to Trifle, the Chain Controller or the Archive processor. -/
  | sigev (tgt : Fin 3)
  /-- WAITT (R269): Wait until CT reaches an instant. -/
  | waitt (rd ra : Fin 32)
  /-- WAITT_END (R269): CT reaches the instant and WAITT writes the ending CT value. -/
  | waittEnd
  /-- CAPLD (R276): Load a capability, keeping its tag through TL. -/
  | capld (cd : Fin 16) (ra : Fin 32) (cb : Fin 16) (imm : BitVec 12)
  /-- CAPST (R276): Store a capability, setting the granule tag through TS. -/
  | capst (cd : Fin 16) (ra : Fin 32) (cb : Fin 16) (imm : BitVec 12)
  /-- CAPMV (R281): Copy a capability register. -/
  | capmv (cd cs : Fin 16)
  /-- CAPNUL (R281): Set a capability register to null. -/
  | capnul (cd : Fin 16)
  /-- CAPSUB (R281): Narrow a capability's bounds. -/
  | capsub (cd cs : Fin 16) (ra rb : Fin 32)
  /-- CAPRST (R281): Restrict a capability's permissions. -/
  | caprst (cd cs : Fin 16) (ra : Fin 32)
  /-- CAPSEAL (R282): Seal a capability with a sealer. -/
  | capseal (cd cs ck : Fin 16)
  /-- CAPOPEN (R282): Unseal a capability with a sealer. -/
  | capopen (cd cs ck : Fin 16)
  /-- CAPSLOT (R281): Move a slot-0 capability into a revocable epoch slot. -/
  | capslot (cd cs : Fin 16) (ra : Fin 32)
  /-- CAPFCH (R281): Copy FCAP to a capability register. -/
  | capfch (cd : Fin 16)
  /-- CAPRB (R281): Read a capability's BASE. -/
  | caprb (cs : Fin 16) (ra : Fin 32)
  /-- CAPRL (R281): Read a capability's LEN. -/
  | caprl (cs : Fin 16) (ra : Fin 32)
  /-- CAPRM (R281): Read a capability's SEAL, OTYPE and PERM. -/
  | caprm (cs : Fin 16) (ra : Fin 32)
  /-- CAPRV (R281): Read a capability's tag and currency. -/
  | caprv (cs : Fin 16) (ra : Fin 32)
  /-- CAPRE (R281): Read a capability's EPOCH. -/
  | capre (cs : Fin 16) (ra : Fin 32)
  /-- GATE (R287): Enter a compartment through a gate entry register, pushing a gate frame. -/
  | gate (n : Fin 16) (keep : BitVec 15)
  /-- GRET (R287): Return from a gate, restoring the caller's authority. -/
  | gret (keep : BitVec 15)
  /-- HRET (R299): Return from a handler, restoring C0 to C14 and completing the source. -/
  | hret
  /-- HREL (R300): End the current handler's hold window. -/
  | hrel
  /-- MFSYS (R303): Read a system register. -/
  | mfsys (g : Fin 32) (n : BitVec 10)
  /-- MTSYS (R303): Write a system register under an authorising capability. -/
  | mtsys (g : Fin 32) (cb : Fin 16) (n : BitVec 10)
  /-- CTOGE (R303): Copy a capability register into a gate entry register. -/
  | ctoge (c cb : Fin 16) (n : Fin 16) (data : Bool)
  /-- GETOC (R303): Copy a gate entry register into a capability register. -/
  | getoc (c cb : Fin 16) (n : Fin 16) (data : Bool)
  /-- INTERRUPT_ENTRY (R296): An eligible interrupt is taken at a boundary and its handler reaches X 14 tc later. -/
  | interruptEntry
  /-- HOLD_WINDOW_END (R300): A hold window ends by count, setting HOLD_OVR. -/
  | holdWindowEnd
  /-- ARM (R285): DEVREQ ARM through a chain capability arms a soft-list entry. -/
  | arm (cb : Fin 16) (g : Fin 32)
  /-- CANCEL (R285): DEVREQ CANCEL through a chain capability cancels a soft-list entry. -/
  | cancel (cb : Fin 16) (g : Fin 32)
  /-- SOURCE_EDGE (R306): A rising edge of a source line sets its pending bit. -/
  | sourceEdge (n : Fin 512)
  /-- UNPEND (R306): A write of 1 to ICU_UNPEND clears pending bits. -/
  | unpend (k : Fin 16) (mask : BitVec 32)
  /-- SLOT_LATCH (R311): In Idle an enabled Watcher slot latches an edge and may start the wake. -/
  | slotLatch (slot : Fin 32)
  /-- MBX_POST (R314): A write of MBX_POSTn posts the staging area with doorbells. -/
  | mbxPost (master : Fin 14) (secure : Bool) (chan : Fin 64) (bells : BitVec 32)
  /-- MBX_ACK (R315): A write of MBX_ACKn.ACK clears FULL and sets EMPTY. -/
  | mbxAck (master : Fin 14) (secure : Bool) (chan : Fin 64) (ack : Bool)
  /-- MBX_CFG (R320): A write to MBX_CFGn sets the endpoints or is refused. -/
  | mbxCfg (master : Fin 14) (secure : Bool) (chan : Fin 64) (value : BitVec 32)
  /-- POST (R319): DEVREQ POST through a channel capability posts a message. -/
  | post (cb : Fin 16) (g : Fin 32)
  /-- ACK (R319): DEVREQ ACK acknowledges a channel. -/
  | ack (cb : Fin 16) (g : Fin 32)
  /-- RING (R319): DEVREQ RING ORs doorbells into a channel. -/
  | ring (cb : Fin 16) (g : Fin 32)
  /-- SETEP (R319): DEVREQ SETEP sets a channel's endpoints. -/
  | setep (cb : Fin 16) (g : Fin 32)
  /-- ENQ (R326): DEVREQ ENQ enqueues the staging slot's message. -/
  | enq (cb : Fin 16) (g : Fin 32)
  /-- DEQ (R326): DEVREQ DEQ copies the head entry into RX. -/
  | deq (cb : Fin 16) (g : Fin 32)
  /-- DROP (R326): DEVREQ DROP removes the head entry. -/
  | drop (cb : Fin 16) (g : Fin 32)
  /-- STAT (R326): DEVREQ STAT reports a queue's depth. -/
  | stat (cb : Fin 16) (g : Fin 32)
  /-- ATTACH (R326): DEVREQ ATTACH reads and enables a queue descriptor. -/
  | attach (cb : Fin 16) (g : Fin 32)
  /-- DETACH (R326): DEVREQ DETACH evicts a queue descriptor. -/
  | detach (cb : Fin 16) (g : Fin 32)
  /-- STALL_VISIT (R330): The engine visits a pinned queue and reports it stalled if its age limit has passed. -/
  | stallVisit (queue : BitVec 20)
  /-- QUE_STALLQ (R335): A read of QUE_STALLQ that returns VALID removes the oldest stalled queue. -/
  | queStallq
  /-- QUE_NOTE (R335): A read of QUE_NOTEf that returns VALID removes the oldest notification. -/
  | queNote (f : Fin 3)
  /-- PORT_UP (R339): A chain port with both lanes locked and 1,000 µs free of errors comes up. -/
  | portUp (port : Fin 2)
  /-- SEGMENT_DOWN (R340): A segment goes down on lost lock or repeated frame failure, changing topology. -/
  | segmentDown (port : Fin 2)
  /-- LACK (R348): A LACK block acknowledges a sent frame as good or bad, retrying a bad one once. -/
  | lack (port : Fin 2) (lseq : BitVec 8) (good : Bool)
  /-- LACK_TIMEOUT (R348): A frame not acknowledged within 4 µs is sent once more or dropped. -/
  | lackTimeout (port : Fin 2)
  /-- FRAME_FORWARD (R347): A received frame with a checked TERM is consumed, forwarded or dropped by its DST. -/
  | frameForward (port : Fin 2) (lseq : BitVec 8) (bytes : List Byte) (good : Bool)
  /-- PEER_DELAY (R358): Every 1,000 µs each up port sends TMARK PDREQ. -/
  | peerDelay (port : Fin 2)
  /-- PDREQ (R358): The peer stamps a PDREQ and answers with TMARK PDRESP and a TIME PDRESP frame. -/
  | pdreq (port : Fin 2) (seq : BitVec 16) (turn : BitVec 64)
  /-- PDRESP (R358): The requester computes the link delay from a PDRESP. -/
  | pdresp (port : Fin 2) (t4 : BitVec 64)
  /-- SYNC_SEND (R358): Every 125 µs the head sends TMARK SYNC and a TIME SYNC frame. -/
  | syncSend
  /-- TIME_SYNC (R359): A received SYNC is relayed, and the master copy is stepped or the Ribbon PLL steered. -/
  | timeSync (port : Fin 2) (stamp residence : BitVec 64)
  /-- SYNC_TIMEOUT (R359): No SYNC for 2,000 µs loses lock and the PLL holds its frequency. -/
  | syncTimeout
  /-- HELLO_LISTEN (R359): A head's 10 ms of listening after cold reset ends, adopting a locked neighbour's time or
  counting from 0. -/
  | helloListen
  /-- MGMT_ENUM (R352): A module takes the offered address and passes ENUM on. -/
  | mgmtEnum
  /-- HELLO (R352): A HELLO from an unaddressed module makes the head enumerate again. -/
  | hello
  /-- ENUM_END (R352): The last module reports the last address and the head broadcasts TOPO. -/
  | enumEnd
  /-- TOPO (R361): A module applies the topology of the highest generation. -/
  | topo
  /-- CHAL (R353): A challenged module answers with CERT frames. -/
  | chal
  /-- CERT (R353): The challenger verifies the certificate chain and signature. -/
  | cert
  /-- TRUST (R353): A module keeps the trust bitmap of the highest generation. -/
  | trust
  /-- MGMT_WAKE (R346): A module wakes from Idle or sends the wake pattern across a down segment. -/
  | mgmtWake
  /-- MGMT_RESET (R364): An authenticated RESET frame schedules a core, warm or cold reset. -/
  | mgmtReset
  /-- RESET_INSTANT (R364): The instant of a pending chain reset arrives and the reset is applied. -/
  | resetInstant
  /-- SESSION_OFFER (R449): A responder answers a session OFFER with ACCEPT. -/
  | sessionOffer
  /-- SESSION_ACCEPT (R449): The initiator verifies ACCEPT, installs the key and sends CONFIRM. -/
  | sessionAccept
  /-- SESSION_CONFIRM (R449): The responder verifies CONFIRM and installs the key. -/
  | sessionConfirm
  /-- MSG_POST (R357): A MSG POST frame posts a 64-byte message to a mailbox channel. -/
  | msgPost
  /-- MSG_ENQ (R357): A MSG ENQ frame enqueues its messages to a hardware queue. -/
  | msgEnq
  /-- NAK (R356): A received NAK is counted and logged in CHN_NAKLOG. -/
  | nak
  /-- SNAPSHOT_REQUEST (R362): A write of CHN_SNAP_CMD.GO broadcasts SNAP or is refused as LATE. -/
  | snapshotRequest (id : BitVec 16)
  /-- SNAP (R362): A received SNAP becomes pending, replaces one, or is late. -/
  | snap
  /-- SNAPSHOT_STROBE (R362): At chain time T every block latches its snapshot counters. -/
  | snapshotStrobe
  /-- RECIPE_OFFER (R363): A recipe OFFER is answered with STATUS or refused. -/
  | recipeOffer
  /-- RECIPE_DATA (R363): A recipe chunk is written to staging or discarded out of order. -/
  | recipeData
  /-- RECIPE_STATUS (R363): The source receives a STATUS and resends missing chunks. -/
  | recipeStatus
  /-- RECIPE_COMMIT (R363): The target checks the hash and signature and commits the recipe. -/
  | recipeCommit
  /-- DEBUG_BATCH (R466): A DEBUG frame runs its batch of debug commands and answers. -/
  | debugBatch
  /-- DEBUG_REPLY (R466): A DEBUG reply frame reaches the requesting module. -/
  | debugReply
  /-- ENUM (R352): CHN_CMD with OP ENUM starts enumeration at the head. -/
  | enum
  /-- WAKE_U (R342): CHN_CMD WAKE_U sends the wake pattern out of port U. -/
  | wakeU
  /-- WAKE_D (R342): CHN_CMD WAKE_D sends the wake pattern out of port D. -/
  | wakeD
  /-- CHN_TSET (R366): A write of CHN_TSET_HI at a stopped head steps the master copy of chain time. -/
  | chnTset (hi : BitVec 32)
  /-- CHAIN_CTRL_MM (R365): A Chain Controller compare mismatch restarts it from ROM. -/
  | chainCtrlMm
  /-- CC_RESTART_END (R365): The Chain Controller finishes its restart and handles frames again. -/
  | ccRestartEnd
  /-- INBOUND_EXCHANGE (R373): The block swaps inbound banks and writes its mapped words to the Lattice. -/
  | inboundExchange (b : Fin 64)
  /-- OUTBOUND_EXCHANGE (R373): The block reads mapped Lattice words into its next outbound bank. -/
  | outboundExchange (b : Fin 64)
  /-- EXCHANGE_COMPLETE (R374): An exchange completes at the block and is reported to the sequencer. -/
  | exchangeComplete (b : Fin 64)
  /-- DOWN (R377): At B + TXOFF a DRIVE port sends a DOWN frame from the current bank. -/
  | down (b : Fin 64) (k : Fin 16)
  /-- UP (R379): A good UP frame is written into the filling bank. -/
  | up (b : Fin 64) (k : Fin 16) (frame : List Byte) (codeErr : Bool) (delay : BitVec 12)
  /-- UP_TIMEOUT (R380): No UP SOF within 2,500 ns of the DOWN EOF is a timeout. -/
  | upTimeout (b : Fin 64) (k : Fin 16)
  /-- HUB_DOWN (R383): A HUB port sends HUB_DOWN with its outputs. -/
  | hubDown (b : Fin 64) (k : Fin 16)
  /-- HUB_UP (R383): A good HUB_UP frame writes the inputs into the filling bank. -/
  | hubUp (b : Fin 64) (k : Fin 16) (frame : List Byte) (codeErr : Bool) (delay : BitVec 12)
  /-- IDENT (R384): DEVREQ IDENT replaces a port's next transmission with IDENT_REQ. -/
  | ident (cb : Fin 16) (g : Fin 32)
  /-- IDENT_FRAME (R384): A peer's IDENT answer is written to the port area. -/
  | identFrame (b : Fin 64) (k : Fin 16) (frame : List Byte) (codeErr : Bool) (delay : BitVec 12)
  /-- CLRCNT (R389): DEVREQ CLRCNT clears a port's counters. -/
  | clrcnt (cb : Fin 16) (g : Fin 32)
  /-- SETCFG (R389): DEVREQ SETCFG writes a port's configuration. -/
  | setcfg (cb : Fin 16) (g : Fin 32)
  /-- SSI_TRANSFER (R385): An SSI master port clocks in an encoder value at B + TXOFF. -/
  | ssiTransfer (b : Fin 64) (k : Fin 16) (value : BitVec 64)
  /-- CAPTURE_EDGE (R386): A CAPTURE port stamps a selected edge. -/
  | captureEdge (b : Fin 64) (k : Fin 16) (rising : Bool)
  /-- PULSE_ENTRY (R387): A PULSE port places an entry's level at its instant. -/
  | pulseEntry (b : Fin 64) (k : Fin 16)
  /-- MARK_PULSE (R387): A PULSE port with MARKEN inverts its level for WIDTH at a mark stamp plus TXOFF. -/
  | markPulse (b : Fin 64) (k : Fin 16)
  /-- UART_TRANSMIT (R388): A UART port sends its port-area bytes at B + TXOFF. -/
  | uartTransmit (b : Fin 64) (k : Fin 16)
  /-- UART_RECEIVE (R388): A UART port writes a received character to its filling port area. -/
  | uartReceive (b : Fin 64) (k : Fin 16) (char : BitVec 8) (bad : Bool)
  /-- START (R391): DEVREQ START starts a mover on a descriptor after its checks. -/
  | start (cb : Fin 16) (g : Fin 32)
  /-- STOP (R392): DEVREQ STOP ends a mover's transfer after the current block. -/
  | stop (cb : Fin 16) (g : Fin 32) (blocks : Nat)
  /-- MOVER_COMPLETE (R391): A mover's last write is granted or acknowledged and DONE is set. -/
  | moverComplete (n : Fin 8)
  /-- FRAME_START (R394): A camera frame takes the next FREE slot or is dropped. -/
  | frameStart (n : Fin 8) (stream0 : Bool) (fmt : CamFmt)
  /-- FRAME_END (R394): The frame's slot becomes HELD and an entry is pushed into CAM_DONE. -/
  | frameEnd (n : Fin 8) (rows : List (List (Option (BitVec 16))))
  /-- CAM_DONE (R400): A read of CAM_DONE that returns VALID removes the entry and loads DINFO and DSTAMP. -/
  | camDone (n : Fin 8)
  /-- CAM_REL (R394): A write of CAM_REL frees a HELD slot. -/
  | camRel (n : Fin 8) (go : Bool) (slot : Fin 16)
  /-- TRIGGER (R395): A trigger packet is sent to the camera at its instant. -/
  | trigger (n : Fin 8)
  /-- CAM_CCMD (R396): A write of CAM_CCMD with GO starts a camera register access. -/
  | camCcmd (n : Fin 8) (value : BitVec 32)
  /-- CONTROL_ACK (R396): The camera's acknowledgement clears BUSY. -/
  | controlAck (n : Fin 8) (error : Bool) (data : List (BitVec 32))
  /-- CONTROL_TIMEOUT (R396): No acknowledgement after 200 ms sets ERR. -/
  | controlTimeout (n : Fin 8)
  /-- ARCHIVE_START (R403): ARC_CMD START copies firmware into the Archive processor. -/
  | archiveStart
  /-- REPROBE (R410): ARC_CMD REPROBE retrains a drive and recovers its ring. -/
  | reprobe (probe : DriveProbe)
  /-- ARCHIVE_RECOVERY (R412): Recovery of the journals ends and STATE becomes READY. -/
  | archiveRecovery (probes : List DriveProbe)
  /-- ARCHIVE_WATCHDOG (R403): HB has not advanced for 100 ms and the Archive restarts or enters FAULT. -/
  | archiveWatchdog
  /-- APPEND (R407): An APPEND request is written as a record and completed after its Flush. -/
  | append
  /-- READ (R408): A READ request copies a record into the buffer. -/
  | read
  /-- FLUSH (R409): Within 1 ms of an unflushed write a Flush is issued on its drive. -/
  | flush (drive : Fin 4)
  /-- COMPLETION_RETRY (R409): A completion refused by a full ARC_CQUEUE is retried every 1 ms. -/
  | completionRetry
  /-- COMMAND_TIMEOUT (R410): A drive command not done in 2 s is retried, then fails the drive. -/
  | commandTimeout (drive : Fin 4)
  /-- WEAR_CHECK (R410): Each hour the SMART wear is read and WEAR may be raised. -/
  | wearCheck (drive : Fin 4) (used : BitVec 8)
  /-- IDLE (R416): PWR_CTL OP IDLE gates clocks, or is refused. -/
  | idle
  /-- DORMANT (R417): PWR_CTL OP DORMANT powers off all but the Dormant domain, or is refused. -/
  | dormant
  /-- IDLE_WAKE (R415): A wake event returns the module from Idle to Run. -/
  | idleWake
  /-- THAW (R418): The wake pattern brings the rails up and applies a cold reset. -/
  | thaw
  /-- LINE_POWER_ON (R415): A port begins to draw from Off, requesting a cold reset with POR. -/
  | linePowerOn
  /-- POWER_FAIL (R481): No port has drawn for 20 µs, power-fail is raised and VOLT and CLK disarmed. -/
  | powerFail
  /-- POWER_LOSS (R415): Both ports stop drawing and the core rails fall, so the module is Off. -/
  | powerLoss
  /-- BOR (R419): A core rail below its threshold for 1 µs requests a cold reset. -/
  | bor
  /-- PIN (R421): A 10 µs low on RESET_N/DW requests a cold or warm reset. -/
  | pin
  /-- COLD_RESET (R422): A cold reset is asserted and reaches every block as tabled. -/
  | coldReset
  /-- WARM_RESET (R422): A warm reset is asserted and reaches its blocks as tabled. -/
  | warmReset
  /-- CORE_RESET (R422): A core reset is asserted and reaches Trifle. -/
  | coreReset
  /-- RESET_RELEASE (R421): The reset is released after the pin is high for 1 µs and a start begins. -/
  | resetRelease
  /-- START_WINDOW (R425): The 2,000 ms start window expires, counting a failed start and a warm reset. -/
  | startWindow
  /-- RST_STARTED (R424): A write of RST_STARTED.DONE makes the start succeed. -/
  | rstStarted
  /-- SW_CORE_RESET (R443): RST_CMD OP core requests a core reset. -/
  | swCoreReset
  /-- SW_WARM_RESET (R443): RST_CMD OP warm requests a warm reset. -/
  | swWarmReset
  /-- SW_COLD_RESET (R443): RST_CMD OP cold requests a cold reset. -/
  | swColdReset
  /-- WATCHDOG_EXPIRY (R427): The Trifle watchdog expires and requests a warm reset. -/
  | watchdogExpiry
  /-- KICK (R427): A write of RST_WDT_KICK restarts the watchdog or sets BADKICK. -/
  | kick (key : BitVec 16)
  /-- FLASH_READ (R443): RST_FL_CTL GO with OP READ copies flash to Bulk. -/
  | flashRead (value : BitVec 32)
  /-- PROGRAM (R443): RST_FL_CTL GO with OP PROGRAM writes Bulk to flash. -/
  | program (value : BitVec 32)
  /-- ERASE (R443): RST_FL_CTL GO with OP ERASE erases flash sectors. -/
  | erase (value : BitVec 32)
  /-- RAW (R443): RST_FL_CTL GO with OP RAW sends a raw 1S command. -/
  | raw (value : BitVec 32)
  /-- DRST (R443): RST_FL_CTL.DRST pulses a flash device's reset contact. -/
  | drst (value : BitVec 32)
  /-- FLASH_DONE (R443): A flash operation completes or times out, clearing BUSY. -/
  | flashDone (failed : Bool)
  /-- PWR_DOWN (R444): A write of PWR_DOWN powers blocks down or up. -/
  | pwrDown (value : BitVec 32)
  /-- PROVISION (R453): SEC_LCCMD PROVISION moves BLANK to PROVISIONED. -/
  | provision (debug : Bool)
  /-- DEPLOY (R453): SEC_LCCMD DEPLOY moves PROVISIONED to DEPLOYED. -/
  | deploy
  /-- SERVICE (R453): SEC_LCCMD SERVICE moves DEPLOYED to SERVICE under a signed authorisation. -/
  | service (arg : Fin 4)
  /-- LIFECYCLE_RESUME (R453): SEC_LCCMD RESUME moves SERVICE to DEPLOYED. -/
  | lifecycleResume
  /-- RETIRE (R453): SEC_LCCMD RETIRE blows the RETIRED fuse. -/
  | retire (arg : Fin 4)
  /-- KEYPROG (R453): SEC_LCCMD KEYPROG programs a builder key slot once. -/
  | keyprog (slot : Fin 4)
  /-- REVOKE (R453): SEC_LCCMD REVOKE revokes a builder key slot. -/
  | revoke (slot : Fin 4)
  /-- WIPE (R456): SEC_CMD WIPE zeroes and verifies the Secure Store. -/
  | wipe
  /-- TAMPER (R455): A tamper source fires, wiping secrets and applying a cold reset. -/
  | tamper (sources : BitVec 4)
  /-- WAKE_SEQUENCE (R460): Eight pulses wake the debug link, which answers with presence and enters ACTIVE. -/
  | wakeSequence (periods : List Nat)
  /-- LONG_LOW (R459): A low of 8.5 µs returns the debug link to SLEEP and sets RESETSEEN. -/
  | longLow
  /-- LINK_TIMEOUT (R459): 1 ms without a falling edge returns the debug link to SLEEP. -/
  | linkTimeout
  /-- DRD (R463): Read a DBG_ register. -/
  | drd (idx crc : BitVec 8)
  /-- DWR (R463): Write a DBG_ register. -/
  | dwr (idx : BitVec 8) (data : BitVec 32) (crc : BitVec 8)
  /-- MRD (R463): Read 4 bytes of memory as master 1. -/
  | mrd (addr : BitVec 40) (crc : BitVec 8) (slow : Bool)
  /-- MWR (R463): Write 4 bytes of memory as master 1. -/
  | mwr (addr : BitVec 40) (data : BitVec 32) (crc : BitVec 8) (slow : Bool)
  /-- MRDN (R463): Read at DBG_MADDR and advance it. -/
  | mrdn (crc : BitVec 8) (slow : Bool)
  /-- MWRN (R463): Write at DBG_MADDR and advance it. -/
  | mwrn (data : BitVec 32) (crc : BitVec 8) (slow : Bool)
  /-- RSLT (R464): Return the result of an access that answered WAIT. -/
  | rslt (crc : BitVec 8)
  /-- HALT (R469): DBG_CTL.HALT stops Trifle at a boundary under Frost or Freeze. -/
  | halt (value : BitVec 32)
  /-- STEP (R471): DBG_CTL.STEP retires one instruction of the halted slice. -/
  | step (value : BitVec 32)
  /-- RESUME (R472): DBG_CTL.RESUME clears HALT and requests a resynchronisation. -/
  | resume (value : BitVec 32)
  /-- LOCK (R468): DBG_CTL.LOCK ends the debug unlock. -/
  | lock (value : BitVec 32)
  /-- DBG_CORE_RESET (R476): DBG_CTL.RST 0b01 requests a core reset. -/
  | dbgCoreReset (value : BitVec 32)
  /-- DBG_WARM_RESET (R476): DBG_CTL.RST 0b10 requests a warm reset. -/
  | dbgWarmReset (value : BitVec 32)
  /-- DBG_COLD_RESET (R476): DBG_CTL.RST 0b11 requests a cold reset. -/
  | dbgColdReset (value : BitVec 32)
  /-- UNLOCK (R468): DBG_UNLOCK GO verifies DBG_AUTH and grants a scope. -/
  | unlock (scope : BitVec 8)
  /-- DBG_RDATA (R474): A write of DBG_RDATA_HI writes the selected register of the halted slice. -/
  | dbgRdata (hi : BitVec 32)
  /-- DBG_TXD (R475): DBG_TXD pushes a firmware byte or pops it to the probe. -/
  | dbgTxd (push : Option Byte)
  /-- DBG_RXD (R475): DBG_RXD pushes a probe byte or pops it to firmware. -/
  | dbgRxd (push : Option Byte)
  /-- ILL (R224): Trifle reaches X with a reserved or ILL encoding, including the all-zero word, and raises ILL at
  handler entry 2. -/
  | ill
  /-- CAMERA_LINK_UP (R393): A camera port completes discovery and its CoaXPress link comes up at a bit rate, setting
  CAM_STAT.LINK and SPEED. -/
  | cameraLinkUp (n : Fin 8) (speed : Fin 8)
  /-- CAMERA_LINK_LOSS (R400): A camera link is lost or has a coding error, setting CAM_STAT.LINKERR and taking the
  link down. -/
  | cameraLinkLoss (n : Fin 8)
  /-- PCIE_LINK_DOWN (R410): A root port's link goes down, by surprise removal or otherwise, and a drive that does
  not retrain within 1 s is marked FAILED. -/
  | pcieLinkDown (drive : Fin 4) (retrains : Bool)
  /-- NVME_FATAL_ERROR (R410): A drive reports an uncorrectable AER error or a controller fatal status and is marked
  FAILED, leaving the rotation. -/
  | nvmeFatalError (drive : Fin 4)
  /-- PORT_DRAW_CHANGE (R341): The line voltage at a chain port crosses its draw or over-voltage thresholds, so the
  port starts or stops drawing and the load moves between ports, clearing power-fail when a port draws again. -/
  | portDrawChange (port : Fin 2) (vin : BitVec 12)
  /-- SUPERBLOCK_REWRITE (R406): At most 1 s after a change of head or tail the Archive rewrites the alternate
  superblock copy with a higher generation. -/
  | superblockRewrite (drive : Fin 4)
deriving DecidableEq, Repr

end Sys2Proof
end

