-- ==== Sys2Proof/Decode.lean ====
section
/-! DEFINITION. Decode.lean: the command that a word spells by the bits of spec/opcode_table.json. No row of that table
gives a bit, so no word spells a command: the block takes its commands from its queue. -/

namespace Sys2Proof

/-- The command that an nbits-wide word spells by the table's bits: none, since no row has any. -/
def decodeTableWord (_nbits _w : Nat) : Option Instr := none

end Sys2Proof
end

