-- ==== Sys2Proof/Machine/Bits.lean ====
section
/-! DEFINITION. Machine/Bits.lean: bit fields, sign extension, little-endian bytes (R5, R12) and the cyclic redundancy
checks the spec gives (R430 for CRC-32C, R462 for the debug CRC-8). -/

namespace Sys2Proof.Machine

/-- Bits hi down to lo of x. -/
def bits (x hi lo : Nat) : Nat := x / 2 ^ lo % 2 ^ (hi + 1 - lo)

/-- Bit i of x, as a number. -/
def bit (x i : Nat) : Nat := x / 2 ^ i % 2

/-- Is bit i of x set? -/
def bitb (x i : Nat) : Bool := x / 2 ^ i % 2 == 1

/-- x with bits hi down to lo replaced by v. -/
def setBits (x hi lo v : Nat) : Nat :=
  x / 2 ^ (hi + 1) * 2 ^ (hi + 1) + v % 2 ^ (hi + 1 - lo) * 2 ^ lo + x % 2 ^ lo

/-- trunc(x, w) of R12. -/
def trunc (x w : Nat) : Nat := x % 2 ^ w

/-- The low w bits of x read as two's complement. -/
def asInt (x w : Nat) : Int :=
  if x % 2 ^ w < 2 ^ (w - 1) then (x % 2 ^ w : Nat) else (x % 2 ^ w : Nat) - (2 ^ w : Nat)

/-- The w-bit two's-complement pattern of an integer. -/
def ofInt (v : Int) (w : Nat) : Nat := (v % (2 ^ w : Nat)).toNat

/-- A Boolean as a bit. -/
def b2n (b : Bool) : Nat := if b then 1 else 0

/-- Is x a power of two? -/
def isPow2 (x : Nat) : Bool := x != 0 && 2 ^ Nat.log2 x == x

/-- The number of set bits among the low w bits. -/
def popcount : Nat → Nat → Nat
  | 0, _ => 0
  | w + 1, x => x % 2 + popcount w (x / 2)

/-- The number of leading zero bits of a w-bit value. -/
def clz (w x : Nat) : Nat := if x % 2 ^ w = 0 then w else w - 1 - Nat.log2 (x % 2 ^ w)

/-- The number of trailing zero bits of a w-bit value. -/
def ctz : Nat → Nat → Nat
  | 0, _ => 0
  | w + 1, x => if x % 2 = 1 then 0 else 1 + ctz w (x / 2)

/-- The n low bytes of x, least significant first (R5). -/
def toBytes : Nat → Nat → List Byte
  | 0, _ => []
  | n + 1, x => BitVec.ofNat 8 x :: toBytes n (x / 256)

/-- The number that little-endian bytes spell (R5). -/
def ofBytes : List Byte → Nat
  | [] => 0
  | b :: t => b.toNat + 256 * ofBytes t

/-- n consecutive elements of s bytes each, read from little-endian bytes. -/
def elemsOf : Nat → Nat → List Byte → List Nat
  | 0, _, _ => []
  | n + 1, s, bs => ofBytes (bs.take s) :: elemsOf n s (bs.drop s)

/-- Element i of a list, or zero past its end. -/
def nth (l : List Nat) (i : Nat) : Nat := l.getD i 0

/-- The list with element i replaced (unchanged past its end). -/
def setNth {α : Type} (l : List α) (i : Nat) (v : α) : List α := l.set i v

/-- One bit of the serial CRC-32C over a reflected register. -/
def crc32cBit (c : Nat) : Nat := if c % 2 = 1 then Nat.xor (c / 2) 0x82F63B78 else c / 2

/-- Eight bits of it. -/
def crc32cByte (c : Nat) (b : Byte) : Nat :=
  crc32cBit (crc32cBit (crc32cBit (crc32cBit (crc32cBit (crc32cBit (crc32cBit (crc32cBit (Nat.xor c b.toNat))))))))

/-- CRC-32C: the Castagnoli polynomial, initial value 0xFFFF_FFFF, final inversion (R430). The bit order is the one
CRC-32C is defined with (PRESUMED, log entry 25). -/
def crc32c (bs : List Byte) : Nat := Nat.xor (bs.foldl crc32cByte 0xFFFFFFFF) 0xFFFFFFFF

/-- One bit of the serial CRC-32 over a reflected register. -/
def crc32Bit (c : Nat) : Nat := if c % 2 = 1 then Nat.xor (c / 2) 0xEDB88320 else c / 2

/-- Eight bits of it. -/
def crc32Byte (c : Nat) (b : Byte) : Nat :=
  crc32Bit (crc32Bit (crc32Bit (crc32Bit (crc32Bit (crc32Bit (crc32Bit (crc32Bit (Nat.xor c b.toNat))))))))

/-- CRC-32 of chain and Xagrim frames: the IEEE 802.3 polynomial, initial value 0xFFFF_FFFF, final inversion (R343, R375).
The bit order is IEEE 802.3's (PRESUMED, log entry 25). -/
def crc32 (bs : List Byte) : Nat := Nat.xor (bs.foldl crc32Byte 0xFFFFFFFF) 0xFFFFFFFF

/-- One bit of the debug CRC-8 (R462). -/
def crc8Bit (c : Nat) (b : Bool) : Nat :=
  let f := Bool.xor b (bitb c 7)
  let c' := c * 2 % 256
  if f then Nat.xor c' 0x07 else c'

/-- The bits of a w-bit field, least significant first (R462). -/
def lsbBits : Nat → Nat → List Bool
  | 0, _ => []
  | w + 1, x => (x % 2 == 1) :: lsbBits w (x / 2)

/-- The CRC-8 of R462 over fields given as (width, value), in the order they cross the wire. -/
def crc8 (fs : List (Nat × Nat)) : Nat :=
  (fs.flatMap (fun f => lsbBits f.1 f.2)).foldl crc8Bit 0

/-- 0, 1, …, n − 1. -/
def upto (n : Nat) : List Nat := List.range n

/-- The least natural number below n that satisfies p. -/
def firstBelow (n : Nat) (p : Nat → Bool) : Option Nat := (List.range n).find? p

end Sys2Proof.Machine
end

