-- ==== Sys2Proof/Config.lean ====
section
/-! DEFINITION. Config.lean: what the spec leaves open, as constants without a body: nothing can be proved of their
values. Byte strings stand least significant byte first. -/

namespace Sys2Proof.Config

/-- The n-th free value the machine uses. -/
opaque freeBits : Nat → BitVec 256

/-- The boot ROM's bytes, which the spec does not list (R23). -/
opaque bootRomByte : Nat → Byte

/-- SHA-256, a standard's function that the spec names (R353, R439, R442, R447). -/
opaque sha256 : List Byte → List Byte

/-- Does an ECDSA P-256 signature (r, s) over SHA-256 of a message verify under a 64-byte public key (R447)? -/
opaque ecdsaVerify : (key message signature : List Byte) → Bool

/-- The signature of this module's device key over SHA-256 of a message (R446). -/
opaque deviceSign : (message : List Byte) → List Byte

/-- Does a certificate string (chain, signature) verify against a line trust anchor, for a nonce, an address and a role epoch
(R353)? -/
opaque certVerify : (anchor cert nonce : List Byte) → (addr epoch : Nat) → Bool

/-- Does a signature of the device key of the module at an address verify over a message (R449)? -/
opaque peerVerify : (addr : Nat) → (message signature : List Byte) → Bool

/-- The ephemeral P-256 public key (64 B) of the n-th ephemeral secret (R449). -/
opaque ephemeralKey : Nat → List Byte

/-- HKDF-SHA-256 of the ECDH secret of the n-th ephemeral secret and a peer's public key, with salt and info (R449). -/
opaque sessionKey : (secret : Nat) → (peerKey salt info : List Byte) → List Byte

/-- AES-256-GCM (R351): the ciphertext and 16-byte tag, and the plaintext of those if the tag verifies. -/
opaque gcmSeal : (key nonce header plain : List Byte) → List Byte
opaque gcmOpen : (key nonce header sealed : List Byte) → Option (List Byte)

end Sys2Proof.Config
end

