-- ==== Sys2Proof/Machine/RegTable.lean ====
section
/-! DEFINITION. Machine/RegTable.lean: the peripheral registers, as the register tables of the spec give them
(R8 to R11 for the field types; each page's own rule for its registers: R41, R79, R126, R187, R216, R332 to R335,
R366, R399 to R401, R413, R443 to R445, R457, R476). -/

namespace Sys2Proof.Machine

/-- Field types of R8. -/
inductive FTy where
  | ro | rw | wo | w1c | w1s | rws | rwk
deriving DecidableEq, Repr

/-- How far a field keeps its value (R8, R9, R423): `none`, reset by every reset that reaches the block; `core`, kept
through core reset only; `warm`, kept through warm and core reset; `all`, kept through every reset, loaded at line
power-on and Thaw; `rwk`, kept through Dormant and every reset, loaded at line power-on. -/
inductive Keep where
  | none | core | warm | all | rwk
deriving DecidableEq, Repr

/-- One field of a register: its bits, type, reset value and reach. -/
structure FSpec where
  hi : Nat
  lo : Nat
  ty : FTy
  reset : Nat
  keep : Keep
deriving DecidableEq, Repr

/-- A register, or an array of registers: element (i, j) lies at `base + i * s1 + j * s2`. Bits no field names are
reserved (R10). -/
structure RSpec where
  base : Nat
  n1 : Nat
  s1 : Nat
  n2 : Nat
  s2 : Nat
  secure : Bool
  fields : List FSpec
deriving DecidableEq, Repr

/-- A named field: the register's physical address and the field's bits. -/
structure Fld where
  addr : Nat
  hi : Nat
  lo : Nat
deriving DecidableEq, Repr

/-- Does the register (array) lie at address a? -/
def RSpec.covers (r : RSpec) (a : Nat) : Bool :=
  if a < r.base then false else
  let off := a - r.base
  let i := if r.n1 = 1 then 0 else off / r.s1
  let rem := if r.n1 = 1 then off else off % r.s1
  let j := if r.n2 = 1 then 0 else rem / r.s2
  let rest := if r.n2 = 1 then rem else rem % r.s2
  decide (i < r.n1) && decide (j < r.n2) && decide (rest = 0)

/-- The reset value of a register: its fields' reset values in place. -/
def RSpec.resetVal (r : RSpec) : Nat := r.fields.foldl (fun acc f => acc + f.reset * 2 ^ f.lo) 0


/-- The RST_ page (R443). -/
def specsRst : List RSpec := [
  ⟨0x40000000, 1, 0, 1, 0, false, [⟨13, 0, .w1c, 1, .all⟩]⟩, /- RST_CAUSE -/
  ⟨0x40000004, 1, 0, 1, 0, false, [⟨3, 3, .w1c, 0, .none⟩, ⟨2, 2, .ro, 0, .none⟩, ⟨1, 1, .ro, 0, .none⟩, ⟨0, 0, .ro, 0, .none⟩]⟩, /- RST_STAT -/
  ⟨0x40000008, 1, 0, 1, 0, false, [⟨7, 0, .rw, 0, .all⟩]⟩, /- RST_STARTS -/
  ⟨0x4000000C, 1, 0, 1, 0, false, [⟨0, 0, .wo, 0, .none⟩]⟩, /- RST_STARTED -/
  ⟨0x40000010, 1, 0, 1, 0, true, [⟨31, 28, .wo, 0, .none⟩]⟩, /- RST_CMD -/
  ⟨0x40000014, 1, 0, 1, 0, true, [⟨0, 0, .rws, 0, .warm⟩]⟩, /- RST_CTL -/
  ⟨0x40000018, 1, 0, 1, 0, false, [⟨31, 31, .w1s, 0, .none⟩, ⟨11, 0, .rw, 1000, .none⟩]⟩, /- RST_WDT -/
  ⟨0x4000001C, 1, 0, 1, 0, false, [⟨15, 0, .wo, 0, .none⟩]⟩, /- RST_WDT_KICK -/
  ⟨0x40000020, 8, 4, 1, 0, false, [⟨31, 0, .rw, 0, .all⟩]⟩, /- RST_BKP -/
  ⟨0x40000100, 1, 0, 1, 0, true, [⟨31, 31, .wo, 0, .none⟩, ⟨30, 30, .ro, 0, .none⟩, ⟨29, 29, .w1c, 0, .none⟩, ⟨28, 28, .wo, 0, .none⟩, ⟨27, 26, .rw, 0, .none⟩, ⟨25, 25, .rw, 0, .none⟩, ⟨24, 24, .rw, 0, .none⟩, ⟨23, 16, .rw, 0, .none⟩, ⟨15, 8, .rw, 0, .none⟩]⟩, /- RST_FL_CTL -/
  ⟨0x40000104, 1, 0, 1, 0, true, [⟨26, 0, .rw, 0, .none⟩]⟩, /- RST_FL_FADDR -/
  ⟨0x40000108, 1, 0, 1, 0, true, [⟨31, 6, .rw, 0, .none⟩]⟩, /- RST_FL_BADDR_LO -/
  ⟨0x4000010C, 1, 0, 1, 0, true, [⟨7, 0, .rw, 0, .none⟩]⟩, /- RST_FL_BADDR_HI -/
  ⟨0x40000110, 1, 0, 1, 0, true, [⟨26, 0, .rw, 0, .none⟩]⟩, /- RST_FL_LEN -/
  ⟨0x40000114, 1, 0, 1, 0, true, [⟨31, 24, .rw, 0, .none⟩, ⟨23, 16, .rw, 0, .none⟩, ⟨1, 1, .rw, 0, .none⟩, ⟨0, 0, .rw, 0, .none⟩]⟩ /- RST_FL_RAW -/]

/-- The PWR_ page (R444). -/
def specsPwr : List RSpec := [
  ⟨0x40010000, 1, 0, 1, 0, true, [⟨31, 28, .wo, 0, .none⟩]⟩, /- PWR_CTL -/
  ⟨0x40010004, 1, 0, 1, 0, false, [⟨31, 31, .w1c, 0, .all⟩, ⟨30, 30, .w1c, 0, .none⟩, ⟨7, 7, .w1c, 0, .none⟩, ⟨6, 6, .w1c, 0, .none⟩, ⟨1, 1, .ro, 0, .none⟩, ⟨0, 0, .ro, 0, .none⟩]⟩, /- PWR_STAT -/
  ⟨0x40010008, 1, 0, 1, 0, false, [⟨11, 0, .ro, 0, .none⟩]⟩, /- PWR_VIN_U -/
  ⟨0x4001000C, 1, 0, 1, 0, false, [⟨11, 0, .ro, 0, .none⟩]⟩, /- PWR_VIN_D -/
  ⟨0x40010010, 1, 0, 1, 0, false, [⟨15, 0, .ro, 0, .none⟩]⟩, /- PWR_PIN -/
  ⟨0x40010014, 1, 0, 1, 0, true, [⟨15, 8, .rw, 0, .none⟩, ⟨1, 1, .rw, 0, .none⟩, ⟨0, 0, .rw, 0, .none⟩]⟩ /- PWR_DOWN -/]

/-- The CLK_ page (R445). -/
def specsClk : List RSpec := [
  ⟨0x40020000, 1, 0, 1, 0, false, [⟨4, 4, .ro, 0, .none⟩, ⟨3, 0, .ro, 0, .none⟩]⟩, /- CLK_STAT -/
  ⟨0x40020004, 1, 0, 1, 0, false, [⟨31, 0, .ro, 0, .none⟩]⟩, /- CLK_REFERR -/
  ⟨0x40020008, 1, 0, 1, 0, false, [⟨31, 0, .ro, 0, .none⟩]⟩ /- CLK_RSTEER -/]

/-- The RCV_ page (R216). -/
def specsRcv : List RSpec := [
  ⟨0x40030000, 1, 0, 1, 0, true, [⟨3, 3, .rws, 0, .warm⟩, ⟨2, 2, .rws, 1, .warm⟩, ⟨1, 1, .rw, 0, .none⟩, ⟨0, 0, .rw, 0, .none⟩]⟩, /- RCV_CTL -/
  ⟨0x40030004, 1, 0, 1, 0, false, [⟨31, 31, .ro, 0, .none⟩, ⟨30, 30, .ro, 0, .none⟩, ⟨29, 29, .ro, 0, .warm⟩, ⟨28, 28, .w1c, 0, .none⟩, ⟨26, 24, .ro, 0, .warm⟩, ⟨22, 20, .ro, 0, .warm⟩, ⟨18, 16, .ro, 0, .none⟩, ⟨11, 8, .rws, 0, .warm⟩]⟩, /- RCV_STAT -/
  ⟨0x40030010, 1, 0, 1, 0, false, [⟨31, 0, .rws, 0, .warm⟩]⟩, /- RCV_RESYNC_CNT -/
  ⟨0x40030014, 1, 0, 1, 0, false, [⟨31, 0, .rws, 0, .warm⟩]⟩, /- RCV_CORERST_CNT -/
  ⟨0x40030018, 1, 0, 1, 0, false, [⟨31, 0, .rws, 0, .warm⟩]⟩, /- RCV_VTEST_CNT -/
  ⟨0x40030030, 3, 4, 1, 0, false, [⟨31, 31, .ro, 0, .warm⟩, ⟨30, 30, .ro, 0, .warm⟩, ⟨29, 29, .ro, 0, .warm⟩, ⟨27, 24, .rws, 0, .warm⟩, ⟨15, 0, .rws, 0, .warm⟩]⟩, /- RCV_RIB -/
  ⟨0x40030040, 1, 0, 1, 0, true, [⟨31, 28, .wo, 0, .none⟩, ⟨1, 0, .wo, 0, .none⟩]⟩, /- RCV_CMD -/
  ⟨0x40030050, 1, 0, 1, 0, false, [⟨31, 0, .ro, 0, .warm⟩]⟩, /- RCV_LOG_HEAD -/
  ⟨0x40030054, 1, 0, 1, 0, false, [⟨31, 0, .rws, 0, .warm⟩]⟩, /- RCV_LOG_TAIL -/
  ⟨0x40030058, 1, 0, 1, 0, false, [⟨5, 0, .rw, 0, .none⟩]⟩, /- RCV_LOG_SEL -/
  ⟨0x40030060, 4, 4, 1, 0, false, [⟨31, 0, .ro, 0, .warm⟩]⟩ /- RCV_LOG_DATA -/]

/-- The AOW_ page (R333). -/
def specsAow : List RSpec := [
  ⟨0x40040000, 1, 0, 1, 0, false, [⟨0, 0, .rws, 0, .warm⟩]⟩, /- AOW_CTL -/
  ⟨0x40040004, 1, 0, 1, 0, false, [⟨31, 0, .w1c, 0, .warm⟩]⟩, /- AOW_WAKE -/
  ⟨0x40040008, 1, 0, 1, 0, false, [⟨12, 0, .ro, 157, .warm⟩]⟩, /- AOW_WLIM -/
  ⟨0x4004000C, 1, 0, 1, 0, false, [⟨12, 0, .ro, 0, .warm⟩]⟩, /- AOW_CNT -/
  ⟨0x40040040, 32, 4, 1, 0, false, [⟨31, 31, .rws, 0, .warm⟩, ⟨8, 0, .rws, 0, .warm⟩]⟩ /- AOW_SEL -/]

/-- The ICU_ page (R332). -/
def specsIcu : List RSpec := [
  ⟨0x40050000, 1, 0, 1, 0, false, [⟨31, 31, .ro, 0, .none⟩, ⟨19, 16, .ro, 0, .none⟩, ⟨8, 0, .ro, 0, .none⟩]⟩, /- ICU_PRESENT -/
  ⟨0x40050100, 16, 4, 1, 0, false, [⟨31, 0, .rw, 0, .none⟩]⟩, /- ICU_EN -/
  ⟨0x40050200, 16, 4, 1, 0, false, [⟨31, 0, .w1s, 0, .core⟩]⟩, /- ICU_PEND -/
  ⟨0x40050240, 16, 4, 1, 0, false, [⟨31, 0, .wo, 0, .none⟩]⟩, /- ICU_UNPEND -/
  ⟨0x40050300, 16, 4, 1, 0, false, [⟨31, 0, .ro, 0, .none⟩]⟩, /- ICU_ACTIVE -/
  ⟨0x40050380, 16, 4, 1, 0, false, [⟨31, 0, .ro, 0, .none⟩]⟩, /- ICU_RAW -/
  ⟨0x40050400, 64, 4, 1, 0, false, [⟨31, 0, .rw, 0, .none⟩]⟩ /- ICU_PRIO -/]

/-- The MBX_ page (R334). -/
def specsMbx : List RSpec := [
  ⟨0x40060000, 64, 256, 1, 0, false, [⟨31, 31, .ro, 0, .none⟩, ⟨30, 30, .w1c, 0, .none⟩, ⟨29, 29, .w1c, 0, .none⟩, ⟨28, 28, .rw, 1, .none⟩]⟩, /- MBX_STAT -/
  ⟨0x40060004, 64, 256, 1, 0, false, [⟨31, 31, .w1c, 0, .none⟩, ⟨7, 4, .rw, 0, .none⟩, ⟨3, 0, .rw, 0, .none⟩]⟩, /- MBX_CFG -/
  ⟨0x40060008, 64, 256, 1, 0, false, [⟨31, 0, .w1c, 0, .none⟩]⟩, /- MBX_DB -/
  ⟨0x4006000C, 64, 256, 1, 0, false, [⟨31, 0, .rw, 4294967295, .none⟩]⟩, /- MBX_DBMASK -/
  ⟨0x40060010, 64, 256, 1, 0, false, [⟨31, 0, .wo, 0, .none⟩]⟩, /- MBX_POST -/
  ⟨0x40060014, 64, 256, 1, 0, false, [⟨0, 0, .wo, 0, .none⟩]⟩, /- MBX_ACK -/
  ⟨0x40060040, 64, 256, 16, 4, false, [⟨31, 0, .wo, 0, .none⟩]⟩, /- MBX_TX -/
  ⟨0x40060080, 64, 256, 16, 4, false, [⟨31, 0, .ro, 0, .none⟩]⟩, /- MBX_RX -/
  ⟨0x40064000, 2, 4, 1, 0, false, [⟨31, 0, .ro, 0, .none⟩]⟩ /- MBX_SUM -/]

/-- The XW_ page (R41). -/
def specsXw : List RSpec := [
  ⟨0x40070000, 1, 0, 1, 0, false, [⟨31, 16, .ro, 402, .none⟩, ⟨15, 8, .ro, 3, .none⟩, ⟨3, 0, .ro, 2, .none⟩]⟩, /- XW_ID -/
  ⟨0x40070008, 1, 0, 1, 0, false, [⟨1, 1, .rw, 0, .none⟩, ⟨0, 0, .rw, 0, .none⟩]⟩, /- XW_CTL -/
  ⟨0x40070010, 1, 0, 1, 0, false, [⟨31, 0, .ro, 0, .none⟩]⟩, /- XW_DERR_ADDR_LO -/
  ⟨0x40070014, 1, 0, 1, 0, false, [⟨7, 0, .ro, 0, .none⟩]⟩, /- XW_DERR_ADDR_HI -/
  ⟨0x40070018, 1, 0, 1, 0, false, [⟨31, 31, .w1c, 0, .none⟩, ⟨30, 30, .ro, 0, .none⟩, ⟨8, 8, .ro, 0, .none⟩, ⟨3, 0, .ro, 0, .none⟩]⟩, /- XW_DERR_INFO -/
  ⟨0x4007001C, 1, 0, 1, 0, false, [⟨31, 0, .rw, 0, .none⟩]⟩, /- XW_DERR_CNT -/
  ⟨0x40070020, 1, 0, 1, 0, false, [⟨31, 0, .rw, 0, .none⟩]⟩ /- XW_BERR_CNT -/]

/-- The SEC_ page (R457). -/
def specsSec : List RSpec := [
  ⟨0x40080000, 1, 0, 1, 0, true, [⟨31, 24, .ro, 0, .none⟩, ⟨16, 10, .ro, 0, .none⟩, ⟨9, 9, .w1c, 0, .none⟩, ⟨8, 8, .ro, 0, .none⟩, ⟨7, 7, .ro, 0, .none⟩, ⟨2, 0, .ro, 0, .none⟩]⟩, /- SEC_STAT -/
  ⟨0x40080004, 1, 0, 1, 0, true, [⟨31, 28, .wo, 0, .none⟩, ⟨1, 0, .wo, 0, .none⟩]⟩, /- SEC_LCCMD -/
  ⟨0x40080008, 1, 0, 1, 0, true, [⟨0, 0, .wo, 0, .none⟩]⟩, /- SEC_CMD -/
  ⟨0x4008000C, 1, 0, 1, 0, true, [⟨3, 0, .w1c, 0, .rwk⟩]⟩, /- SEC_TAMPER -/
  ⟨0x40080010, 1, 0, 1, 0, true, [⟨31, 0, .rwk, 0, .rwk⟩]⟩, /- SEC_TAMPER_CNT -/
  ⟨0x40080014, 1, 0, 1, 0, true, [⟨7, 4, .rw, 0, .none⟩, ⟨3, 0, .rw, 0, .none⟩]⟩, /- SEC_SESSCTL -/
  ⟨0x40080018, 1, 0, 1, 0, true, [⟨7, 4, .ro, 0, .none⟩, ⟨3, 0, .ro, 0, .none⟩]⟩, /- SEC_SLOTS -/
  ⟨0x4008001C, 1, 0, 1, 0, true, [⟨12, 0, .ro, 0, .none⟩]⟩, /- SEC_CERTLEN -/
  ⟨0x40080020, 1, 0, 1, 0, true, [⟨31, 0, .ro, 0, .none⟩]⟩, /- SEC_SERIAL_LO -/
  ⟨0x40080024, 1, 0, 1, 0, true, [⟨31, 0, .ro, 0, .none⟩]⟩, /- SEC_SERIAL_HI -/
  ⟨0x40080040, 8, 4, 1, 0, true, [⟨31, 0, .ro, 0, .none⟩]⟩, /- SEC_NONCE -/
  ⟨0x40080080, 16, 4, 1, 0, true, [⟨31, 0, .wo, 0, .none⟩]⟩, /- SEC_AUTH -/
  ⟨0x40080100, 16, 4, 1, 0, true, [⟨31, 0, .wo, 0, .none⟩]⟩, /- SEC_KBUF -/
  ⟨0x40081000, 1024, 4, 1, 0, true, [⟨31, 0, .ro, 0, .none⟩]⟩ /- SEC_CERT -/]

/-- The FLD_ page (R399). -/
def specsFld : List RSpec := [
  ⟨0x50000000, 64, 4096, 1, 0, false, [⟨0, 0, .rw, 0, .none⟩]⟩, /- FLD_CTL -/
  ⟨0x50000004, 64, 4096, 1, 0, false, [⟨8, 8, .w1c, 0, .none⟩, ⟨7, 7, .w1c, 0, .none⟩, ⟨6, 6, .w1c, 0, .none⟩, ⟨5, 5, .w1c, 0, .none⟩, ⟨4, 4, .ro, 0, .none⟩, ⟨3, 3, .ro, 0, .none⟩, ⟨2, 2, .ro, 0, .none⟩, ⟨1, 1, .ro, 0, .none⟩, ⟨0, 0, .ro, 0, .none⟩]⟩, /- FLD_STAT -/
  ⟨0x50000008, 64, 4096, 1, 0, false, [⟨3, 3, .w1c, 0, .none⟩, ⟨2, 2, .w1c, 0, .none⟩, ⟨1, 1, .w1c, 0, .none⟩, ⟨0, 0, .w1c, 0, .none⟩]⟩, /- FLD_IRQ -/
  ⟨0x5000000C, 64, 4096, 1, 0, false, [⟨3, 0, .rw, 0, .none⟩]⟩, /- FLD_IRQ_EN -/
  ⟨0x50000010, 64, 4096, 1, 0, false, [⟨20, 0, .rw, 0, .none⟩]⟩, /- FLD_APPLY -/
  ⟨0x50000040, 64, 4096, 8, 8, false, [⟨31, 31, .rw, 0, .none⟩, ⟨15, 8, .rw, 0, .none⟩, ⟨6, 0, .rw, 0, .none⟩]⟩, /- FLD_XIN_A -/
  ⟨0x50000044, 64, 4096, 8, 8, false, [⟨21, 0, .rw, 0, .none⟩]⟩, /- FLD_XIN_B -/
  ⟨0x50000080, 64, 4096, 8, 8, false, [⟨31, 31, .rw, 0, .none⟩, ⟨15, 8, .rw, 0, .none⟩, ⟨6, 0, .rw, 0, .none⟩]⟩, /- FLD_XOUT_A -/
  ⟨0x50000084, 64, 4096, 8, 8, false, [⟨21, 0, .rw, 0, .none⟩]⟩, /- FLD_XOUT_B -/
  ⟨0x50000100, 64, 4096, 16, 8, false, [⟨16, 16, .rw, 0, .none⟩, ⟨15, 8, .rw, 0, .none⟩, ⟨7, 4, .rw, 0, .none⟩, ⟨3, 0, .rw, 0, .none⟩]⟩, /- FLD_PCFG_A -/
  ⟨0x50000104, 64, 4096, 16, 8, false, [⟨31, 21, .rw, 0, .none⟩, ⟨20, 0, .rw, 0, .none⟩]⟩, /- FLD_PCFG_B -/
  ⟨0x50000180, 64, 4096, 16, 4, false, [⟨31, 31, .ro, 0, .none⟩, ⟨30, 30, .ro, 0, .none⟩, ⟨29, 29, .ro, 0, .none⟩, ⟨28, 28, .ro, 0, .none⟩, ⟨15, 0, .ro, 0, .none⟩]⟩, /- FLD_PSTAT -/
  ⟨0x500001C0, 64, 4096, 16, 4, false, [⟨31, 0, .rws, 0, .warm⟩]⟩, /- FLD_PCNT -/
  ⟨0x50000200, 64, 4096, 16, 4, false, [⟨31, 0, .rws, 0, .warm⟩]⟩, /- FLD_PERR -/
  ⟨0x50000240, 64, 4096, 16, 4, false, [⟨31, 0, .ro, 0, .none⟩]⟩ /- FLD_PSNAP -/]

/-- The CAM_ page (R400). -/
def specsCam : List RSpec := [
  ⟨0x50040000, 8, 256, 1, 0, false, [⟨19, 19, .rw, 0, .none⟩, ⟨18, 18, .rw, 0, .none⟩, ⟨17, 8, .rw, 0, .none⟩, ⟨7, 6, .rw, 0, .none⟩, ⟨0, 0, .rw, 0, .none⟩]⟩, /- CAM_CTL -/
  ⟨0x50040004, 8, 256, 1, 0, false, [⟨18, 16, .ro, 0, .none⟩, ⟨6, 6, .w1c, 0, .none⟩, ⟨5, 5, .w1c, 0, .none⟩, ⟨4, 4, .w1c, 0, .none⟩, ⟨3, 3, .w1c, 0, .none⟩, ⟨2, 2, .w1c, 0, .none⟩, ⟨1, 1, .w1c, 0, .none⟩, ⟨0, 0, .ro, 0, .none⟩]⟩, /- CAM_STAT -/
  ⟨0x50040008, 8, 256, 1, 0, false, [⟨26, 5, .rw, 0, .none⟩]⟩, /- CAM_RBASE -/
  ⟨0x5004000C, 8, 256, 1, 0, false, [⟨26, 5, .rw, 0, .none⟩]⟩, /- CAM_SLOTSZ -/
  ⟨0x50040010, 8, 256, 1, 0, false, [⟨19, 16, .rw, 0, .none⟩, ⟨15, 5, .rw, 0, .none⟩]⟩, /- CAM_GEOM -/
  ⟨0x50040014, 8, 256, 1, 0, false, [⟨23, 0, .rw, 0, .none⟩]⟩, /- CAM_TRGDLY -/
  ⟨0x50040018, 8, 256, 1, 0, false, [⟨31, 31, .ro, 0, .none⟩, ⟨30, 30, .ro, 0, .none⟩, ⟨29, 29, .ro, 0, .none⟩, ⟨28, 28, .ro, 0, .none⟩, ⟨19, 16, .ro, 0, .none⟩, ⟨15, 0, .ro, 0, .none⟩]⟩, /- CAM_DONE -/
  ⟨0x5004001C, 8, 256, 1, 0, false, [⟨31, 16, .ro, 0, .none⟩, ⟨15, 0, .ro, 0, .none⟩]⟩, /- CAM_DINFO -/
  ⟨0x50040020, 8, 256, 1, 0, false, [⟨31, 0, .ro, 0, .none⟩]⟩, /- CAM_DSTAMP_LO -/
  ⟨0x50040024, 8, 256, 1, 0, false, [⟨31, 0, .ro, 0, .none⟩]⟩, /- CAM_DSTAMP_HI -/
  ⟨0x50040028, 8, 256, 1, 0, false, [⟨31, 31, .wo, 0, .none⟩, ⟨3, 0, .wo, 0, .none⟩]⟩, /- CAM_REL -/
  ⟨0x5004002C, 8, 256, 1, 0, false, [⟨31, 0, .rws, 0, .warm⟩]⟩, /- CAM_FCNT -/
  ⟨0x50040030, 8, 256, 1, 0, false, [⟨31, 0, .rws, 0, .warm⟩]⟩, /- CAM_DROP_CNT -/
  ⟨0x50040034, 8, 256, 1, 0, false, [⟨31, 0, .ro, 0, .none⟩]⟩, /- CAM_FSNAP -/
  ⟨0x50040040, 8, 256, 1, 0, false, [⟨31, 31, .ro, 0, .none⟩, ⟨30, 30, .w1c, 0, .none⟩, ⟨29, 29, .rw, 0, .none⟩, ⟨5, 0, .rw, 4, .none⟩]⟩, /- CAM_CCMD -/
  ⟨0x50040044, 8, 256, 1, 0, false, [⟨31, 0, .rw, 0, .none⟩]⟩, /- CAM_CADDR -/
  ⟨0x50040048, 8, 256, 8, 4, false, [⟨31, 0, .rw, 0, .none⟩]⟩ /- CAM_CDATA -/]

/-- The MV_ page (R401). -/
def specsMv : List RSpec := [
  ⟨0x50050000, 8, 64, 1, 0, false, [⟨0, 0, .rw, 0, .none⟩]⟩, /- MV_CTL -/
  ⟨0x50050004, 8, 64, 1, 0, false, [⟨31, 31, .ro, 0, .none⟩, ⟨30, 30, .w1c, 0, .none⟩, ⟨29, 29, .w1c, 0, .none⟩, ⟨28, 28, .w1c, 0, .none⟩, ⟨27, 24, .ro, 0, .none⟩, ⟨7, 0, .ro, 0, .none⟩]⟩, /- MV_STAT -/
  ⟨0x50050008, 8, 64, 1, 0, false, [⟨31, 0, .ro, 0, .none⟩]⟩, /- MV_ERRADDR_LO -/
  ⟨0x5005000C, 8, 64, 1, 0, false, [⟨7, 0, .ro, 0, .none⟩]⟩, /- MV_ERRADDR_HI -/
  ⟨0x50050010, 8, 64, 1, 0, false, [⟨31, 0, .rws, 0, .warm⟩]⟩, /- MV_BYTES -/
  ⟨0x50052000, 256, 32, 8, 4, false, [⟨31, 0, .rw, 0, .none⟩]⟩ /- MV_DESC -/]

/-- The CHN_ page (R366). -/
def specsChn : List RSpec := [
  ⟨0x60000000, 1, 0, 1, 0, true, [⟨3, 3, .rw, 0, .none⟩, ⟨2, 2, .rw, 0, .none⟩, ⟨1, 1, .rwk, 0, .rwk⟩, ⟨0, 0, .rwk, 0, .rwk⟩]⟩, /- CHN_CTL -/
  ⟨0x60000004, 1, 0, 1, 0, false, [⟨9, 9, .ro, 0, .none⟩, ⟨8, 8, .ro, 0, .none⟩, ⟨7, 7, .ro, 0, .none⟩, ⟨6, 6, .ro, 0, .none⟩, ⟨5, 4, .ro, 0, .none⟩, ⟨3, 3, .ro, 0, .none⟩, ⟨2, 2, .ro, 0, .none⟩, ⟨1, 1, .ro, 0, .none⟩, ⟨0, 0, .ro, 0, .none⟩]⟩, /- CHN_STAT -/
  ⟨0x60000008, 1, 0, 1, 0, false, [⟨23, 16, .ro, 0, .none⟩, ⟨15, 8, .ro, 0, .none⟩, ⟨7, 0, .ro, 0, .rwk⟩]⟩, /- CHN_ADDR -/
  ⟨0x6000000C, 1, 0, 1, 0, false, [⟨15, 0, .ro, 1, .rwk⟩]⟩, /- CHN_EPOCH -/
  ⟨0x60000010, 1, 0, 1, 0, true, [⟨31, 28, .wo, 0, .none⟩]⟩, /- CHN_CMD -/
  ⟨0x60000014, 1, 0, 1, 0, false, [⟨6, 6, .w1c, 0, .none⟩, ⟨5, 5, .w1c, 0, .none⟩, ⟨4, 4, .w1c, 0, .none⟩, ⟨3, 3, .w1c, 0, .none⟩, ⟨2, 2, .w1c, 0, .none⟩, ⟨1, 1, .w1c, 0, .none⟩, ⟨0, 0, .w1c, 0, .none⟩]⟩, /- CHN_IRQ -/
  ⟨0x60000018, 1, 0, 1, 0, false, [⟨6, 0, .rw, 0, .none⟩]⟩, /- CHN_IRQ_EN -/
  ⟨0x6000001C, 1, 0, 1, 0, false, [⟨31, 0, .ro, 0, .none⟩]⟩, /- CHN_NAKLOG -/
  ⟨0x60000020, 1, 0, 1, 0, true, [⟨31, 0, .rw, 0, .none⟩]⟩, /- CHN_TSET_LO -/
  ⟨0x60000024, 1, 0, 1, 0, true, [⟨31, 0, .rw, 0, .none⟩]⟩, /- CHN_TSET_HI -/
  ⟨0x60000028, 1, 0, 1, 0, false, [⟨31, 0, .ro, 0, .none⟩]⟩, /- CHN_TOFF -/
  ⟨0x6000002C, 1, 0, 1, 0, false, [⟨31, 0, .ro, 0, .none⟩]⟩, /- CHN_TDLY_U -/
  ⟨0x60000030, 1, 0, 1, 0, false, [⟨31, 0, .ro, 0, .none⟩]⟩, /- CHN_TDLY_D -/
  ⟨0x60000038, 1, 0, 1, 0, false, [⟨31, 31, .wo, 0, .none⟩, ⟨15, 0, .rw, 0, .none⟩]⟩, /- CHN_SNAP_CMD -/
  ⟨0x60000040, 1, 0, 1, 0, false, [⟨31, 0, .rw, 0, .none⟩]⟩, /- CHN_SNAP_T_LO -/
  ⟨0x60000044, 1, 0, 1, 0, false, [⟨31, 0, .rw, 0, .none⟩]⟩, /- CHN_SNAP_T_HI -/
  ⟨0x60000048, 1, 0, 1, 0, false, [⟨31, 31, .ro, 0, .none⟩, ⟨30, 30, .w1c, 0, .none⟩, ⟨29, 29, .w1c, 0, .none⟩, ⟨28, 28, .w1c, 0, .none⟩, ⟨27, 27, .ro, 0, .none⟩, ⟨15, 0, .ro, 0, .none⟩]⟩, /- CHN_SNAP_STAT -/
  ⟨0x60000050, 1, 0, 1, 0, true, [⟨31, 11, .rws, 0, .warm⟩]⟩, /- CHN_RSTAGE_LO -/
  ⟨0x60000054, 1, 0, 1, 0, true, [⟨7, 0, .rws, 0, .warm⟩]⟩, /- CHN_RSTAGE_HI -/
  ⟨0x60000058, 1, 0, 1, 0, false, [⟨31, 28, .ro, 0, .none⟩, ⟨23, 16, .ro, 0, .none⟩, ⟨15, 0, .ro, 0, .none⟩]⟩, /- CHN_RSTAT -/
  ⟨0x60000060, 1, 0, 1, 0, false, [⟨31, 0, .rws, 0, .warm⟩]⟩, /- CHN_STALE_CNT -/
  ⟨0x60000064, 1, 0, 1, 0, false, [⟨31, 0, .rws, 0, .warm⟩]⟩, /- CHN_NAK_CNT -/
  ⟨0x60000068, 1, 0, 1, 0, false, [⟨31, 0, .rws, 0, .warm⟩]⟩, /- CHN_LINKERR_CNT -/
  ⟨0x6000006C, 1, 0, 1, 0, false, [⟨31, 0, .rws, 0, .warm⟩]⟩, /- CHN_LOST_CNT -/
  ⟨0x60000070, 1, 0, 1, 0, false, [⟨31, 0, .rws, 0, .warm⟩]⟩, /- CHN_DROP_CNT -/
  ⟨0x60000074, 1, 0, 1, 0, false, [⟨31, 0, .rws, 0, .warm⟩]⟩, /- CHN_AUTHFAIL_CNT -/
  ⟨0x60000080, 8, 4, 1, 0, false, [⟨31, 0, .ro, 0, .none⟩]⟩, /- CHN_TRUST -/
  ⟨0x60000100, 16, 8, 1, 0, true, [⟨31, 31, .rw, 0, .none⟩, ⟨30, 30, .rw, 0, .none⟩, ⟨15, 8, .rw, 0, .none⟩, ⟨7, 0, .rw, 0, .none⟩]⟩, /- CHN_ACL_A -/
  ⟨0x60000104, 16, 8, 1, 0, true, [⟨31, 20, .rw, 0, .none⟩, ⟨19, 0, .rw, 0, .none⟩]⟩ /- CHN_ACL_B -/]

/-- The ARC_ page (R413). -/
def specsArc : List RSpec := [
  ⟨0x60010000, 1, 0, 1, 0, false, [⟨31, 24, .ro, 0, .none⟩, ⟨23, 8, .ro, 0, .none⟩, ⟨2, 0, .ro, 0, .none⟩]⟩, /- ARC_STAT -/
  ⟨0x60010004, 1, 0, 1, 0, false, [⟨3, 3, .w1c, 0, .none⟩, ⟨2, 2, .w1c, 0, .none⟩, ⟨1, 1, .w1c, 0, .none⟩, ⟨0, 0, .w1c, 0, .none⟩]⟩, /- ARC_IRQ -/
  ⟨0x60010008, 1, 0, 1, 0, false, [⟨3, 0, .rw, 0, .none⟩]⟩, /- ARC_IRQ_EN -/
  ⟨0x6001000C, 1, 0, 1, 0, false, [⟨31, 28, .wo, 0, .none⟩, ⟨1, 0, .wo, 0, .none⟩]⟩, /- ARC_CMD -/
  ⟨0x60010010, 1, 0, 1, 0, true, [⟨31, 12, .rw, 0, .none⟩]⟩, /- ARC_FW_BASE_LO -/
  ⟨0x60010014, 1, 0, 1, 0, true, [⟨7, 0, .rw, 0, .none⟩]⟩, /- ARC_FW_BASE_HI -/
  ⟨0x60010018, 1, 0, 1, 0, true, [⟨19, 0, .rw, 0, .none⟩]⟩, /- ARC_FW_LEN -/
  ⟨0x60010020, 1, 0, 1, 0, true, [⟨31, 20, .rw, 0, .none⟩]⟩, /- ARC_STAGE_BASE_LO -/
  ⟨0x60010024, 1, 0, 1, 0, true, [⟨7, 0, .rw, 0, .none⟩]⟩, /- ARC_STAGE_BASE_HI -/
  ⟨0x60010028, 1, 0, 1, 0, true, [⟨12, 0, .rw, 0, .none⟩]⟩, /- ARC_STAGE_LEN -/
  ⟨0x60010030, 1, 0, 1, 0, false, [⟨19, 0, .rw, 0, .none⟩]⟩, /- ARC_RQUEUE -/
  ⟨0x60010034, 1, 0, 1, 0, false, [⟨19, 0, .rw, 0, .none⟩]⟩, /- ARC_CQUEUE -/
  ⟨0x60010040, 1, 0, 1, 0, false, [⟨31, 0, .ro, 0, .none⟩]⟩, /- ARC_HEADSEQ_LO -/
  ⟨0x60010044, 1, 0, 1, 0, false, [⟨31, 0, .ro, 0, .none⟩]⟩, /- ARC_HEADSEQ_HI -/
  ⟨0x60010048, 1, 0, 1, 0, false, [⟨31, 0, .ro, 0, .none⟩]⟩, /- ARC_TAILSEQ_LO -/
  ⟨0x6001004C, 1, 0, 1, 0, false, [⟨31, 0, .ro, 0, .none⟩]⟩, /- ARC_TAILSEQ_HI -/
  ⟨0x60010050, 4, 4, 1, 0, false, [⟨31, 29, .ro, 0, .none⟩, ⟨28, 24, .ro, 0, .none⟩, ⟨23, 20, .ro, 0, .none⟩, ⟨15, 8, .ro, 0, .none⟩]⟩, /- ARC_DRV -/
  ⟨0x60010060, 1, 0, 1, 0, false, [⟨31, 0, .rws, 0, .warm⟩]⟩, /- ARC_REC_CNT -/
  ⟨0x60010064, 1, 0, 1, 0, false, [⟨31, 0, .rws, 0, .warm⟩]⟩ /- ARC_ERR_CNT -/]

/-- The QUE_ page (R335). -/
def specsQue : List RSpec := [
  ⟨0x60020000, 1, 0, 1, 0, false, [⟨5, 3, .rw, 0, .none⟩, ⟨2, 2, .rw, 0, .none⟩, ⟨1, 1, .rw, 0, .none⟩, ⟨0, 0, .rws, 0, .warm⟩]⟩, /- QUE_CTL -/
  ⟨0x60020004, 1, 0, 1, 0, false, [⟨2, 2, .w1c, 0, .none⟩, ⟨1, 1, .w1c, 0, .none⟩, ⟨0, 0, .ro, 0, .none⟩]⟩, /- QUE_STAT -/
  ⟨0x60020008, 1, 0, 1, 0, true, [⟨31, 25, .rws, 0, .warm⟩]⟩, /- QUE_DBASE_LO -/
  ⟨0x6002000C, 1, 0, 1, 0, true, [⟨7, 0, .rws, 0, .warm⟩]⟩, /- QUE_DBASE_HI -/
  ⟨0x60020010, 1, 0, 1, 0, false, [⟨31, 31, .ro, 0, .none⟩, ⟨30, 30, .ro, 0, .none⟩, ⟨19, 0, .ro, 0, .none⟩]⟩, /- QUE_STALLQ -/
  ⟨0x60020014, 1, 0, 1, 0, false, [⟨31, 31, .w1c, 0, .none⟩, ⟨30, 30, .ro, 0, .none⟩, ⟨29, 28, .ro, 0, .none⟩, ⟨27, 25, .ro, 0, .none⟩, ⟨19, 0, .ro, 0, .none⟩]⟩, /- QUE_ERRINFO -/
  ⟨0x60020018, 3, 4, 1, 0, false, [⟨31, 31, .ro, 0, .none⟩, ⟨30, 30, .ro, 0, .none⟩, ⟨19, 0, .ro, 0, .none⟩]⟩, /- QUE_NOTE -/
  ⟨0x60020030, 1, 0, 1, 0, false, [⟨31, 0, .rws, 0, .warm⟩]⟩, /- QUE_OPS_CNT -/
  ⟨0x60020034, 1, 0, 1, 0, false, [⟨31, 0, .rws, 0, .warm⟩]⟩, /- QUE_REFUSE_CNT -/
  ⟨0x60020038, 1, 0, 1, 0, false, [⟨31, 0, .rws, 0, .warm⟩]⟩, /- QUE_DROP_CNT -/
  ⟨0x6002003C, 1, 0, 1, 0, false, [⟨31, 0, .rws, 0, .warm⟩]⟩, /- QUE_MISS_CNT -/
  ⟨0x60020100, 16, 4, 1, 0, false, [⟨31, 0, .wo, 0, .none⟩]⟩, /- QUE_TX -/
  ⟨0x60020140, 16, 4, 1, 0, false, [⟨31, 0, .ro, 0, .none⟩]⟩, /- QUE_RX -/
  ⟨0x60020180, 1, 0, 1, 0, false, [⟨31, 29, .ro, 0, .none⟩, ⟨16, 0, .ro, 0, .none⟩]⟩ /- QUE_SLOTSTAT -/]

/-- The DBG_ page (R476). -/
def specsDbg : List RSpec := [
  ⟨0x60030000, 1, 0, 1, 0, false, [⟨31, 31, .ro, 0, .none⟩, ⟨30, 30, .ro, 0, .none⟩, ⟨29, 29, .ro, 0, .none⟩, ⟨28, 28, .ro, 0, .none⟩, ⟨27, 27, .w1c, 0, .none⟩, ⟨26, 26, .w1c, 0, .none⟩, ⟨25, 25, .w1c, 0, .none⟩, ⟨24, 24, .w1c, 0, .none⟩, ⟨19, 18, .ro, 0, .none⟩, ⟨16, 16, .ro, 0, .none⟩, ⟨8, 0, .ro, 0, .none⟩]⟩, /- DBG_STAT -/
  ⟨0x60030004, 1, 0, 1, 0, false, [⟨31, 31, .w1s, 0, .none⟩, ⟨30, 30, .wo, 0, .none⟩, ⟨29, 29, .wo, 0, .none⟩, ⟨28, 28, .rw, 0, .none⟩, ⟨27, 27, .rw, 0, .none⟩, ⟨26, 26, .rw, 0, .none⟩, ⟨25, 25, .rw, 0, .none⟩, ⟨24, 24, .wo, 0, .none⟩, ⟨23, 22, .wo, 0, .none⟩]⟩, /- DBG_CTL -/
  ⟨0x60030008, 1, 0, 1, 0, false, [⟨4, 0, .rw, 31, .none⟩]⟩, /- DBG_FREEZE -/
  ⟨0x6003000C, 1, 0, 1, 0, false, [⟨13, 12, .rw, 0, .none⟩, ⟨10, 8, .rw, 0, .none⟩, ⟨7, 0, .rw, 0, .none⟩]⟩, /- DBG_RSEL -/
  ⟨0x60030010, 1, 0, 1, 0, false, [⟨31, 0, .rw, 0, .none⟩]⟩, /- DBG_RDATA_LO -/
  ⟨0x60030014, 1, 0, 1, 0, false, [⟨31, 0, .rw, 0, .none⟩]⟩, /- DBG_RDATA_HI -/
  ⟨0x60030018, 1, 0, 1, 0, false, [⟨31, 2, .rw, 0, .none⟩]⟩, /- DBG_MADDR_LO -/
  ⟨0x6003001C, 1, 0, 1, 0, false, [⟨7, 0, .rw, 0, .none⟩]⟩, /- DBG_MADDR_HI -/
  ⟨0x60030020, 1, 0, 1, 0, false, [⟨31, 0, .ro, 0, .none⟩]⟩, /- DBG_SERIAL_LO -/
  ⟨0x60030024, 1, 0, 1, 0, false, [⟨31, 0, .ro, 0, .none⟩]⟩, /- DBG_SERIAL_HI -/
  ⟨0x60030028, 1, 0, 1, 0, false, [⟨31, 31, .wo, 0, .none⟩, ⟨7, 0, .wo, 0, .none⟩]⟩, /- DBG_UNLOCK -/
  ⟨0x60030030, 1, 0, 1, 0, false, [⟨31, 31, .ro, 0, .none⟩, ⟨7, 0, .ro, 0, .none⟩]⟩, /- DBG_TXD -/
  ⟨0x60030034, 1, 0, 1, 0, false, [⟨31, 31, .ro, 0, .none⟩, ⟨7, 0, .ro, 0, .none⟩]⟩, /- DBG_RXD -/
  ⟨0x60030038, 1, 0, 1, 0, false, [⟨22, 16, .ro, 0, .none⟩, ⟨14, 8, .ro, 0, .none⟩, ⟨7, 0, .w1c, 0, .none⟩]⟩, /- DBG_VTSTAT -/
  ⟨0x60030040, 8, 4, 1, 0, false, [⟨31, 0, .ro, 0, .none⟩]⟩, /- DBG_NONCE -/
  ⟨0x60030080, 16, 4, 1, 0, false, [⟨31, 0, .wo, 0, .none⟩]⟩ /- DBG_AUTH -/]

/-- The SCH_ page (R187). -/
def specsSch : List RSpec := [
  ⟨0x60040000, 1, 0, 1, 0, false, [⟨1, 1, .rw, 0, .none⟩, ⟨0, 0, .rw, 0, .none⟩]⟩, /- SCH_CTL -/
  ⟨0x60040004, 1, 0, 1, 0, false, [⟨28, 16, .ro, 0, .warm⟩, ⟨6, 6, .w1c, 0, .none⟩, ⟨5, 5, .w1c, 0, .none⟩, ⟨4, 4, .ro, 0, .none⟩, ⟨3, 3, .ro, 0, .warm⟩, ⟨2, 0, .ro, 0, .none⟩]⟩, /- SCH_STAT -/
  ⟨0x60040008, 1, 0, 1, 0, false, [⟨20, 0, .ro, 0, .none⟩]⟩, /- SCH_RCR -/
  ⟨0x6004000C, 1, 0, 1, 0, false, [⟨17, 0, .ro, 0, .none⟩]⟩, /- SCH_PC -/
  ⟨0x60040010, 1, 0, 1, 0, false, [⟨31, 0, .ro, 0, .none⟩]⟩, /- SCH_ROUND_LO -/
  ⟨0x60040014, 1, 0, 1, 0, false, [⟨31, 0, .ro, 0, .none⟩]⟩, /- SCH_ROUND_HI -/
  ⟨0x60040020, 1, 0, 1, 0, true, [⟨31, 31, .wo, 0, .none⟩, ⟨30, 30, .wo, 0, .none⟩, ⟨2, 2, .rw, 0, .none⟩, ⟨1, 1, .rw, 0, .none⟩, ⟨0, 0, .rw, 0, .none⟩]⟩, /- SCH_SWAP_CTL -/
  ⟨0x60040024, 1, 0, 1, 0, false, [⟨31, 31, .ro, 0, .none⟩, ⟨30, 30, .w1c, 0, .none⟩, ⟨29, 29, .w1c, 0, .none⟩, ⟨28, 28, .w1c, 0, .none⟩, ⟨3, 0, .ro, 0, .none⟩]⟩, /- SCH_SWAP_STAT -/
  ⟨0x60040028, 1, 0, 1, 0, true, [⟨31, 0, .rw, 0, .none⟩]⟩, /- SCH_SWAP_AT_LO -/
  ⟨0x6004002C, 1, 0, 1, 0, true, [⟨31, 0, .rw, 0, .none⟩]⟩, /- SCH_SWAP_AT_HI -/
  ⟨0x60040030, 1, 0, 1, 0, true, [⟨31, 12, .rw, 0, .none⟩]⟩, /- SCH_FW_BASE_LO -/
  ⟨0x60040034, 1, 0, 1, 0, true, [⟨7, 0, .rw, 0, .none⟩]⟩, /- SCH_FW_BASE_HI -/
  ⟨0x60040038, 1, 0, 1, 0, true, [⟨21, 0, .rw, 0, .none⟩]⟩, /- SCH_FW_LEN -/
  ⟨0x60040040, 1, 0, 1, 0, false, [⟨31, 31, .w1c, 0, .none⟩, ⟨30, 30, .ro, 0, .none⟩, ⟨27, 24, .ro, 0, .none⟩, ⟨17, 0, .ro, 0, .none⟩]⟩, /- SCH_CHECK_INFO -/
  ⟨0x60040050, 1, 0, 1, 0, false, [⟨31, 31, .w1c, 0, .none⟩, ⟨30, 30, .ro, 0, .none⟩, ⟨26, 24, .ro, 0, .none⟩, ⟨20, 0, .ro, 0, .none⟩]⟩, /- SCH_BREACH_INFO -/
  ⟨0x60040054, 1, 0, 1, 0, false, [⟨17, 0, .ro, 0, .none⟩]⟩, /- SCH_BREACH_PC -/
  ⟨0x60040058, 1, 0, 1, 0, false, [⟨31, 0, .rws, 0, .warm⟩]⟩, /- SCH_BREACH_CNT -/
  ⟨0x6004005C, 1, 0, 1, 0, false, [⟨31, 0, .rws, 0, .warm⟩]⟩, /- SCH_SKIP_CNT -/
  ⟨0x60040060, 1, 0, 1, 0, false, [⟨31, 0, .rws, 0, .warm⟩]⟩, /- SCH_SOFT_OVR -/
  ⟨0x60040064, 1, 0, 1, 0, false, [⟨31, 0, .rws, 0, .warm⟩]⟩, /- SCH_RETRY_CNT -/
  ⟨0x60040068, 1, 0, 1, 0, false, [⟨31, 0, .rws, 0, .warm⟩]⟩, /- SCH_CE_CNT -/
  ⟨0x60040070, 1, 0, 1, 0, false, [⟨31, 30, .wo, 0, .none⟩, ⟨9, 6, .wo, 0, .none⟩, ⟨5, 0, .wo, 0, .none⟩]⟩, /- SCH_SOFTCMD -/
  ⟨0x60040074, 1, 0, 1, 0, false, [⟨3, 0, .rw, 0, .none⟩]⟩, /- SCH_LSEL -/
  ⟨0x60040080, 4, 4, 1, 0, false, [⟨31, 0, .ro, 0, .none⟩]⟩, /- SCH_LSTATE -/
  ⟨0x60040100, 16, 8, 1, 0, false, [⟨31, 0, .ro, 0, .none⟩]⟩, /- SCH_MARK_LO -/
  ⟨0x60040104, 16, 8, 1, 0, false, [⟨31, 0, .ro, 0, .none⟩]⟩ /- SCH_MARK_HI -/]

/-- The RIB_ page (R126). -/
def specsRib : List RSpec := [
  ⟨0x60050000, 1, 0, 1, 0, false, [⟨2, 2, .rw, 0, .none⟩, ⟨1, 1, .rw, 0, .none⟩, ⟨0, 0, .rw, 0, .none⟩]⟩, /- RIB_CTL -/
  ⟨0x60050004, 1, 0, 1, 0, false, [⟨6, 4, .ro, 0, .warm⟩, ⟨2, 0, .ro, 0, .none⟩]⟩, /- RIB_STAT -/
  ⟨0x60050010, 3, 4, 1, 0, false, [⟨31, 31, .ro, 0, .none⟩, ⟨30, 30, .ro, 0, .none⟩, ⟨29, 28, .ro, 0, .none⟩, ⟨11, 0, .ro, 0, .none⟩]⟩, /- RIB_STRAND -/
  ⟨0x60050020, 1, 0, 1, 0, false, [⟨31, 31, .ro, 0, .none⟩, ⟨30, 30, .ro, 0, .none⟩, ⟨11, 0, .ro, 0, .none⟩]⟩, /- RIB_DONE -/
  ⟨0x60050030, 1, 0, 1, 0, false, [⟨31, 31, .w1c, 0, .none⟩, ⟨30, 30, .ro, 0, .none⟩, ⟨29, 26, .ro, 0, .none⟩, ⟨25, 23, .ro, 0, .none⟩, ⟨22, 20, .ro, 0, .none⟩, ⟨11, 0, .ro, 0, .none⟩]⟩, /- RIB_FAULT_INFO -/
  ⟨0x60050034, 1, 0, 1, 0, false, [⟨30, 25, .ro, 0, .none⟩, ⟨24, 0, .ro, 0, .none⟩]⟩, /- RIB_FAULT_IDX -/
  ⟨0x60050038, 1, 0, 1, 0, false, [⟨26, 0, .ro, 0, .none⟩]⟩, /- RIB_FAULT_ADDR -/
  ⟨0x60050040, 1, 0, 1, 0, false, [⟨31, 31, .w1c, 0, .none⟩, ⟨30, 30, .ro, 0, .none⟩, ⟨29, 29, .ro, 0, .none⟩, ⟨28, 26, .ro, 0, .none⟩, ⟨25, 24, .ro, 0, .none⟩, ⟨11, 0, .ro, 0, .none⟩]⟩, /- RIB_VOTE_INFO -/
  ⟨0x60050044, 1, 0, 1, 0, false, [⟨24, 0, .ro, 0, .none⟩]⟩, /- RIB_VOTE_IDX -/
  ⟨0x60050048, 1, 0, 1, 0, false, [⟨31, 0, .rws, 0, .warm⟩]⟩, /- RIB_VOTE_CNT -/
  ⟨0x60050050, 3, 4, 1, 0, false, [⟨31, 0, .rws, 0, .warm⟩]⟩, /- RIB_SCE_CNT -/
  ⟨0x60050060, 1, 0, 1, 0, true, [⟨31, 14, .rw, 0, .none⟩]⟩, /- RIB_CCT_BASE_LO -/
  ⟨0x60050064, 1, 0, 1, 0, true, [⟨7, 0, .rw, 0, .none⟩]⟩, /- RIB_CCT_BASE_HI -/
  ⟨0x60050068, 1, 0, 1, 0, true, [⟨31, 31, .wo, 0, .none⟩, ⟨30, 30, .wo, 0, .none⟩, ⟨3, 3, .w1c, 0, .none⟩, ⟨2, 2, .ro, 0, .none⟩, ⟨1, 1, .ro, 0, .none⟩, ⟨0, 0, .ro, 0, .none⟩]⟩, /- RIB_CCT_CTL -/
  ⟨0x60050070, 3, 4, 1, 0, false, [⟨31, 24, .rws, 0, .warm⟩, ⟨23, 16, .rws, 0, .warm⟩, ⟨15, 8, .rws, 0, .warm⟩, ⟨7, 0, .rws, 0, .warm⟩]⟩ /- RIB_LANEMAP -/]

/-- The LAT_ page (R79). -/
def specsLat : List RSpec := [
  ⟨0x60060000, 1, 0, 1, 0, false, [⟨2, 2, .rw, 0, .none⟩, ⟨1, 1, .rw, 0, .none⟩, ⟨0, 0, .rw, 1, .none⟩]⟩, /- LAT_CTL -/
  ⟨0x60060004, 1, 0, 1, 0, false, [⟨7, 7, .w1c, 0, .none⟩, ⟨6, 6, .ro, 0, .none⟩, ⟨5, 5, .w1c, 0, .none⟩, ⟨4, 4, .w1c, 0, .none⟩, ⟨1, 0, .ro, 0, .none⟩]⟩, /- LAT_STAT -/
  ⟨0x60060010, 4, 8, 1, 0, false, [⟨31, 0, .rw, 286331153, .none⟩]⟩, /- LAT_PTAB_LO -/
  ⟨0x60060014, 4, 8, 1, 0, false, [⟨31, 0, .rw, 554766609, .none⟩]⟩, /- LAT_PTAB_HI -/
  ⟨0x60060040, 1, 0, 1, 0, false, [⟨31, 24, .ro, 0, .none⟩, ⟨23, 22, .ro, 0, .none⟩, ⟨21, 0, .ro, 0, .none⟩]⟩, /- LAT_ECC_LOC -/
  ⟨0x60060044, 1, 0, 1, 0, false, [⟨31, 31, .w1c, 0, .none⟩, ⟨30, 30, .ro, 0, .none⟩, ⟨29, 29, .ro, 0, .none⟩, ⟨28, 28, .ro, 0, .none⟩, ⟨24, 16, .ro, 0, .none⟩, ⟨7, 0, .ro, 0, .none⟩]⟩, /- LAT_ECC_INFO -/
  ⟨0x60060048, 1, 0, 1, 0, false, [⟨31, 0, .rws, 0, .warm⟩]⟩, /- LAT_CE_CNT -/
  ⟨0x6006004C, 1, 0, 1, 0, false, [⟨31, 0, .rws, 0, .warm⟩]⟩, /- LAT_UE_CNT -/
  ⟨0x60060060, 1, 0, 1, 0, false, [⟨23, 16, .ro, 0, .none⟩, ⟨15, 8, .ro, 0, .none⟩, ⟨7, 0, .ro, 0, .none⟩]⟩, /- LAT_BREACH_REQ -/
  ⟨0x60060064, 1, 0, 1, 0, false, [⟨31, 31, .w1c, 0, .none⟩, ⟨30, 30, .ro, 0, .none⟩, ⟨24, 21, .ro, 0, .none⟩, ⟨20, 0, .ro, 0, .none⟩]⟩, /- LAT_BREACH_INFO -/
  ⟨0x60060068, 1, 0, 1, 0, false, [⟨31, 0, .rws, 0, .warm⟩]⟩, /- LAT_BREACH_CNT -/
  ⟨0x60060080, 1, 0, 1, 0, false, [⟨21, 0, .ro, 0, .none⟩]⟩, /- LAT_SCRUB_PTR -/
  ⟨0x60060084, 1, 0, 1, 0, false, [⟨31, 0, .ro, 0, .none⟩]⟩, /- LAT_SCRUB_PASS -/
  ⟨0x600600A0, 1, 0, 1, 0, false, [⟨31, 31, .wo, 0, .none⟩, ⟨7, 0, .wo, 0, .none⟩]⟩, /- LAT_SPARE_CMD -/
  ⟨0x600600A4, 1, 0, 1, 0, false, [⟨31, 31, .ro, 0, .none⟩, ⟨26, 24, .ro, 0, .none⟩, ⟨23, 16, .ro, 0, .none⟩, ⟨13, 0, .ro, 0, .none⟩]⟩, /- LAT_SPARE_COPY -/
  ⟨0x600600C0, 8, 4, 1, 0, false, [⟨31, 30, .rws, 0, .warm⟩, ⟨7, 0, .rws, 0, .warm⟩]⟩, /- LAT_SPARE -/
  ⟨0x600600E0, 8, 4, 1, 0, false, [⟨31, 0, .w1c, 0, .warm⟩]⟩ /- LAT_SPARE_PEND -/]

/-- The registers of the 64 KiB page that holds address a (R26); the field blocks occupy four pages. -/
def pageSpecs (a : Nat) : List RSpec :=
  match a / 0x10000 with
  | 0x4000 => specsRst
  | 0x4001 => specsPwr
  | 0x4002 => specsClk
  | 0x4003 => specsRcv
  | 0x4004 => specsAow
  | 0x4005 => specsIcu
  | 0x4006 => specsMbx
  | 0x4007 => specsXw
  | 0x4008 => specsSec
  | 0x5000 => specsFld
  | 0x5001 => specsFld
  | 0x5002 => specsFld
  | 0x5003 => specsFld
  | 0x5004 => specsCam
  | 0x5005 => specsMv
  | 0x6000 => specsChn
  | 0x6001 => specsArc
  | 0x6002 => specsQue
  | 0x6003 => specsDbg
  | 0x6004 => specsSch
  | 0x6005 => specsRib
  | 0x6006 => specsLat
  | _ => []

/-- The register an address names, if its page assigns the offset (R26). -/
def specAt (a : Nat) : Option RSpec := (pageSpecs a).find? (fun r => r.covers a)

/-- The value an unlisted register holds: its reset value. -/
def regReset (a : Nat) : Reg32 :=
  match specAt a with
  | some r => BitVec.ofNat 32 r.resetVal
  | none => 0


/-! Field names of the RST_ page (R443). -/

abbrev RST_CAUSE.addr : Nat := 0x40000000
abbrev RST_CAUSE.CAUSE : Fld := ⟨0x40000000, 13, 0⟩
abbrev RST_STAT.addr : Nat := 0x40000004
abbrev RST_STAT.BADKICK : Fld := ⟨0x40000004, 3, 3⟩
abbrev RST_STAT.LULL : Fld := ⟨0x40000004, 2, 2⟩
abbrev RST_STAT.WIN : Fld := ⟨0x40000004, 1, 1⟩
abbrev RST_STAT.STARTED : Fld := ⟨0x40000004, 0, 0⟩
abbrev RST_STARTS.addr : Nat := 0x40000008
abbrev RST_STARTS.COUNT : Fld := ⟨0x40000008, 7, 0⟩
abbrev RST_STARTED.addr : Nat := 0x4000000C
abbrev RST_STARTED.DONE : Fld := ⟨0x4000000C, 0, 0⟩
abbrev RST_CMD.addr : Nat := 0x40000010
abbrev RST_CMD.OP : Fld := ⟨0x40000010, 31, 28⟩
abbrev RST_CTL.addr : Nat := 0x40000014
abbrev RST_CTL.PINWARM : Fld := ⟨0x40000014, 0, 0⟩
abbrev RST_WDT.addr : Nat := 0x40000018
abbrev RST_WDT.EN : Fld := ⟨0x40000018, 31, 31⟩
abbrev RST_WDT.PERIOD : Fld := ⟨0x40000018, 11, 0⟩
abbrev RST_WDT_KICK.addr : Nat := 0x4000001C
abbrev RST_WDT_KICK.KEY : Fld := ⟨0x4000001C, 15, 0⟩
abbrev RST_BKP.addr (i : Nat) : Nat := 0x40000020 + i * 4
abbrev RST_BKP.DATA (i : Nat) : Fld := ⟨0x40000020 + i * 4, 31, 0⟩
abbrev RST_FL_CTL.addr : Nat := 0x40000100
abbrev RST_FL_CTL.GO : Fld := ⟨0x40000100, 31, 31⟩
abbrev RST_FL_CTL.BUSY : Fld := ⟨0x40000100, 30, 30⟩
abbrev RST_FL_CTL.ERR : Fld := ⟨0x40000100, 29, 29⟩
abbrev RST_FL_CTL.DRST : Fld := ⟨0x40000100, 28, 28⟩
abbrev RST_FL_CTL.OP : Fld := ⟨0x40000100, 27, 26⟩
abbrev RST_FL_CTL.DEV : Fld := ⟨0x40000100, 25, 25⟩
abbrev RST_FL_CTL.OCT : Fld := ⟨0x40000100, 24, 24⟩
abbrev RST_FL_CTL.DUMMY : Fld := ⟨0x40000100, 23, 16⟩
abbrev RST_FL_CTL.MHZ : Fld := ⟨0x40000100, 15, 8⟩
abbrev RST_FL_FADDR.addr : Nat := 0x40000104
abbrev RST_FL_FADDR.FADDR : Fld := ⟨0x40000104, 26, 0⟩
abbrev RST_FL_BADDR_LO.addr : Nat := 0x40000108
abbrev RST_FL_BADDR_LO.ADDR_LO : Fld := ⟨0x40000108, 31, 6⟩
abbrev RST_FL_BADDR_HI.addr : Nat := 0x4000010C
abbrev RST_FL_BADDR_HI.ADDR_HI : Fld := ⟨0x4000010C, 7, 0⟩
abbrev RST_FL_LEN.addr : Nat := 0x40000110
abbrev RST_FL_LEN.LEN : Fld := ⟨0x40000110, 26, 0⟩
abbrev RST_FL_RAW.addr : Nat := 0x40000114
abbrev RST_FL_RAW.OP : Fld := ⟨0x40000114, 31, 24⟩
abbrev RST_FL_RAW.DATA : Fld := ⟨0x40000114, 23, 16⟩
abbrev RST_FL_RAW.HASDATA : Fld := ⟨0x40000114, 1, 1⟩
abbrev RST_FL_RAW.HASADDR : Fld := ⟨0x40000114, 0, 0⟩

/-! Field names of the PWR_ page (R444). -/

abbrev PWR_CTL.addr : Nat := 0x40010000
abbrev PWR_CTL.OP : Fld := ⟨0x40010000, 31, 28⟩
abbrev PWR_STAT.addr : Nat := 0x40010004
abbrev PWR_STAT.THAWED : Fld := ⟨0x40010004, 31, 31⟩
abbrev PWR_STAT.REFUSED : Fld := ⟨0x40010004, 30, 30⟩
abbrev PWR_STAT.WOKE_CHAIN : Fld := ⟨0x40010004, 7, 7⟩
abbrev PWR_STAT.WOKE_SLOT : Fld := ⟨0x40010004, 6, 6⟩
abbrev PWR_STAT.DRAW_D : Fld := ⟨0x40010004, 1, 1⟩
abbrev PWR_STAT.DRAW_U : Fld := ⟨0x40010004, 0, 0⟩
abbrev PWR_VIN_U.addr : Nat := 0x40010008
abbrev PWR_VIN_U.VIN : Fld := ⟨0x40010008, 11, 0⟩
abbrev PWR_VIN_D.addr : Nat := 0x4001000C
abbrev PWR_VIN_D.VIN : Fld := ⟨0x4001000C, 11, 0⟩
abbrev PWR_PIN.addr : Nat := 0x40010010
abbrev PWR_PIN.P : Fld := ⟨0x40010010, 15, 0⟩
abbrev PWR_DOWN.addr : Nat := 0x40010014
abbrev PWR_DOWN.FGRP : Fld := ⟨0x40010014, 15, 8⟩
abbrev PWR_DOWN.CAM : Fld := ⟨0x40010014, 1, 1⟩
abbrev PWR_DOWN.ARC : Fld := ⟨0x40010014, 0, 0⟩

/-! Field names of the CLK_ page (R445). -/

abbrev CLK_STAT.addr : Nat := 0x40020000
abbrev CLK_STAT.REFOK : Fld := ⟨0x40020000, 4, 4⟩
abbrev CLK_STAT.LOCK : Fld := ⟨0x40020000, 3, 0⟩
abbrev CLK_REFERR.addr : Nat := 0x40020004
abbrev CLK_REFERR.ERR : Fld := ⟨0x40020004, 31, 0⟩
abbrev CLK_RSTEER.addr : Nat := 0x40020008
abbrev CLK_RSTEER.STEER : Fld := ⟨0x40020008, 31, 0⟩

/-! Field names of the RCV_ page (R216). -/

abbrev RCV_CTL.addr : Nat := 0x40030000
abbrev RCV_CTL.LASTSTRAND : Fld := ⟨0x40030000, 3, 3⟩
abbrev RCV_CTL.VTEST_EN : Fld := ⟨0x40030000, 2, 2⟩
abbrev RCV_CTL.DEG_IE : Fld := ⟨0x40030000, 1, 1⟩
abbrev RCV_CTL.LOG_IE : Fld := ⟨0x40030000, 0, 0⟩
abbrev RCV_STAT.addr : Nat := 0x40030004
abbrev RCV_STAT.LOCKSTEP_BROKEN : Fld := ⟨0x40030004, 31, 31⟩
abbrev RCV_STAT.RESYNC : Fld := ⟨0x40030004, 30, 30⟩
abbrev RCV_STAT.DUPLEX : Fld := ⟨0x40030004, 29, 29⟩
abbrev RCV_STAT.DEG : Fld := ⟨0x40030004, 28, 28⟩
abbrev RCV_STAT.VRET : Fld := ⟨0x40030004, 26, 24⟩
abbrev RCV_STAT.SRET : Fld := ⟨0x40030004, 22, 20⟩
abbrev RCV_STAT.LTEST : Fld := ⟨0x40030004, 18, 16⟩
abbrev RCV_STAT.CORE_CAUSE : Fld := ⟨0x40030004, 11, 8⟩
abbrev RCV_RESYNC_CNT.addr : Nat := 0x40030010
abbrev RCV_RESYNC_CNT.COUNT : Fld := ⟨0x40030010, 31, 0⟩
abbrev RCV_CORERST_CNT.addr : Nat := 0x40030014
abbrev RCV_CORERST_CNT.COUNT : Fld := ⟨0x40030014, 31, 0⟩
abbrev RCV_VTEST_CNT.addr : Nat := 0x40030018
abbrev RCV_VTEST_CNT.COUNT : Fld := ⟨0x40030018, 31, 0⟩
abbrev RCV_RIB.addr (i : Nat) : Nat := 0x40030030 + i * 4
abbrev RCV_RIB.HIST (i : Nat) : Fld := ⟨0x40030030 + i * 4, 31, 31⟩
abbrev RCV_RIB.PASSED (i : Nat) : Fld := ⟨0x40030030 + i * 4, 30, 30⟩
abbrev RCV_RIB.PEND (i : Nat) : Fld := ⟨0x40030030 + i * 4, 29, 29⟩
abbrev RCV_RIB.SPBAD (i : Nat) : Fld := ⟨0x40030030 + i * 4, 27, 24⟩
abbrev RCV_RIB.MMCNT (i : Nat) : Fld := ⟨0x40030030 + i * 4, 15, 0⟩
abbrev RCV_CMD.addr : Nat := 0x40030040
abbrev RCV_CMD.OP : Fld := ⟨0x40030040, 31, 28⟩
abbrev RCV_CMD.STRAND : Fld := ⟨0x40030040, 1, 0⟩
abbrev RCV_LOG_HEAD.addr : Nat := 0x40030050
abbrev RCV_LOG_HEAD.HEAD : Fld := ⟨0x40030050, 31, 0⟩
abbrev RCV_LOG_TAIL.addr : Nat := 0x40030054
abbrev RCV_LOG_TAIL.TAIL : Fld := ⟨0x40030054, 31, 0⟩
abbrev RCV_LOG_SEL.addr : Nat := 0x40030058
abbrev RCV_LOG_SEL.SLOT : Fld := ⟨0x40030058, 5, 0⟩
abbrev RCV_LOG_DATA.addr (i : Nat) : Nat := 0x40030060 + i * 4
abbrev RCV_LOG_DATA.DATA (i : Nat) : Fld := ⟨0x40030060 + i * 4, 31, 0⟩

/-! Field names of the AOW_ page (R333). -/

abbrev AOW_CTL.addr : Nat := 0x40040000
abbrev AOW_CTL.WAKE_EN : Fld := ⟨0x40040000, 0, 0⟩
abbrev AOW_WAKE.addr : Nat := 0x40040004
abbrev AOW_WAKE.WAKE : Fld := ⟨0x40040004, 31, 0⟩
abbrev AOW_WLIM.addr : Nat := 0x40040008
abbrev AOW_WLIM.W : Fld := ⟨0x40040008, 12, 0⟩
abbrev AOW_CNT.addr : Nat := 0x4004000C
abbrev AOW_CNT.CNT : Fld := ⟨0x4004000C, 12, 0⟩
abbrev AOW_SEL.addr (i : Nat) : Nat := 0x40040040 + i * 4
abbrev AOW_SEL.EN (i : Nat) : Fld := ⟨0x40040040 + i * 4, 31, 31⟩
abbrev AOW_SEL.SOURCE (i : Nat) : Fld := ⟨0x40040040 + i * 4, 8, 0⟩

/-! Field names of the ICU_ page (R332). -/

abbrev ICU_PRESENT.addr : Nat := 0x40050000
abbrev ICU_PRESENT.VALID : Fld := ⟨0x40050000, 31, 31⟩
abbrev ICU_PRESENT.PRIO : Fld := ⟨0x40050000, 19, 16⟩
abbrev ICU_PRESENT.SOURCE : Fld := ⟨0x40050000, 8, 0⟩
abbrev ICU_EN.addr (i : Nat) : Nat := 0x40050100 + i * 4
abbrev ICU_EN.EN (i : Nat) : Fld := ⟨0x40050100 + i * 4, 31, 0⟩
abbrev ICU_PEND.addr (i : Nat) : Nat := 0x40050200 + i * 4
abbrev ICU_PEND.PEND (i : Nat) : Fld := ⟨0x40050200 + i * 4, 31, 0⟩
abbrev ICU_UNPEND.addr (i : Nat) : Nat := 0x40050240 + i * 4
abbrev ICU_UNPEND.UNPEND (i : Nat) : Fld := ⟨0x40050240 + i * 4, 31, 0⟩
abbrev ICU_ACTIVE.addr (i : Nat) : Nat := 0x40050300 + i * 4
abbrev ICU_ACTIVE.ACTIVE (i : Nat) : Fld := ⟨0x40050300 + i * 4, 31, 0⟩
abbrev ICU_RAW.addr (i : Nat) : Nat := 0x40050380 + i * 4
abbrev ICU_RAW.RAW (i : Nat) : Fld := ⟨0x40050380 + i * 4, 31, 0⟩
abbrev ICU_PRIO.addr (i : Nat) : Nat := 0x40050400 + i * 4
abbrev ICU_PRIO.PRIO (i : Nat) : Fld := ⟨0x40050400 + i * 4, 31, 0⟩

/-! Field names of the MBX_ page (R334). -/

abbrev MBX_STAT.addr (i : Nat) : Nat := 0x40060000 + i * 256
abbrev MBX_STAT.FULL (i : Nat) : Fld := ⟨0x40060000 + i * 256, 31, 31⟩
abbrev MBX_STAT.EMPTY (i : Nat) : Fld := ⟨0x40060000 + i * 256, 30, 30⟩
abbrev MBX_STAT.COLLIDE (i : Nat) : Fld := ⟨0x40060000 + i * 256, 29, 29⟩
abbrev MBX_STAT.FMASK (i : Nat) : Fld := ⟨0x40060000 + i * 256, 28, 28⟩
abbrev MBX_CFG.addr (i : Nat) : Nat := 0x40060004 + i * 256
abbrev MBX_CFG.REFUSED (i : Nat) : Fld := ⟨0x40060004 + i * 256, 31, 31⟩
abbrev MBX_CFG.RECEIVER (i : Nat) : Fld := ⟨0x40060004 + i * 256, 7, 4⟩
abbrev MBX_CFG.SENDER (i : Nat) : Fld := ⟨0x40060004 + i * 256, 3, 0⟩
abbrev MBX_DB.addr (i : Nat) : Nat := 0x40060008 + i * 256
abbrev MBX_DB.DB (i : Nat) : Fld := ⟨0x40060008 + i * 256, 31, 0⟩
abbrev MBX_DBMASK.addr (i : Nat) : Nat := 0x4006000C + i * 256
abbrev MBX_DBMASK.MASK (i : Nat) : Fld := ⟨0x4006000C + i * 256, 31, 0⟩
abbrev MBX_POST.addr (i : Nat) : Nat := 0x40060010 + i * 256
abbrev MBX_POST.BELLS (i : Nat) : Fld := ⟨0x40060010 + i * 256, 31, 0⟩
abbrev MBX_ACK.addr (i : Nat) : Nat := 0x40060014 + i * 256
abbrev MBX_ACK.ACK (i : Nat) : Fld := ⟨0x40060014 + i * 256, 0, 0⟩
abbrev MBX_TX.addr (i : Nat) (j : Nat) : Nat := 0x40060040 + i * 256 + j * 4
abbrev MBX_TX.DATA (i : Nat) (j : Nat) : Fld := ⟨0x40060040 + i * 256 + j * 4, 31, 0⟩
abbrev MBX_RX.addr (i : Nat) (j : Nat) : Nat := 0x40060080 + i * 256 + j * 4
abbrev MBX_RX.DATA (i : Nat) (j : Nat) : Fld := ⟨0x40060080 + i * 256 + j * 4, 31, 0⟩
abbrev MBX_SUM.addr (i : Nat) : Nat := 0x40064000 + i * 4
abbrev MBX_SUM.SUM (i : Nat) : Fld := ⟨0x40064000 + i * 4, 31, 0⟩

/-! Field names of the XW_ page (R41). -/

abbrev XW_ID.addr : Nat := 0x40070000
abbrev XW_ID.PART : Fld := ⟨0x40070000, 31, 16⟩
abbrev XW_ID.GEN : Fld := ⟨0x40070000, 15, 8⟩
abbrev XW_ID.REV : Fld := ⟨0x40070000, 3, 0⟩
abbrev XW_CTL.addr : Nat := 0x40070008
abbrev XW_CTL.DERR_IE : Fld := ⟨0x40070008, 1, 1⟩
abbrev XW_CTL.REMAP : Fld := ⟨0x40070008, 0, 0⟩
abbrev XW_DERR_ADDR_LO.addr : Nat := 0x40070010
abbrev XW_DERR_ADDR_LO.ADDR_LO : Fld := ⟨0x40070010, 31, 0⟩
abbrev XW_DERR_ADDR_HI.addr : Nat := 0x40070014
abbrev XW_DERR_ADDR_HI.ADDR_HI : Fld := ⟨0x40070014, 7, 0⟩
abbrev XW_DERR_INFO.addr : Nat := 0x40070018
abbrev XW_DERR_INFO.VALID : Fld := ⟨0x40070018, 31, 31⟩
abbrev XW_DERR_INFO.OVF : Fld := ⟨0x40070018, 30, 30⟩
abbrev XW_DERR_INFO.WRITE : Fld := ⟨0x40070018, 8, 8⟩
abbrev XW_DERR_INFO.MASTER : Fld := ⟨0x40070018, 3, 0⟩
abbrev XW_DERR_CNT.addr : Nat := 0x4007001C
abbrev XW_DERR_CNT.COUNT : Fld := ⟨0x4007001C, 31, 0⟩
abbrev XW_BERR_CNT.addr : Nat := 0x40070020
abbrev XW_BERR_CNT.COUNT : Fld := ⟨0x40070020, 31, 0⟩

/-! Field names of the SEC_ page (R457). -/

abbrev SEC_STAT.addr : Nat := 0x40080000
abbrev SEC_STAT.N : Fld := ⟨0x40080000, 31, 24⟩
abbrev SEC_STAT.LCLEFT : Fld := ⟨0x40080000, 16, 10⟩
abbrev SEC_STAT.REFUSED : Fld := ⟨0x40080000, 9, 9⟩
abbrev SEC_STAT.WIPEFAIL : Fld := ⟨0x40080000, 8, 8⟩
abbrev SEC_STAT.WIPING : Fld := ⟨0x40080000, 7, 7⟩
abbrev SEC_STAT.STATE : Fld := ⟨0x40080000, 2, 0⟩
abbrev SEC_LCCMD.addr : Nat := 0x40080004
abbrev SEC_LCCMD.OP : Fld := ⟨0x40080004, 31, 28⟩
abbrev SEC_LCCMD.ARG : Fld := ⟨0x40080004, 1, 0⟩
abbrev SEC_CMD.addr : Nat := 0x40080008
abbrev SEC_CMD.WIPE : Fld := ⟨0x40080008, 0, 0⟩
abbrev SEC_TAMPER.addr : Nat := 0x4008000C
abbrev SEC_TAMPER.CAUSE : Fld := ⟨0x4008000C, 3, 0⟩
abbrev SEC_TAMPER_CNT.addr : Nat := 0x40080010
abbrev SEC_TAMPER_CNT.COUNT : Fld := ⟨0x40080010, 31, 0⟩
abbrev SEC_SESSCTL.addr : Nat := 0x40080014
abbrev SEC_SESSCTL.ALLOW_OTHER : Fld := ⟨0x40080014, 7, 4⟩
abbrev SEC_SESSCTL.ALLOW_HEAD : Fld := ⟨0x40080014, 3, 0⟩
abbrev SEC_SLOTS.addr : Nat := 0x40080018
abbrev SEC_SLOTS.REVOKED : Fld := ⟨0x40080018, 7, 4⟩
abbrev SEC_SLOTS.PROG : Fld := ⟨0x40080018, 3, 0⟩
abbrev SEC_CERTLEN.addr : Nat := 0x4008001C
abbrev SEC_CERTLEN.LEN : Fld := ⟨0x4008001C, 12, 0⟩
abbrev SEC_SERIAL_LO.addr : Nat := 0x40080020
abbrev SEC_SERIAL_LO.SERIAL : Fld := ⟨0x40080020, 31, 0⟩
abbrev SEC_SERIAL_HI.addr : Nat := 0x40080024
abbrev SEC_SERIAL_HI.SERIAL : Fld := ⟨0x40080024, 31, 0⟩
abbrev SEC_NONCE.addr (i : Nat) : Nat := 0x40080040 + i * 4
abbrev SEC_NONCE.NONCE (i : Nat) : Fld := ⟨0x40080040 + i * 4, 31, 0⟩
abbrev SEC_AUTH.addr (i : Nat) : Nat := 0x40080080 + i * 4
abbrev SEC_AUTH.AUTH (i : Nat) : Fld := ⟨0x40080080 + i * 4, 31, 0⟩
abbrev SEC_KBUF.addr (i : Nat) : Nat := 0x40080100 + i * 4
abbrev SEC_KBUF.KBUF (i : Nat) : Fld := ⟨0x40080100 + i * 4, 31, 0⟩
abbrev SEC_CERT.addr (i : Nat) : Nat := 0x40081000 + i * 4
abbrev SEC_CERT.CERT (i : Nat) : Fld := ⟨0x40081000 + i * 4, 31, 0⟩

/-! Field names of the FLD_ page (R399). -/

abbrev FLD_CTL.addr (i : Nat) : Nat := 0x50000000 + i * 4096
abbrev FLD_CTL.EN (i : Nat) : Fld := ⟨0x50000000 + i * 4096, 0, 0⟩
abbrev FLD_STAT.addr (i : Nat) : Nat := 0x50000004 + i * 4096
abbrev FLD_STAT.OVWR (i : Nat) : Fld := ⟨0x50000004 + i * 4096, 8, 8⟩
abbrev FLD_STAT.CFGERR (i : Nat) : Fld := ⟨0x50000004 + i * 4096, 7, 7⟩
abbrev FLD_STAT.UE (i : Nat) : Fld := ⟨0x50000004 + i * 4096, 6, 6⟩
abbrev FLD_STAT.XLATE (i : Nat) : Fld := ⟨0x50000004 + i * 4096, 5, 5⟩
abbrev FLD_STAT.CFGPEND (i : Nat) : Fld := ⟨0x50000004 + i * 4096, 4, 4⟩
abbrev FLD_STAT.OPEND (i : Nat) : Fld := ⟨0x50000004 + i * 4096, 3, 3⟩
abbrev FLD_STAT.XBUSY (i : Nat) : Fld := ⟨0x50000004 + i * 4096, 2, 2⟩
abbrev FLD_STAT.OCUR (i : Nat) : Fld := ⟨0x50000004 + i * 4096, 1, 1⟩
abbrev FLD_STAT.ISET (i : Nat) : Fld := ⟨0x50000004 + i * 4096, 0, 0⟩
abbrev FLD_IRQ.addr (i : Nat) : Nat := 0x50000008 + i * 4096
abbrev FLD_IRQ.CAPT (i : Nat) : Fld := ⟨0x50000008 + i * 4096, 3, 3⟩
abbrev FLD_IRQ.PORT (i : Nat) : Fld := ⟨0x50000008 + i * 4096, 2, 2⟩
abbrev FLD_IRQ.UE (i : Nat) : Fld := ⟨0x50000008 + i * 4096, 1, 1⟩
abbrev FLD_IRQ.XDONE (i : Nat) : Fld := ⟨0x50000008 + i * 4096, 0, 0⟩
abbrev FLD_IRQ_EN.addr (i : Nat) : Nat := 0x5000000C + i * 4096
abbrev FLD_IRQ_EN.EN (i : Nat) : Fld := ⟨0x5000000C + i * 4096, 3, 0⟩
abbrev FLD_APPLY.addr (i : Nat) : Nat := 0x50000010 + i * 4096
abbrev FLD_APPLY.APPLY (i : Nat) : Fld := ⟨0x50000010 + i * 4096, 20, 0⟩
abbrev FLD_XIN_A.addr (i : Nat) (j : Nat) : Nat := 0x50000040 + i * 4096 + j * 8
abbrev FLD_XIN_A.VALID (i : Nat) (j : Nat) : Fld := ⟨0x50000040 + i * 4096 + j * 8, 31, 31⟩
abbrev FLD_XIN_A.COUNT (i : Nat) (j : Nat) : Fld := ⟨0x50000040 + i * 4096 + j * 8, 15, 8⟩
abbrev FLD_XIN_A.BUFW (i : Nat) (j : Nat) : Fld := ⟨0x50000040 + i * 4096 + j * 8, 6, 0⟩
abbrev FLD_XIN_B.addr (i : Nat) (j : Nat) : Nat := 0x50000044 + i * 4096 + j * 8
abbrev FLD_XIN_B.W (i : Nat) (j : Nat) : Fld := ⟨0x50000044 + i * 4096 + j * 8, 21, 0⟩
abbrev FLD_XOUT_A.addr (i : Nat) (j : Nat) : Nat := 0x50000080 + i * 4096 + j * 8
abbrev FLD_XOUT_A.VALID (i : Nat) (j : Nat) : Fld := ⟨0x50000080 + i * 4096 + j * 8, 31, 31⟩
abbrev FLD_XOUT_A.COUNT (i : Nat) (j : Nat) : Fld := ⟨0x50000080 + i * 4096 + j * 8, 15, 8⟩
abbrev FLD_XOUT_A.BUFW (i : Nat) (j : Nat) : Fld := ⟨0x50000080 + i * 4096 + j * 8, 6, 0⟩
abbrev FLD_XOUT_B.addr (i : Nat) (j : Nat) : Nat := 0x50000084 + i * 4096 + j * 8
abbrev FLD_XOUT_B.W (i : Nat) (j : Nat) : Fld := ⟨0x50000084 + i * 4096 + j * 8, 21, 0⟩
abbrev FLD_PCFG_A.addr (i : Nat) (j : Nat) : Nat := 0x50000100 + i * 4096 + j * 8
abbrev FLD_PCFG_A.IE (i : Nat) (j : Nat) : Fld := ⟨0x50000100 + i * 4096 + j * 8, 16, 16⟩
abbrev FLD_PCFG_A.OPT (i : Nat) (j : Nat) : Fld := ⟨0x50000100 + i * 4096 + j * 8, 15, 8⟩
abbrev FLD_PCFG_A.RATE (i : Nat) (j : Nat) : Fld := ⟨0x50000100 + i * 4096 + j * 8, 7, 4⟩
abbrev FLD_PCFG_A.ROLE (i : Nat) (j : Nat) : Fld := ⟨0x50000100 + i * 4096 + j * 8, 3, 0⟩
abbrev FLD_PCFG_B.addr (i : Nat) (j : Nat) : Nat := 0x50000104 + i * 4096 + j * 8
abbrev FLD_PCFG_B.WIDTH (i : Nat) (j : Nat) : Fld := ⟨0x50000104 + i * 4096 + j * 8, 31, 21⟩
abbrev FLD_PCFG_B.TXOFF (i : Nat) (j : Nat) : Fld := ⟨0x50000104 + i * 4096 + j * 8, 20, 0⟩
abbrev FLD_PSTAT.addr (i : Nat) (j : Nat) : Nat := 0x50000180 + i * 4096 + j * 4
abbrev FLD_PSTAT.RXOK (i : Nat) (j : Nat) : Fld := ⟨0x50000180 + i * 4096 + j * 4, 31, 31⟩
abbrev FLD_PSTAT.TIMEOUT (i : Nat) (j : Nat) : Fld := ⟨0x50000180 + i * 4096 + j * 4, 30, 30⟩
abbrev FLD_PSTAT.BAD (i : Nat) (j : Nat) : Fld := ⟨0x50000180 + i * 4096 + j * 4, 29, 29⟩
abbrev FLD_PSTAT.LATE (i : Nat) (j : Nat) : Fld := ⟨0x50000180 + i * 4096 + j * 4, 28, 28⟩
abbrev FLD_PSTAT.PEER (i : Nat) (j : Nat) : Fld := ⟨0x50000180 + i * 4096 + j * 4, 15, 0⟩
abbrev FLD_PCNT.addr (i : Nat) (j : Nat) : Nat := 0x500001C0 + i * 4096 + j * 4
abbrev FLD_PCNT.COUNT (i : Nat) (j : Nat) : Fld := ⟨0x500001C0 + i * 4096 + j * 4, 31, 0⟩
abbrev FLD_PERR.addr (i : Nat) (j : Nat) : Nat := 0x50000200 + i * 4096 + j * 4
abbrev FLD_PERR.COUNT (i : Nat) (j : Nat) : Fld := ⟨0x50000200 + i * 4096 + j * 4, 31, 0⟩
abbrev FLD_PSNAP.addr (i : Nat) (j : Nat) : Nat := 0x50000240 + i * 4096 + j * 4
abbrev FLD_PSNAP.SNAP (i : Nat) (j : Nat) : Fld := ⟨0x50000240 + i * 4096 + j * 4, 31, 0⟩

/-! Field names of the CAM_ page (R400). -/

abbrev CAM_CTL.addr (i : Nat) : Nat := 0x50040000 + i * 256
abbrev CAM_CTL.ERR_IE (i : Nat) : Fld := ⟨0x50040000 + i * 256, 19, 19⟩
abbrev CAM_CTL.DONE_IE (i : Nat) : Fld := ⟨0x50040000 + i * 256, 18, 18⟩
abbrev CAM_CTL.TSEL (i : Nat) : Fld := ⟨0x50040000 + i * 256, 17, 8⟩
abbrev CAM_CTL.TSRC (i : Nat) : Fld := ⟨0x50040000 + i * 256, 7, 6⟩
abbrev CAM_CTL.EN (i : Nat) : Fld := ⟨0x50040000 + i * 256, 0, 0⟩
abbrev CAM_STAT.addr (i : Nat) : Nat := 0x50040004 + i * 256
abbrev CAM_STAT.SPEED (i : Nat) : Fld := ⟨0x50040004 + i * 256, 18, 16⟩
abbrev CAM_STAT.CFGERR (i : Nat) : Fld := ⟨0x50040004 + i * 256, 6, 6⟩
abbrev CAM_STAT.TLATE (i : Nat) : Fld := ⟨0x50040004 + i * 256, 5, 5⟩
abbrev CAM_STAT.LINKERR (i : Nat) : Fld := ⟨0x50040004 + i * 256, 4, 4⟩
abbrev CAM_STAT.FMTERR (i : Nat) : Fld := ⟨0x50040004 + i * 256, 3, 3⟩
abbrev CAM_STAT.TRUNC (i : Nat) : Fld := ⟨0x50040004 + i * 256, 2, 2⟩
abbrev CAM_STAT.OVR (i : Nat) : Fld := ⟨0x50040004 + i * 256, 1, 1⟩
abbrev CAM_STAT.LINK (i : Nat) : Fld := ⟨0x50040004 + i * 256, 0, 0⟩
abbrev CAM_RBASE.addr (i : Nat) : Nat := 0x50040008 + i * 256
abbrev CAM_RBASE.BASE (i : Nat) : Fld := ⟨0x50040008 + i * 256, 26, 5⟩
abbrev CAM_SLOTSZ.addr (i : Nat) : Nat := 0x5004000C + i * 256
abbrev CAM_SLOTSZ.SIZE (i : Nat) : Fld := ⟨0x5004000C + i * 256, 26, 5⟩
abbrev CAM_GEOM.addr (i : Nat) : Nat := 0x50040010 + i * 256
abbrev CAM_GEOM.NSLOT (i : Nat) : Fld := ⟨0x50040010 + i * 256, 19, 16⟩
abbrev CAM_GEOM.PITCH (i : Nat) : Fld := ⟨0x50040010 + i * 256, 15, 5⟩
abbrev CAM_TRGDLY.addr (i : Nat) : Nat := 0x50040014 + i * 256
abbrev CAM_TRGDLY.TRGDLY (i : Nat) : Fld := ⟨0x50040014 + i * 256, 23, 0⟩
abbrev CAM_DONE.addr (i : Nat) : Nat := 0x50040018 + i * 256
abbrev CAM_DONE.VALID (i : Nat) : Fld := ⟨0x50040018 + i * 256, 31, 31⟩
abbrev CAM_DONE.OVF (i : Nat) : Fld := ⟨0x50040018 + i * 256, 30, 30⟩
abbrev CAM_DONE.TRUNC (i : Nat) : Fld := ⟨0x50040018 + i * 256, 29, 29⟩
abbrev CAM_DONE.WIDE (i : Nat) : Fld := ⟨0x50040018 + i * 256, 28, 28⟩
abbrev CAM_DONE.SLOT (i : Nat) : Fld := ⟨0x50040018 + i * 256, 19, 16⟩
abbrev CAM_DONE.FRAME (i : Nat) : Fld := ⟨0x50040018 + i * 256, 15, 0⟩
abbrev CAM_DINFO.addr (i : Nat) : Nat := 0x5004001C + i * 256
abbrev CAM_DINFO.COLS (i : Nat) : Fld := ⟨0x5004001C + i * 256, 31, 16⟩
abbrev CAM_DINFO.ROWS (i : Nat) : Fld := ⟨0x5004001C + i * 256, 15, 0⟩
abbrev CAM_DSTAMP_LO.addr (i : Nat) : Nat := 0x50040020 + i * 256
abbrev CAM_DSTAMP_LO.STAMP (i : Nat) : Fld := ⟨0x50040020 + i * 256, 31, 0⟩
abbrev CAM_DSTAMP_HI.addr (i : Nat) : Nat := 0x50040024 + i * 256
abbrev CAM_DSTAMP_HI.STAMP (i : Nat) : Fld := ⟨0x50040024 + i * 256, 31, 0⟩
abbrev CAM_REL.addr (i : Nat) : Nat := 0x50040028 + i * 256
abbrev CAM_REL.GO (i : Nat) : Fld := ⟨0x50040028 + i * 256, 31, 31⟩
abbrev CAM_REL.SLOT (i : Nat) : Fld := ⟨0x50040028 + i * 256, 3, 0⟩
abbrev CAM_FCNT.addr (i : Nat) : Nat := 0x5004002C + i * 256
abbrev CAM_FCNT.COUNT (i : Nat) : Fld := ⟨0x5004002C + i * 256, 31, 0⟩
abbrev CAM_DROP_CNT.addr (i : Nat) : Nat := 0x50040030 + i * 256
abbrev CAM_DROP_CNT.COUNT (i : Nat) : Fld := ⟨0x50040030 + i * 256, 31, 0⟩
abbrev CAM_FSNAP.addr (i : Nat) : Nat := 0x50040034 + i * 256
abbrev CAM_FSNAP.SNAP (i : Nat) : Fld := ⟨0x50040034 + i * 256, 31, 0⟩
abbrev CAM_CCMD.addr (i : Nat) : Nat := 0x50040040 + i * 256
abbrev CAM_CCMD.BUSY (i : Nat) : Fld := ⟨0x50040040 + i * 256, 31, 31⟩
abbrev CAM_CCMD.ERR (i : Nat) : Fld := ⟨0x50040040 + i * 256, 30, 30⟩
abbrev CAM_CCMD.WRITE (i : Nat) : Fld := ⟨0x50040040 + i * 256, 29, 29⟩
abbrev CAM_CCMD.LEN (i : Nat) : Fld := ⟨0x50040040 + i * 256, 5, 0⟩
abbrev CAM_CADDR.addr (i : Nat) : Nat := 0x50040044 + i * 256
abbrev CAM_CADDR.ADDR (i : Nat) : Fld := ⟨0x50040044 + i * 256, 31, 0⟩
abbrev CAM_CDATA.addr (i : Nat) (j : Nat) : Nat := 0x50040048 + i * 256 + j * 4
abbrev CAM_CDATA.DATA (i : Nat) (j : Nat) : Fld := ⟨0x50040048 + i * 256 + j * 4, 31, 0⟩

/-! Field names of the MV_ page (R401). -/

abbrev MV_CTL.addr (i : Nat) : Nat := 0x50050000 + i * 64
abbrev MV_CTL.IE (i : Nat) : Fld := ⟨0x50050000 + i * 64, 0, 0⟩
abbrev MV_STAT.addr (i : Nat) : Nat := 0x50050004 + i * 64
abbrev MV_STAT.BUSY (i : Nat) : Fld := ⟨0x50050004 + i * 64, 31, 31⟩
abbrev MV_STAT.DONE (i : Nat) : Fld := ⟨0x50050004 + i * 64, 30, 30⟩
abbrev MV_STAT.ERR (i : Nat) : Fld := ⟨0x50050004 + i * 64, 29, 29⟩
abbrev MV_STAT.LATE (i : Nat) : Fld := ⟨0x50050004 + i * 64, 28, 28⟩
abbrev MV_STAT.CAUSE (i : Nat) : Fld := ⟨0x50050004 + i * 64, 27, 24⟩
abbrev MV_STAT.DESC (i : Nat) : Fld := ⟨0x50050004 + i * 64, 7, 0⟩
abbrev MV_ERRADDR_LO.addr (i : Nat) : Nat := 0x50050008 + i * 64
abbrev MV_ERRADDR_LO.ADDR_LO (i : Nat) : Fld := ⟨0x50050008 + i * 64, 31, 0⟩
abbrev MV_ERRADDR_HI.addr (i : Nat) : Nat := 0x5005000C + i * 64
abbrev MV_ERRADDR_HI.ADDR_HI (i : Nat) : Fld := ⟨0x5005000C + i * 64, 7, 0⟩
abbrev MV_BYTES.addr (i : Nat) : Nat := 0x50050010 + i * 64
abbrev MV_BYTES.COUNT (i : Nat) : Fld := ⟨0x50050010 + i * 64, 31, 0⟩
abbrev MV_DESC.addr (i : Nat) (j : Nat) : Nat := 0x50052000 + i * 32 + j * 4
abbrev MV_DESC.DESC (i : Nat) (j : Nat) : Fld := ⟨0x50052000 + i * 32 + j * 4, 31, 0⟩

/-! Field names of the CHN_ page (R366). -/

abbrev CHN_CTL.addr : Nat := 0x60000000
abbrev CHN_CTL.ENC_REQ : Fld := ⟨0x60000000, 3, 3⟩
abbrev CHN_CTL.RCP_EN : Fld := ⟨0x60000000, 2, 2⟩
abbrev CHN_CTL.RING : Fld := ⟨0x60000000, 1, 1⟩
abbrev CHN_CTL.HEAD : Fld := ⟨0x60000000, 0, 0⟩
abbrev CHN_STAT.addr : Nat := 0x60000004
abbrev CHN_STAT.TRUSTED : Fld := ⟨0x60000004, 9, 9⟩
abbrev CHN_STAT.ENUM_BUSY : Fld := ⟨0x60000004, 8, 8⟩
abbrev CHN_STAT.CC_RESTART : Fld := ⟨0x60000004, 7, 7⟩
abbrev CHN_STAT.LOCK : Fld := ⟨0x60000004, 6, 6⟩
abbrev CHN_STAT.TOPO : Fld := ⟨0x60000004, 5, 4⟩
abbrev CHN_STAT.OV_D : Fld := ⟨0x60000004, 3, 3⟩
abbrev CHN_STAT.OV_U : Fld := ⟨0x60000004, 2, 2⟩
abbrev CHN_STAT.UP_D : Fld := ⟨0x60000004, 1, 1⟩
abbrev CHN_STAT.UP_U : Fld := ⟨0x60000004, 0, 0⟩
abbrev CHN_ADDR.addr : Nat := 0x60000008
abbrev CHN_ADDR.UNUSED : Fld := ⟨0x60000008, 23, 16⟩
abbrev CHN_ADDR.COUNT : Fld := ⟨0x60000008, 15, 8⟩
abbrev CHN_ADDR.ADDR : Fld := ⟨0x60000008, 7, 0⟩
abbrev CHN_EPOCH.addr : Nat := 0x6000000C
abbrev CHN_EPOCH.EPOCH : Fld := ⟨0x6000000C, 15, 0⟩
abbrev CHN_CMD.addr : Nat := 0x60000010
abbrev CHN_CMD.OP : Fld := ⟨0x60000010, 31, 28⟩
abbrev CHN_IRQ.addr : Nat := 0x60000014
abbrev CHN_IRQ.CCRST : Fld := ⟨0x60000014, 6, 6⟩
abbrev CHN_IRQ.NAK : Fld := ⟨0x60000014, 5, 5⟩
abbrev CHN_IRQ.RCP : Fld := ⟨0x60000014, 4, 4⟩
abbrev CHN_IRQ.SNAP : Fld := ⟨0x60000014, 3, 3⟩
abbrev CHN_IRQ.LOCK : Fld := ⟨0x60000014, 2, 2⟩
abbrev CHN_IRQ.ENUM : Fld := ⟨0x60000014, 1, 1⟩
abbrev CHN_IRQ.LINK : Fld := ⟨0x60000014, 0, 0⟩
abbrev CHN_IRQ_EN.addr : Nat := 0x60000018
abbrev CHN_IRQ_EN.EN : Fld := ⟨0x60000018, 6, 0⟩
abbrev CHN_NAKLOG.addr : Nat := 0x6000001C
abbrev CHN_NAKLOG.ARG : Fld := ⟨0x6000001C, 31, 0⟩
abbrev CHN_TSET_LO.addr : Nat := 0x60000020
abbrev CHN_TSET_LO.T : Fld := ⟨0x60000020, 31, 0⟩
abbrev CHN_TSET_HI.addr : Nat := 0x60000024
abbrev CHN_TSET_HI.T : Fld := ⟨0x60000024, 31, 0⟩
abbrev CHN_TOFF.addr : Nat := 0x60000028
abbrev CHN_TOFF.OFFSET : Fld := ⟨0x60000028, 31, 0⟩
abbrev CHN_TDLY_U.addr : Nat := 0x6000002C
abbrev CHN_TDLY_U.DELAY : Fld := ⟨0x6000002C, 31, 0⟩
abbrev CHN_TDLY_D.addr : Nat := 0x60000030
abbrev CHN_TDLY_D.DELAY : Fld := ⟨0x60000030, 31, 0⟩
abbrev CHN_SNAP_CMD.addr : Nat := 0x60000038
abbrev CHN_SNAP_CMD.GO : Fld := ⟨0x60000038, 31, 31⟩
abbrev CHN_SNAP_CMD.ID : Fld := ⟨0x60000038, 15, 0⟩
abbrev CHN_SNAP_T_LO.addr : Nat := 0x60000040
abbrev CHN_SNAP_T_LO.T : Fld := ⟨0x60000040, 31, 0⟩
abbrev CHN_SNAP_T_HI.addr : Nat := 0x60000044
abbrev CHN_SNAP_T_HI.T : Fld := ⟨0x60000044, 31, 0⟩
abbrev CHN_SNAP_STAT.addr : Nat := 0x60000048
abbrev CHN_SNAP_STAT.PEND : Fld := ⟨0x60000048, 31, 31⟩
abbrev CHN_SNAP_STAT.DONE : Fld := ⟨0x60000048, 30, 30⟩
abbrev CHN_SNAP_STAT.LATE : Fld := ⟨0x60000048, 29, 29⟩
abbrev CHN_SNAP_STAT.OVR : Fld := ⟨0x60000048, 28, 28⟩
abbrev CHN_SNAP_STAT.UNLOCKED : Fld := ⟨0x60000048, 27, 27⟩
abbrev CHN_SNAP_STAT.ID : Fld := ⟨0x60000048, 15, 0⟩
abbrev CHN_RSTAGE_LO.addr : Nat := 0x60000050
abbrev CHN_RSTAGE_LO.ADDR_LO : Fld := ⟨0x60000050, 31, 11⟩
abbrev CHN_RSTAGE_HI.addr : Nat := 0x60000054
abbrev CHN_RSTAGE_HI.ADDR_HI : Fld := ⟨0x60000054, 7, 0⟩
abbrev CHN_RSTAT.addr : Nat := 0x60000058
abbrev CHN_RSTAT.STATE : Fld := ⟨0x60000058, 31, 28⟩
abbrev CHN_RSTAT.SRC : Fld := ⟨0x60000058, 23, 16⟩
abbrev CHN_RSTAT.NEXT : Fld := ⟨0x60000058, 15, 0⟩
abbrev CHN_STALE_CNT.addr : Nat := 0x60000060
abbrev CHN_STALE_CNT.COUNT : Fld := ⟨0x60000060, 31, 0⟩
abbrev CHN_NAK_CNT.addr : Nat := 0x60000064
abbrev CHN_NAK_CNT.COUNT : Fld := ⟨0x60000064, 31, 0⟩
abbrev CHN_LINKERR_CNT.addr : Nat := 0x60000068
abbrev CHN_LINKERR_CNT.COUNT : Fld := ⟨0x60000068, 31, 0⟩
abbrev CHN_LOST_CNT.addr : Nat := 0x6000006C
abbrev CHN_LOST_CNT.COUNT : Fld := ⟨0x6000006C, 31, 0⟩
abbrev CHN_DROP_CNT.addr : Nat := 0x60000070
abbrev CHN_DROP_CNT.COUNT : Fld := ⟨0x60000070, 31, 0⟩
abbrev CHN_AUTHFAIL_CNT.addr : Nat := 0x60000074
abbrev CHN_AUTHFAIL_CNT.COUNT : Fld := ⟨0x60000074, 31, 0⟩
abbrev CHN_TRUST.addr (i : Nat) : Nat := 0x60000080 + i * 4
abbrev CHN_TRUST.TRUST (i : Nat) : Fld := ⟨0x60000080 + i * 4, 31, 0⟩
abbrev CHN_ACL_A.addr (i : Nat) : Nat := 0x60000100 + i * 8
abbrev CHN_ACL_A.VALID (i : Nat) : Fld := ⟨0x60000100 + i * 8, 31, 31⟩
abbrev CHN_ACL_A.KIND (i : Nat) : Fld := ⟨0x60000100 + i * 8, 30, 30⟩
abbrev CHN_ACL_A.SRC_HI (i : Nat) : Fld := ⟨0x60000100 + i * 8, 15, 8⟩
abbrev CHN_ACL_A.SRC_LO (i : Nat) : Fld := ⟨0x60000100 + i * 8, 7, 0⟩
abbrev CHN_ACL_B.addr (i : Nat) : Nat := 0x60000104 + i * 8
abbrev CHN_ACL_B.CNT (i : Nat) : Fld := ⟨0x60000104 + i * 8, 31, 20⟩
abbrev CHN_ACL_B.BASE (i : Nat) : Fld := ⟨0x60000104 + i * 8, 19, 0⟩

/-! Field names of the ARC_ page (R413). -/

abbrev ARC_STAT.addr : Nat := 0x60010000
abbrev ARC_STAT.RESTARTS : Fld := ⟨0x60010000, 31, 24⟩
abbrev ARC_STAT.HB : Fld := ⟨0x60010000, 23, 8⟩
abbrev ARC_STAT.STATE : Fld := ⟨0x60010000, 2, 0⟩
abbrev ARC_IRQ.addr : Nat := 0x60010004
abbrev ARC_IRQ.READY : Fld := ⟨0x60010004, 3, 3⟩
abbrev ARC_IRQ.RESTART : Fld := ⟨0x60010004, 2, 2⟩
abbrev ARC_IRQ.WEAR : Fld := ⟨0x60010004, 1, 1⟩
abbrev ARC_IRQ.DRV : Fld := ⟨0x60010004, 0, 0⟩
abbrev ARC_IRQ_EN.addr : Nat := 0x60010008
abbrev ARC_IRQ_EN.EN : Fld := ⟨0x60010008, 3, 0⟩
abbrev ARC_CMD.addr : Nat := 0x6001000C
abbrev ARC_CMD.OP : Fld := ⟨0x6001000C, 31, 28⟩
abbrev ARC_CMD.DRIVE : Fld := ⟨0x6001000C, 1, 0⟩
abbrev ARC_FW_BASE_LO.addr : Nat := 0x60010010
abbrev ARC_FW_BASE_LO.ADDR_LO : Fld := ⟨0x60010010, 31, 12⟩
abbrev ARC_FW_BASE_HI.addr : Nat := 0x60010014
abbrev ARC_FW_BASE_HI.ADDR_HI : Fld := ⟨0x60010014, 7, 0⟩
abbrev ARC_FW_LEN.addr : Nat := 0x60010018
abbrev ARC_FW_LEN.LEN : Fld := ⟨0x60010018, 19, 0⟩
abbrev ARC_STAGE_BASE_LO.addr : Nat := 0x60010020
abbrev ARC_STAGE_BASE_LO.ADDR_LO : Fld := ⟨0x60010020, 31, 20⟩
abbrev ARC_STAGE_BASE_HI.addr : Nat := 0x60010024
abbrev ARC_STAGE_BASE_HI.ADDR_HI : Fld := ⟨0x60010024, 7, 0⟩
abbrev ARC_STAGE_LEN.addr : Nat := 0x60010028
abbrev ARC_STAGE_LEN.LEN : Fld := ⟨0x60010028, 12, 0⟩
abbrev ARC_RQUEUE.addr : Nat := 0x60010030
abbrev ARC_RQUEUE.QUEUE : Fld := ⟨0x60010030, 19, 0⟩
abbrev ARC_CQUEUE.addr : Nat := 0x60010034
abbrev ARC_CQUEUE.QUEUE : Fld := ⟨0x60010034, 19, 0⟩
abbrev ARC_HEADSEQ_LO.addr : Nat := 0x60010040
abbrev ARC_HEADSEQ_LO.SEQ : Fld := ⟨0x60010040, 31, 0⟩
abbrev ARC_HEADSEQ_HI.addr : Nat := 0x60010044
abbrev ARC_HEADSEQ_HI.SEQ : Fld := ⟨0x60010044, 31, 0⟩
abbrev ARC_TAILSEQ_LO.addr : Nat := 0x60010048
abbrev ARC_TAILSEQ_LO.SEQ : Fld := ⟨0x60010048, 31, 0⟩
abbrev ARC_TAILSEQ_HI.addr : Nat := 0x6001004C
abbrev ARC_TAILSEQ_HI.SEQ : Fld := ⟨0x6001004C, 31, 0⟩
abbrev ARC_DRV.addr (i : Nat) : Nat := 0x60010050 + i * 4
abbrev ARC_DRV.STATE (i : Nat) : Fld := ⟨0x60010050 + i * 4, 31, 29⟩
abbrev ARC_DRV.SPEED (i : Nat) : Fld := ⟨0x60010050 + i * 4, 28, 24⟩
abbrev ARC_DRV.WIDTH (i : Nat) : Fld := ⟨0x60010050 + i * 4, 23, 20⟩
abbrev ARC_DRV.WEAR (i : Nat) : Fld := ⟨0x60010050 + i * 4, 15, 8⟩
abbrev ARC_REC_CNT.addr : Nat := 0x60010060
abbrev ARC_REC_CNT.COUNT : Fld := ⟨0x60010060, 31, 0⟩
abbrev ARC_ERR_CNT.addr : Nat := 0x60010064
abbrev ARC_ERR_CNT.COUNT : Fld := ⟨0x60010064, 31, 0⟩

/-! Field names of the QUE_ page (R335). -/

abbrev QUE_CTL.addr : Nat := 0x60020000
abbrev QUE_CTL.NOTE_IE : Fld := ⟨0x60020000, 5, 3⟩
abbrev QUE_CTL.ERR_IE : Fld := ⟨0x60020000, 2, 2⟩
abbrev QUE_CTL.STALL_IE : Fld := ⟨0x60020000, 1, 1⟩
abbrev QUE_CTL.EN : Fld := ⟨0x60020000, 0, 0⟩
abbrev QUE_STAT.addr : Nat := 0x60020004
abbrev QUE_STAT.PINFULL : Fld := ⟨0x60020004, 2, 2⟩
abbrev QUE_STAT.BUSERR : Fld := ⟨0x60020004, 1, 1⟩
abbrev QUE_STAT.BUSY : Fld := ⟨0x60020004, 0, 0⟩
abbrev QUE_DBASE_LO.addr : Nat := 0x60020008
abbrev QUE_DBASE_LO.ADDR_LO : Fld := ⟨0x60020008, 31, 25⟩
abbrev QUE_DBASE_HI.addr : Nat := 0x6002000C
abbrev QUE_DBASE_HI.ADDR_HI : Fld := ⟨0x6002000C, 7, 0⟩
abbrev QUE_STALLQ.addr : Nat := 0x60020010
abbrev QUE_STALLQ.VALID : Fld := ⟨0x60020010, 31, 31⟩
abbrev QUE_STALLQ.OVF : Fld := ⟨0x60020010, 30, 30⟩
abbrev QUE_STALLQ.QUEUE : Fld := ⟨0x60020010, 19, 0⟩
abbrev QUE_ERRINFO.addr : Nat := 0x60020014
abbrev QUE_ERRINFO.VALID : Fld := ⟨0x60020014, 31, 31⟩
abbrev QUE_ERRINFO.OVF : Fld := ⟨0x60020014, 30, 30⟩
abbrev QUE_ERRINFO.KIND : Fld := ⟨0x60020014, 29, 28⟩
abbrev QUE_ERRINFO.PATH : Fld := ⟨0x60020014, 27, 25⟩
abbrev QUE_ERRINFO.QUEUE : Fld := ⟨0x60020014, 19, 0⟩
abbrev QUE_NOTE.addr (i : Nat) : Nat := 0x60020018 + i * 4
abbrev QUE_NOTE.VALID (i : Nat) : Fld := ⟨0x60020018 + i * 4, 31, 31⟩
abbrev QUE_NOTE.OVF (i : Nat) : Fld := ⟨0x60020018 + i * 4, 30, 30⟩
abbrev QUE_NOTE.QUEUE (i : Nat) : Fld := ⟨0x60020018 + i * 4, 19, 0⟩
abbrev QUE_OPS_CNT.addr : Nat := 0x60020030
abbrev QUE_OPS_CNT.COUNT : Fld := ⟨0x60020030, 31, 0⟩
abbrev QUE_REFUSE_CNT.addr : Nat := 0x60020034
abbrev QUE_REFUSE_CNT.COUNT : Fld := ⟨0x60020034, 31, 0⟩
abbrev QUE_DROP_CNT.addr : Nat := 0x60020038
abbrev QUE_DROP_CNT.COUNT : Fld := ⟨0x60020038, 31, 0⟩
abbrev QUE_MISS_CNT.addr : Nat := 0x6002003C
abbrev QUE_MISS_CNT.COUNT : Fld := ⟨0x6002003C, 31, 0⟩
abbrev QUE_TX.addr (i : Nat) : Nat := 0x60020100 + i * 4
abbrev QUE_TX.DATA (i : Nat) : Fld := ⟨0x60020100 + i * 4, 31, 0⟩
abbrev QUE_RX.addr (i : Nat) : Nat := 0x60020140 + i * 4
abbrev QUE_RX.DATA (i : Nat) : Fld := ⟨0x60020140 + i * 4, 31, 0⟩
abbrev QUE_SLOTSTAT.addr : Nat := 0x60020180
abbrev QUE_SLOTSTAT.RESULT : Fld := ⟨0x60020180, 31, 29⟩
abbrev QUE_SLOTSTAT.DEPTH : Fld := ⟨0x60020180, 16, 0⟩

/-! Field names of the DBG_ page (R476). -/

abbrev DBG_STAT.addr : Nat := 0x60030000
abbrev DBG_STAT.HALTED : Fld := ⟨0x60030000, 31, 31⟩
abbrev DBG_STAT.FROST : Fld := ⟨0x60030000, 30, 30⟩
abbrev DBG_STAT.UNLOCKED : Fld := ⟨0x60030000, 29, 29⟩
abbrev DBG_STAT.SCOPESEC : Fld := ⟨0x60030000, 28, 28⟩
abbrev DBG_STAT.RESETSEEN : Fld := ⟨0x60030000, 27, 27⟩
abbrev DBG_STAT.ERR : Fld := ⟨0x60030000, 26, 26⟩
abbrev DBG_STAT.UNLKFAIL : Fld := ⟨0x60030000, 25, 25⟩
abbrev DBG_STAT.BADCRC : Fld := ⟨0x60030000, 24, 24⟩
abbrev DBG_STAT.SLICE : Fld := ⟨0x60030000, 19, 18⟩
abbrev DBG_STAT.LINK : Fld := ⟨0x60030000, 16, 16⟩
abbrev DBG_STAT.TC : Fld := ⟨0x60030000, 8, 0⟩
abbrev DBG_CTL.addr : Nat := 0x60030004
abbrev DBG_CTL.HALT : Fld := ⟨0x60030004, 31, 31⟩
abbrev DBG_CTL.RESUME : Fld := ⟨0x60030004, 30, 30⟩
abbrev DBG_CTL.STEP : Fld := ⟨0x60030004, 29, 29⟩
abbrev DBG_CTL.MODE : Fld := ⟨0x60030004, 28, 28⟩
abbrev DBG_CTL.HALTRST : Fld := ⟨0x60030004, 27, 27⟩
abbrev DBG_CTL.MASKINT : Fld := ⟨0x60030004, 26, 26⟩
abbrev DBG_CTL.SECURE : Fld := ⟨0x60030004, 25, 25⟩
abbrev DBG_CTL.LOCK : Fld := ⟨0x60030004, 24, 24⟩
abbrev DBG_CTL.RST : Fld := ⟨0x60030004, 23, 22⟩
abbrev DBG_FREEZE.addr : Nat := 0x60030008
abbrev DBG_FREEZE.BLOCKS : Fld := ⟨0x60030008, 4, 0⟩
abbrev DBG_RSEL.addr : Nat := 0x6003000C
abbrev DBG_RSEL.PART : Fld := ⟨0x6003000C, 13, 12⟩
abbrev DBG_RSEL.FILE : Fld := ⟨0x6003000C, 10, 8⟩
abbrev DBG_RSEL.NUM : Fld := ⟨0x6003000C, 7, 0⟩
abbrev DBG_RDATA_LO.addr : Nat := 0x60030010
abbrev DBG_RDATA_LO.DATA : Fld := ⟨0x60030010, 31, 0⟩
abbrev DBG_RDATA_HI.addr : Nat := 0x60030014
abbrev DBG_RDATA_HI.DATA : Fld := ⟨0x60030014, 31, 0⟩
abbrev DBG_MADDR_LO.addr : Nat := 0x60030018
abbrev DBG_MADDR_LO.ADDR_LO : Fld := ⟨0x60030018, 31, 2⟩
abbrev DBG_MADDR_HI.addr : Nat := 0x6003001C
abbrev DBG_MADDR_HI.ADDR_HI : Fld := ⟨0x6003001C, 7, 0⟩
abbrev DBG_SERIAL_LO.addr : Nat := 0x60030020
abbrev DBG_SERIAL_LO.SERIAL : Fld := ⟨0x60030020, 31, 0⟩
abbrev DBG_SERIAL_HI.addr : Nat := 0x60030024
abbrev DBG_SERIAL_HI.SERIAL : Fld := ⟨0x60030024, 31, 0⟩
abbrev DBG_UNLOCK.addr : Nat := 0x60030028
abbrev DBG_UNLOCK.GO : Fld := ⟨0x60030028, 31, 31⟩
abbrev DBG_UNLOCK.SCOPE : Fld := ⟨0x60030028, 7, 0⟩
abbrev DBG_TXD.addr : Nat := 0x60030030
abbrev DBG_TXD.VALID : Fld := ⟨0x60030030, 31, 31⟩
abbrev DBG_TXD.DATA : Fld := ⟨0x60030030, 7, 0⟩
abbrev DBG_RXD.addr : Nat := 0x60030034
abbrev DBG_RXD.VALID : Fld := ⟨0x60030034, 31, 31⟩
abbrev DBG_RXD.DATA : Fld := ⟨0x60030034, 7, 0⟩
abbrev DBG_VTSTAT.addr : Nat := 0x60030038
abbrev DBG_VTSTAT.TXCNT : Fld := ⟨0x60030038, 22, 16⟩
abbrev DBG_VTSTAT.RXCNT : Fld := ⟨0x60030038, 14, 8⟩
abbrev DBG_VTSTAT.LOST : Fld := ⟨0x60030038, 7, 0⟩
abbrev DBG_NONCE.addr (i : Nat) : Nat := 0x60030040 + i * 4
abbrev DBG_NONCE.NONCE (i : Nat) : Fld := ⟨0x60030040 + i * 4, 31, 0⟩
abbrev DBG_AUTH.addr (i : Nat) : Nat := 0x60030080 + i * 4
abbrev DBG_AUTH.AUTH (i : Nat) : Fld := ⟨0x60030080 + i * 4, 31, 0⟩

/-! Field names of the SCH_ page (R187). -/

abbrev SCH_CTL.addr : Nat := 0x60040000
abbrev SCH_CTL.BREACH_IE : Fld := ⟨0x60040000, 1, 1⟩
abbrev SCH_CTL.RUN : Fld := ⟨0x60040000, 0, 0⟩
abbrev SCH_STAT.addr : Nat := 0x60040004
abbrev SCH_STAT.RL : Fld := ⟨0x60040004, 28, 16⟩
abbrev SCH_STAT.CKERR : Fld := ⟨0x60040004, 6, 6⟩
abbrev SCH_STAT.WACT : Fld := ⟨0x60040004, 5, 5⟩
abbrev SCH_STAT.ACTV : Fld := ⟨0x60040004, 4, 4⟩
abbrev SCH_STAT.ACT : Fld := ⟨0x60040004, 3, 3⟩
abbrev SCH_STAT.STATE : Fld := ⟨0x60040004, 2, 0⟩
abbrev SCH_RCR.addr : Nat := 0x60040008
abbrev SCH_RCR.RCR : Fld := ⟨0x60040008, 20, 0⟩
abbrev SCH_PC.addr : Nat := 0x6004000C
abbrev SCH_PC.PC : Fld := ⟨0x6004000C, 17, 0⟩
abbrev SCH_ROUND_LO.addr : Nat := 0x60040010
abbrev SCH_ROUND_LO.ROUND : Fld := ⟨0x60040010, 31, 0⟩
abbrev SCH_ROUND_HI.addr : Nat := 0x60040014
abbrev SCH_ROUND_HI.ROUND : Fld := ⟨0x60040014, 31, 0⟩
abbrev SCH_SWAP_CTL.addr : Nat := 0x60040020
abbrev SCH_SWAP_CTL.GO : Fld := ⟨0x60040020, 31, 31⟩
abbrev SCH_SWAP_CTL.ABORT : Fld := ⟨0x60040020, 30, 30⟩
abbrev SCH_SWAP_CTL.SCHED : Fld := ⟨0x60040020, 2, 2⟩
abbrev SCH_SWAP_CTL.CCT : Fld := ⟨0x60040020, 1, 1⟩
abbrev SCH_SWAP_CTL.FW : Fld := ⟨0x60040020, 0, 0⟩
abbrev SCH_SWAP_STAT.addr : Nat := 0x60040024
abbrev SCH_SWAP_STAT.PEND : Fld := ⟨0x60040024, 31, 31⟩
abbrev SCH_SWAP_STAT.DONE : Fld := ⟨0x60040024, 30, 30⟩
abbrev SCH_SWAP_STAT.ERR : Fld := ⟨0x60040024, 29, 29⟩
abbrev SCH_SWAP_STAT.FWSWAP : Fld := ⟨0x60040024, 28, 28⟩
abbrev SCH_SWAP_STAT.ECODE : Fld := ⟨0x60040024, 3, 0⟩
abbrev SCH_SWAP_AT_LO.addr : Nat := 0x60040028
abbrev SCH_SWAP_AT_LO.AT : Fld := ⟨0x60040028, 31, 0⟩
abbrev SCH_SWAP_AT_HI.addr : Nat := 0x6004002C
abbrev SCH_SWAP_AT_HI.AT : Fld := ⟨0x6004002C, 31, 0⟩
abbrev SCH_FW_BASE_LO.addr : Nat := 0x60040030
abbrev SCH_FW_BASE_LO.ADDR_LO : Fld := ⟨0x60040030, 31, 12⟩
abbrev SCH_FW_BASE_HI.addr : Nat := 0x60040034
abbrev SCH_FW_BASE_HI.ADDR_HI : Fld := ⟨0x60040034, 7, 0⟩
abbrev SCH_FW_LEN.addr : Nat := 0x60040038
abbrev SCH_FW_LEN.LEN : Fld := ⟨0x60040038, 21, 0⟩
abbrev SCH_CHECK_INFO.addr : Nat := 0x60040040
abbrev SCH_CHECK_INFO.VALID : Fld := ⟨0x60040040, 31, 31⟩
abbrev SCH_CHECK_INFO.BUF : Fld := ⟨0x60040040, 30, 30⟩
abbrev SCH_CHECK_INFO.CODE : Fld := ⟨0x60040040, 27, 24⟩
abbrev SCH_CHECK_INFO.WORD : Fld := ⟨0x60040040, 17, 0⟩
abbrev SCH_BREACH_INFO.addr : Nat := 0x60040050
abbrev SCH_BREACH_INFO.VALID : Fld := ⟨0x60040050, 31, 31⟩
abbrev SCH_BREACH_INFO.OVF : Fld := ⟨0x60040050, 30, 30⟩
abbrev SCH_BREACH_INFO.CAUSE : Fld := ⟨0x60040050, 26, 24⟩
abbrev SCH_BREACH_INFO.RCR : Fld := ⟨0x60040050, 20, 0⟩
abbrev SCH_BREACH_PC.addr : Nat := 0x60040054
abbrev SCH_BREACH_PC.PC : Fld := ⟨0x60040054, 17, 0⟩
abbrev SCH_BREACH_CNT.addr : Nat := 0x60040058
abbrev SCH_BREACH_CNT.COUNT : Fld := ⟨0x60040058, 31, 0⟩
abbrev SCH_SKIP_CNT.addr : Nat := 0x6004005C
abbrev SCH_SKIP_CNT.COUNT : Fld := ⟨0x6004005C, 31, 0⟩
abbrev SCH_SOFT_OVR.addr : Nat := 0x60040060
abbrev SCH_SOFT_OVR.COUNT : Fld := ⟨0x60040060, 31, 0⟩
abbrev SCH_RETRY_CNT.addr : Nat := 0x60040064
abbrev SCH_RETRY_CNT.COUNT : Fld := ⟨0x60040064, 31, 0⟩
abbrev SCH_CE_CNT.addr : Nat := 0x60040068
abbrev SCH_CE_CNT.COUNT : Fld := ⟨0x60040068, 31, 0⟩
abbrev SCH_SOFTCMD.addr : Nat := 0x60040070
abbrev SCH_SOFTCMD.OP : Fld := ⟨0x60040070, 31, 30⟩
abbrev SCH_SOFTCMD.LIST : Fld := ⟨0x60040070, 9, 6⟩
abbrev SCH_SOFTCMD.ENTRY : Fld := ⟨0x60040070, 5, 0⟩
abbrev SCH_LSEL.addr : Nat := 0x60040074
abbrev SCH_LSEL.LIST : Fld := ⟨0x60040074, 3, 0⟩
abbrev SCH_LSTATE.addr (i : Nat) : Nat := 0x60040080 + i * 4
abbrev SCH_LSTATE.STATE (i : Nat) : Fld := ⟨0x60040080 + i * 4, 31, 0⟩
abbrev SCH_MARK_LO.addr (i : Nat) : Nat := 0x60040100 + i * 8
abbrev SCH_MARK_LO.CT (i : Nat) : Fld := ⟨0x60040100 + i * 8, 31, 0⟩
abbrev SCH_MARK_HI.addr (i : Nat) : Nat := 0x60040104 + i * 8
abbrev SCH_MARK_HI.CT (i : Nat) : Fld := ⟨0x60040104 + i * 8, 31, 0⟩

/-! Field names of the RIB_ page (R126). -/

abbrev RIB_CTL.addr : Nat := 0x60050000
abbrev RIB_CTL.VOTE_IE : Fld := ⟨0x60050000, 2, 2⟩
abbrev RIB_CTL.FAULT_IE : Fld := ⟨0x60050000, 1, 1⟩
abbrev RIB_CTL.DONE_IE : Fld := ⟨0x60050000, 0, 0⟩
abbrev RIB_STAT.addr : Nat := 0x60050004
abbrev RIB_STAT.RETIRED : Fld := ⟨0x60050004, 6, 4⟩
abbrev RIB_STAT.BUSY : Fld := ⟨0x60050004, 2, 0⟩
abbrev RIB_STRAND.addr (i : Nat) : Nat := 0x60050010 + i * 4
abbrev RIB_STRAND.BUSY (i : Nat) : Fld := ⟨0x60050010 + i * 4, 31, 31⟩
abbrev RIB_STRAND.SOFT (i : Nat) : Fld := ⟨0x60050010 + i * 4, 30, 30⟩
abbrev RIB_STRAND.BIND (i : Nat) : Fld := ⟨0x60050010 + i * 4, 29, 28⟩
abbrev RIB_STRAND.CHAIN (i : Nat) : Fld := ⟨0x60050010 + i * 4, 11, 0⟩
abbrev RIB_DONE.addr : Nat := 0x60050020
abbrev RIB_DONE.VALID : Fld := ⟨0x60050020, 31, 31⟩
abbrev RIB_DONE.OVF : Fld := ⟨0x60050020, 30, 30⟩
abbrev RIB_DONE.CHAIN : Fld := ⟨0x60050020, 11, 0⟩
abbrev RIB_FAULT_INFO.addr : Nat := 0x60050030
abbrev RIB_FAULT_INFO.VALID : Fld := ⟨0x60050030, 31, 31⟩
abbrev RIB_FAULT_INFO.OVF : Fld := ⟨0x60050030, 30, 30⟩
abbrev RIB_FAULT_INFO.CAUSE : Fld := ⟨0x60050030, 29, 26⟩
abbrev RIB_FAULT_INFO.STREAM : Fld := ⟨0x60050030, 25, 23⟩
abbrev RIB_FAULT_INFO.STRANDS : Fld := ⟨0x60050030, 22, 20⟩
abbrev RIB_FAULT_INFO.CHAIN : Fld := ⟨0x60050030, 11, 0⟩
abbrev RIB_FAULT_IDX.addr : Nat := 0x60050034
abbrev RIB_FAULT_IDX.TAP : Fld := ⟨0x60050034, 30, 25⟩
abbrev RIB_FAULT_IDX.FIDX : Fld := ⟨0x60050034, 24, 0⟩
abbrev RIB_FAULT_ADDR.addr : Nat := 0x60050038
abbrev RIB_FAULT_ADDR.ADDR : Fld := ⟨0x60050038, 26, 0⟩
abbrev RIB_VOTE_INFO.addr : Nat := 0x60050040
abbrev RIB_VOTE_INFO.VALID : Fld := ⟨0x60050040, 31, 31⟩
abbrev RIB_VOTE_INFO.OVF : Fld := ⟨0x60050040, 30, 30⟩
abbrev RIB_VOTE_INFO.KIND : Fld := ⟨0x60050040, 29, 29⟩
abbrev RIB_VOTE_INFO.STREAM : Fld := ⟨0x60050040, 28, 26⟩
abbrev RIB_VOTE_INFO.STRAND : Fld := ⟨0x60050040, 25, 24⟩
abbrev RIB_VOTE_INFO.CHAIN : Fld := ⟨0x60050040, 11, 0⟩
abbrev RIB_VOTE_IDX.addr : Nat := 0x60050044
abbrev RIB_VOTE_IDX.BEAT : Fld := ⟨0x60050044, 24, 0⟩
abbrev RIB_VOTE_CNT.addr : Nat := 0x60050048
abbrev RIB_VOTE_CNT.COUNT : Fld := ⟨0x60050048, 31, 0⟩
abbrev RIB_SCE_CNT.addr (i : Nat) : Nat := 0x60050050 + i * 4
abbrev RIB_SCE_CNT.COUNT (i : Nat) : Fld := ⟨0x60050050 + i * 4, 31, 0⟩
abbrev RIB_CCT_BASE_LO.addr : Nat := 0x60050060
abbrev RIB_CCT_BASE_LO.ADDR_LO : Fld := ⟨0x60050060, 31, 14⟩
abbrev RIB_CCT_BASE_HI.addr : Nat := 0x60050064
abbrev RIB_CCT_BASE_HI.ADDR_HI : Fld := ⟨0x60050064, 7, 0⟩
abbrev RIB_CCT_CTL.addr : Nat := 0x60050068
abbrev RIB_CCT_CTL.LOAD : Fld := ⟨0x60050068, 31, 31⟩
abbrev RIB_CCT_CTL.COMMIT : Fld := ⟨0x60050068, 30, 30⟩
abbrev RIB_CCT_CTL.ERR : Fld := ⟨0x60050068, 3, 3⟩
abbrev RIB_CCT_CTL.CPEND : Fld := ⟨0x60050068, 2, 2⟩
abbrev RIB_CCT_CTL.BUSY : Fld := ⟨0x60050068, 1, 1⟩
abbrev RIB_CCT_CTL.ACT : Fld := ⟨0x60050068, 0, 0⟩
abbrev RIB_LANEMAP.addr (i : Nat) : Nat := 0x60050070 + i * 4
abbrev RIB_LANEMAP.SPARE3 (i : Nat) : Fld := ⟨0x60050070 + i * 4, 31, 24⟩
abbrev RIB_LANEMAP.SPARE2 (i : Nat) : Fld := ⟨0x60050070 + i * 4, 23, 16⟩
abbrev RIB_LANEMAP.SPARE1 (i : Nat) : Fld := ⟨0x60050070 + i * 4, 15, 8⟩
abbrev RIB_LANEMAP.SPARE0 (i : Nat) : Fld := ⟨0x60050070 + i * 4, 7, 0⟩

/-! Field names of the LAT_ page (R79). -/

abbrev LAT_CTL.addr : Nat := 0x60060000
abbrev LAT_CTL.UE_IE : Fld := ⟨0x60060000, 2, 2⟩
abbrev LAT_CTL.CE_IE : Fld := ⟨0x60060000, 1, 1⟩
abbrev LAT_CTL.SCRUB_EN : Fld := ⟨0x60060000, 0, 0⟩
abbrev LAT_STAT.addr : Nat := 0x60060004
abbrev LAT_STAT.SPARE_EXH : Fld := ⟨0x60060004, 7, 7⟩
abbrev LAT_STAT.SPARE_BUSY : Fld := ⟨0x60060004, 6, 6⟩
abbrev LAT_STAT.PTAB_WACT : Fld := ⟨0x60060004, 5, 5⟩
abbrev LAT_STAT.PTAB_ERR : Fld := ⟨0x60060004, 4, 4⟩
abbrev LAT_STAT.PTAB_ACT : Fld := ⟨0x60060004, 1, 0⟩
abbrev LAT_PTAB_LO.addr (i : Nat) : Nat := 0x60060010 + i * 8
abbrev LAT_PTAB_LO.PHASES (i : Nat) : Fld := ⟨0x60060010 + i * 8, 31, 0⟩
abbrev LAT_PTAB_HI.addr (i : Nat) : Nat := 0x60060014 + i * 8
abbrev LAT_PTAB_HI.PHASES (i : Nat) : Fld := ⟨0x60060014 + i * 8, 31, 0⟩
abbrev LAT_ECC_LOC.addr : Nat := 0x60060040
abbrev LAT_ECC_LOC.REQ : Fld := ⟨0x60060040, 31, 24⟩
abbrev LAT_ECC_LOC.GRAN : Fld := ⟨0x60060040, 23, 22⟩
abbrev LAT_ECC_LOC.WORD : Fld := ⟨0x60060040, 21, 0⟩
abbrev LAT_ECC_INFO.addr : Nat := 0x60060044
abbrev LAT_ECC_INFO.VALID : Fld := ⟨0x60060044, 31, 31⟩
abbrev LAT_ECC_INFO.OVF : Fld := ⟨0x60060044, 30, 30⟩
abbrev LAT_ECC_INFO.UE : Fld := ⟨0x60060044, 29, 29⟩
abbrev LAT_ECC_INFO.LASTING : Fld := ⟨0x60060044, 28, 28⟩
abbrev LAT_ECC_INFO.PBANK : Fld := ⟨0x60060044, 24, 16⟩
abbrev LAT_ECC_INFO.SYND : Fld := ⟨0x60060044, 7, 0⟩
abbrev LAT_CE_CNT.addr : Nat := 0x60060048
abbrev LAT_CE_CNT.COUNT : Fld := ⟨0x60060048, 31, 0⟩
abbrev LAT_UE_CNT.addr : Nat := 0x6006004C
abbrev LAT_UE_CNT.COUNT : Fld := ⟨0x6006004C, 31, 0⟩
abbrev LAT_BREACH_REQ.addr : Nat := 0x60060060
abbrev LAT_BREACH_REQ.BANK : Fld := ⟨0x60060060, 23, 16⟩
abbrev LAT_BREACH_REQ.LOSER : Fld := ⟨0x60060060, 15, 8⟩
abbrev LAT_BREACH_REQ.WINNER : Fld := ⟨0x60060060, 7, 0⟩
abbrev LAT_BREACH_INFO.addr : Nat := 0x60060064
abbrev LAT_BREACH_INFO.VALID : Fld := ⟨0x60060064, 31, 31⟩
abbrev LAT_BREACH_INFO.OVF : Fld := ⟨0x60060064, 30, 30⟩
abbrev LAT_BREACH_INFO.PHASE : Fld := ⟨0x60060064, 24, 21⟩
abbrev LAT_BREACH_INFO.RC : Fld := ⟨0x60060064, 20, 0⟩
abbrev LAT_BREACH_CNT.addr : Nat := 0x60060068
abbrev LAT_BREACH_CNT.COUNT : Fld := ⟨0x60060068, 31, 0⟩
abbrev LAT_SCRUB_PTR.addr : Nat := 0x60060080
abbrev LAT_SCRUB_PTR.PTR : Fld := ⟨0x60060080, 21, 0⟩
abbrev LAT_SCRUB_PASS.addr : Nat := 0x60060084
abbrev LAT_SCRUB_PASS.PASS : Fld := ⟨0x60060084, 31, 0⟩
abbrev LAT_SPARE_CMD.addr : Nat := 0x600600A0
abbrev LAT_SPARE_CMD.GO : Fld := ⟨0x600600A0, 31, 31⟩
abbrev LAT_SPARE_CMD.LBANK : Fld := ⟨0x600600A0, 7, 0⟩
abbrev LAT_SPARE_COPY.addr : Nat := 0x600600A4
abbrev LAT_SPARE_COPY.ACTIVE : Fld := ⟨0x600600A4, 31, 31⟩
abbrev LAT_SPARE_COPY.SPARE : Fld := ⟨0x600600A4, 26, 24⟩
abbrev LAT_SPARE_COPY.LBANK : Fld := ⟨0x600600A4, 23, 16⟩
abbrev LAT_SPARE_COPY.ROW : Fld := ⟨0x600600A4, 13, 0⟩
abbrev LAT_SPARE.addr (i : Nat) : Nat := 0x600600C0 + i * 4
abbrev LAT_SPARE.STATE (i : Nat) : Fld := ⟨0x600600C0 + i * 4, 31, 30⟩
abbrev LAT_SPARE.LBANK (i : Nat) : Fld := ⟨0x600600C0 + i * 4, 7, 0⟩
abbrev LAT_SPARE_PEND.addr (i : Nat) : Nat := 0x600600E0 + i * 4
abbrev LAT_SPARE_PEND.PEND (i : Nat) : Fld := ⟨0x600600E0 + i * 4, 31, 0⟩

end Sys2Proof.Machine
end

