-- ==== Sys2Proof/Machine/SMap.lean ====
section
/-! DEFINITION. Machine/SMap.lean: a finite map over natural-number keys as a list in one canonical form: keys strictly
rising, no entry equal to what an unlisted key reads as. Peripheral registers, memory bytes and stored check bits are
held in this form. -/

namespace Sys2Proof.Machine

/-- What key k holds: its entry, or the default of an unlisted key. -/
def SMap.get {α : Type} (d : Nat → α) : List (Nat × α) → Nat → α
  | [], k => d k
  | (a, v) :: t, k => if k = a then v else SMap.get d t k

/-- Put an entry at its place by key. -/
def SMap.insert {α : Type} (k : Nat) (v : α) : List (Nat × α) → List (Nat × α)
  | [] => [(k, v)]
  | (a, w) :: t => if k < a then (k, v) :: (a, w) :: t else (a, w) :: SMap.insert k v t

/-- Remove every entry of key k. -/
def SMap.erase {α : Type} (k : Nat) : List (Nat × α) → List (Nat × α)
  | [] => []
  | (a, w) :: t => if k = a then SMap.erase k t else (a, w) :: SMap.erase k t

/-- Set key k to v, keeping the canonical form: a default value leaves no entry. -/
def SMap.set {α : Type} [DecidableEq α] (d : Nat → α) (m : List (Nat × α)) (k : Nat) (v : α) : List (Nat × α) :=
  if v = d k then SMap.erase k m else SMap.insert k v (SMap.erase k m)

/-- The canonical form, from a lower bound on the keys: strictly rising, no default value. -/
def SMap.wfFrom {α : Type} [DecidableEq α] (d : Nat → α) : Nat → List (Nat × α) → Bool
  | _, [] => true
  | lo, (a, v) :: t => decide (lo ≤ a) && !decide (v = d a) && SMap.wfFrom d (a + 1) t

/-- The canonical form. -/
def SMap.wf {α : Type} [DecidableEq α] (d : Nat → α) (m : List (Nat × α)) : Bool := SMap.wfFrom d 0 m

/-- Keys lo ≤ k < hi return to their defaults. -/
def SMap.clear {α : Type} (m : List (Nat × α)) (lo hi : Nat) : List (Nat × α) :=
  m.filter (fun c => decide (c.1 < lo) || decide (hi ≤ c.1))

end Sys2Proof.Machine
end

