-- ==== Sys2Proof/Machine/State.lean ====
section
/-! DEFINITION. Machine/State.lean: the state of the block as plain data, the reasons a step can stop, and the machine
right after reset. A register that software can read keeps its value in `regs`; state the spec gives a unit beyond its
registers stands in that unit's structure. -/

namespace Sys2Proof.Machine

/-- What the block answered last: to a bus access, a Lattice read, a device request or a debug command. -/
inductive Resp where
  /-- No answer yet. -/
  | none
  /-- A read's bytes (zeros for a decode error, R37). -/
  | data (bytes : List Byte)
  /-- A write or a command completed. -/
  | done
  /-- A bus error (R38). -/
  | busError
  /-- A Lattice read reached requester `req` (R49): its word and which granules are uncorrectable (R65). -/
  | latRead (req : Nat) (word : Nat) (data : BitVec 256) (ue : BitVec 4)
  /-- A result code of a device request or debug command, with its value. -/
  | code (status value : Nat)
deriving DecidableEq, Repr

/-- Where an outgoing signal or frame leaves the module. -/
inductive OutPort where
  | chainU | chainD | field | camera | ssi | uart | debugWire | pin | resetN | drive | flash | perst | vout
deriving DecidableEq, Repr

/-- One outgoing frame, word or pulse, in the order sent: its port and index, its chain time in sixteenths of a
nanosecond, and its bytes. -/
structure Out where
  port : OutPort
  idx : Nat
  at16 : Nat
  bytes : List Byte
deriving DecidableEq, Repr

/-- A capability: its 128 bits and its tag (R271). -/
structure Cap where
  v : BitVec 128
  tag : Bool
deriving DecidableEq, Repr

/-- The Bulk controller (R30). -/
structure BulkS where
  /-- Redirections of retired pages: (page, spare page), newest first. -/
  redir : List (Nat × Nat)
  /-- The next free page of the spare area, 0 to 512. -/
  nextFree : Nat
  /-- Granules (physical, after redirection) written back and awaiting their re-read. -/
  reread : List Nat
  /-- Bulk offsets of granules found uncorrectable whose page is retired once rewritten. -/
  ueGran : List Nat
deriving DecidableEq, Repr

def BulkS.reset : BulkS := ⟨[], 0, [], []⟩

/-- The system matrix, beyond its registers and credits: where each cluster's round robin goes on, by 4 × port + cluster
(R34), and the errors of the present tc (R40, R41). -/
structure XwS where
  turn : List (Nat × Nat)
  /-- The tc of the errors below, in ns of chain time. -/
  tc : Nat
  /-- Decode errors of that tc: master, address, write; whether the log was taken in that tc. -/
  derrs : List (Nat × Nat × Bool)
  logged : Bool
  /-- Bus errors of that tc. -/
  berrs : Nat
deriving DecidableEq, Repr

def XwS.reset : XwS := ⟨[], 0, [], false, 0⟩

/-- A Lattice read granted and not yet delivered (R49). -/
structure LatRead where
  due : Nat
  req : Nat
  word : Nat
  data : BitVec 256
  ue : BitVec 4
deriving DecidableEq, Repr

/-- A read-modify-write of class 4 to 7 that waits for its write half (R51): the request, what its read half delivered
(corrected), and which granules were uncorrectable. -/
structure LatHalf where
  bank : Nat
  r : LatReq
  data : BitVec 256
  ue : BitVec 4
deriving DecidableEq, Repr

/-- A corrected granule awaiting its maintenance write-back (`written = false`) or re-read (R66). -/
structure LatFix where
  pbank : Nat
  row : Nat
  gran : Nat
  /-- The word address as logged (the row, for a spare read by the scrubber; R79). -/
  loc : Nat
  data : BitVec 64
  cancelled : Bool
  written : Bool
deriving DecidableEq, Repr

/-- The Lattice, beyond its registers and its stored words. -/
structure LatS where
  waiting : List LatReq
  inflight : List LatRead
  halves : List LatHalf
  /-- Banks given to a class 1 or 2 read-modify-write for the next rc as well, with the access (R51, R63). -/
  busy : List (Nat × LatReq)
  fixes : List LatFix
  /-- Home banks taken out of service until the next cold reset (R74, R76). -/
  homeOut : List Nat
  /-- Pending logical banks whose exhaustion has been reported since their bit was set (R72). -/
  exhReported : List Nat
  /-- The bank whose copy a warm reset abandoned: its copy starts no sooner than the sequencer has left STOPPED (R75). -/
  copyHold : Option Nat
  /-- Chain time, in sixteenths, of the next scrub tick and of the next row-copy tick (R69, R73). -/
  scrubAt : Nat
  copyAt : Nat
  /-- The selected phase table, which becomes active at the next phase 0, and when it was selected (R59). -/
  ptabSel : Option (Nat × Nat)
deriving DecidableEq, Repr

def LatS.reset : LatS := ⟨[], [], [], [], [], [], [], none, 0, 0, none⟩

/-- How far a run of a Ribbon chain has come: launched and not yet fetched; waiting for its Cam table; running; stopping,
with its write-back still to be granted. -/
inductive RunPhase where
  | launched | table | running | stopping
deriving DecidableEq, Repr

/-- What a stop leaves in the descriptor and the logs (R118 to R124): END, cause, stream, the position that RIDX takes,
the fault position, tap and address, and the strands that reported. -/
structure StopInfo where
  end_ : Nat
  cause : Nat
  stream : Nat
  ridx : Nat
  fidx : Nat
  tap : Nat
  addr : Nat
  strands : Nat
deriving DecidableEq, Repr

def StopInfo.none : StopInfo := ⟨0, 0, 0, 0, 0, 0, 0, 0⟩

/-- A fault decision at a beat (R112, R122): the strands that report it, the fault position, the port, the cause, the tap and the
address. -/
structure RibDec where
  strands : Nat
  pos : Nat
  port : Nat
  cause : Nat
  tap : Nat
  addr : Nat
deriving DecidableEq, Repr

/-- What a reader has presented for one beat, or for one row of taps of a window (R101, R102): its values, one list per tap,
and the accesses that failed. -/
structure RdUnit where
  vals : List (List Nat)
  decs : List RibDec
deriving DecidableEq, Repr

/-- How far a run has come: the first beat not finished, RP's carried state and the elements emitted before it, and STAT.FLAGS
with STAT.SAT as bit 5, as fetched and as raised by the beats before it (R94, R105, R119, R120). -/
structure BeatMark where
  beat : Nat
  carry : Nat
  ocnt : Nat
  flags : Nat
deriving DecidableEq, Repr

/-- A beat that has entered the units and is not finished (R168, R169): its number, the fault decisions at it and whether they
end the run, the flags it raises, RP's state and OCNT after it, the writers that have still to present, what each writer is to
write (the index its address uses, the position on whose behalf, the value), and how the proposals of the writers that have
presented differ. -/
structure RibBeat where
  beat : Nat
  decs : List RibDec
  stops : Bool
  flags : Nat
  carry : Nat
  ocnt : Nat
  left : List Nat
  items : List (List (Nat × Nat × Nat))
  diffs : List (List StrandDiff)
deriving DecidableEq, Repr

/-- One run of a Ribbon chain (R80 to R124). -/
structure RibRun where
  chain : Nat
  /-- The strands it was launched on: bit 0 A, 1 B, 2 C. -/
  strands : Nat
  /-- Are the strands still held? A slot end frees them before the write-back (R177). -/
  holds : Bool
  soft : Bool
  /-- The soft list and entry that launched it, as 64 × list + entry. -/
  entry : Option Nat
  retry : Bool
  phase : RunPhase
  /-- Asked to preempt, and the first beat-tap that is then no longer read (R177). -/
  preempt : Bool
  limit : Nat
  /-- The descriptor as fetched: 256 bytes, least significant first (R106). -/
  desc : Nat
  /-- The six streams' capabilities as copied at launch (R114). -/
  caps : List Cap
  /-- The beat and tap that enter the units next. -/
  beat : Nat
  tap : Nat
  /-- Per reader: what it has presented for the beat-tap in hand and for those after it, at most 16 (R168, R169). -/
  reads : List (List RdUnit)
  /-- The fault decisions so far at the beat in hand. -/
  decs : List RibDec
  /-- Accumulators of MAC0 and MAC1 by position (R137). -/
  acc0 : List Int
  acc1 : List Int
  /-- RP's carried state at the start of the beat in hand, as K1 holds it (R147), elements emitted before it, and the flags
  raised so far at it. -/
  carry : Nat
  ocnt : Nat
  bflags : Nat
  /-- Beats that have entered the units and are not finished, oldest first, at most 16 (R169). -/
  beats : List RibBeat
  done : BeatMark
  /-- The Cam unit's table, and whether it is valid (R149, R150). -/
  cam : List Nat
  camOk : Bool
  /-- Per QSINK writer: the values it holds for its next message, and how far the run had come before the beat of the last of
  them; the last messages of a stopped run, padded: (writer, bytes) (R99). -/
  qvals : List (List Nat)
  qfrom : List BeatMark
  qlast : List (Nat × List Byte)
  /-- Strands that have already given a mismatch event in this run (R110). -/
  mmSent : Nat
  stop : StopInfo
deriving DecidableEq, Repr

/-- A mismatch on its way to the Recovery Controller (R204). -/
structure RibMm where
  chain : Nat
  strands : Nat
  /-- A DUPLEX pair, of which neither strand is known to be odd. -/
  pair : Bool
  /-- A retry that mismatched again. -/
  retry : Bool
  round : Nat
deriving DecidableEq, Repr

/-- The Ribbon engine, beyond its registers. -/
structure RibS where
  runs : List RibRun
  /-- The two copies of the chain capability table (R113). -/
  cct0 : List (Nat × Cap)
  cct1 : List (Nat × Cap)
  /-- A load has finished since the last swap (R114). -/
  loaded : Bool
  /-- The completion queue (R126). -/
  done : List Nat
  doneOvf : Bool
deriving DecidableEq, Repr

def RibS.reset : RibS := ⟨[], [], [], false, [], false⟩

/-- An open soft slot (R175): its list, strands, the chain time from which it is open and that of its end, and LEAD in rc. -/
structure SoftSlot where
  list : Nat
  strands : Nat
  openAt : Nat
  endAt : Nat
  lead : Nat
deriving DecidableEq, Repr

/-- A swap in progress (R184): step 1 checking, 2 waiting for T, 3 after step 3; the instant T in nanoseconds (0 until
fixed); what GO latched. -/
structure SwapS where
  stage : Nat
  t : Nat
  sched : Bool
  cct : Bool
  fw : Bool
deriving DecidableEq, Repr

/-- The schedule sequencer, beyond its registers. -/
structure SchS where
  /-- Chain time of the most recent round boundary, in sixteenths of a nanosecond (R153, R154). -/
  roundStart : Nat
  /-- Chain time at which the round in progress began: earlier than `roundStart` in a late round (R182). -/
  progStart : Nat
  /-- Chain time from which the next instruction may issue (R163). -/
  nextRc : Nat
  /-- A LAUNCH that waits for its strands: strands and chain (R165). -/
  held : Option (Nat × Nat)
  /-- STOPPING has reached its boundary: no further round starts (R157). -/
  closing : Bool
  /-- ROUNDEND has issued in this round (R165). -/
  ended : Bool
  /-- Latched by the check pass: PLEN of the active buffer (R162). -/
  plen : Nat
  /-- Soft-entry states by 64 × list + entry: 1 ARMED, 2 READY, 3 RUNNING; unlisted IDLE (R174). -/
  soft : List (Nat × Nat)
  /-- RUNNING entries whose cancel is pending, and entries whose next launch is a retry (R174). -/
  cancels : List Nat
  retryNext : List Nat
  slots : List SoftSlot
  /-- The retry reserves opened and not ended: from when and until when, in chain time (R180). -/
  reserves : List (Nat × Nat)
  /-- Retry queue: chain and strands (R179). -/
  retryq : List (Nat × Nat)
  swap : Option SwapS
  /-- Watched exchange issues: deadline in chain time, and the exchanges started, as block and chain time of the start (R172). -/
  exch : List (Nat × List (Nat × Nat))
  /-- The rc of the logged breach, as chain time over the length of an rc (R187). -/
  breachRc : Nat
deriving DecidableEq, Repr

def SchS.reset : SchS := ⟨0, 0, 0, none, false, true, 0, [], [], [], [], [], [], none, [], 0⟩

/-- A lane test of a strand (R205): due at the next round boundary, or running with the steps done and the lanes found. -/
structure LaneTest where
  running : Bool
  steps : Nat
  lanes : List Nat
  shared : Bool
deriving DecidableEq, Repr

/-- What the Recovery Controller remembers of one strand (R204 to R207). -/
structure StrandS where
  /-- The round of the last recorded mismatch, and the round in which the last lane test ended, if it passed. -/
  lastMm : Option Nat
  passed : Option Nat
  test : Option LaneTest
  /-- Substitutions decided and waiting: (spare, logical lane). -/
  subs : List (Nat × Nat)
  /-- A retirement decided and waiting, with its INFO. -/
  retire : Option Nat
deriving DecidableEq, Repr

def StrandS.reset : StrandS := ⟨none, none, none, [], none⟩

/-- A resynchronisation requested: the slice that it retires, if any, and the slices that are not of the majority, one bit each
(R197, R199). -/
structure ResyncS where
  out : Option Nat
  odd : Nat
deriving DecidableEq, Repr

/-- A resynchronisation pause: the chain time of the stop in sixteenths, its length in tc, the copies made, and the tests
of a voter on a slice that fail, bit 3 × voter + slice (R197). -/
structure PauseS where
  start : Nat
  tc : Nat
  copies : Nat
  fails : Nat
deriving DecidableEq, Repr

/-- The Recovery Controller, beyond its registers. -/
structure RcvS where
  /-- The event log ring, by slot: DATA3 to DATA0 of each entry (R214, R215). -/
  log : List (Nat × BitVec 128)
  /-- Ribbon mismatches on their way to the controller, oldest first (R204). -/
  mm : List RibMm
  strandA : StrandS
  strandB : StrandS
  strandC : StrandS
  /-- Chain time of the last single-slice mismatch of each slice, and of the last odd-voter event of each voter (R199,
  R201). -/
  sliceAt : List (Nat × Nat)
  voterAt : List (Nat × Nat)
  /-- Chain times of the lockstep resets (R200), newest first. -/
  resets : List Nat
  /-- A resynchronisation requested (R197, R199, R203). -/
  resync : Option ResyncS
  /-- The pause of a resynchronisation (R197). -/
  paused : Option PauseS
  /-- The number of the last voter self-test done (R202). -/
  vtests : Nat
  /-- A voter self-test put off by a real disagreement, with the chain time in ns at which it is repeated; and the voter that is
  left out of one tc, the chain time of that tc in ns (R202). -/
  vtestAt : Option (Nat × Nat)
  vtesting : Option (Nat × Nat)
  /-- After a warm reset, decided substitutions, retirements and tests wait until the sequencer leaves STOPPED (R213). -/
  held : Bool
  /-- A Watcher reset that the controller has still to log (R214). -/
  wdt : Bool
deriving DecidableEq, Repr

def RcvS.reset : RcvS := ⟨[], [], StrandS.reset, StrandS.reset, StrandS.reset, [], [], [], none, none, 0, none, none, false, false⟩

/-- Kinds of entry-stack frames (R293). -/
inductive FrameKind where
  | gate | handler | escalation
deriving DecidableEq, Repr

/-- A frame of the entry stack (R293); `src` is the interrupt source that completes when it is popped (R308), `hold` the
end of the hold window that the entry interrupted, on Trifle's clock in sixteenths of a tc. -/
structure EFrame where
  kind : FrameKind
  pc : BitVec 40
  fcap : Cap
  c15 : Cap
  ml : Nat
  actl : Nat
  comp : Nat
  hold : Option Nat
  src : Option Nat
deriving DecidableEq, Repr

/-- A write of the product register in flight (R235): a product that replaces it or is added to it, or an MTSR to PL or
PH. -/
inductive MulOp where
  | set (v : BitVec 128)
  | add (v : BitVec 128)
  | low (v : Word)
  | high (v : Word)
deriving DecidableEq, Repr

/-- A wait in progress: WAITEV with rd and its limit, WAITT with rd and its instant (R268, R269). -/
inductive TWait where
  | event (rd : Nat) (limit : Option Nat)
  | time (rd limit : Nat)
deriving DecidableEq, Repr

/-- A control-register write that waits for SYNC (R244). -/
inductive CtlWrite where
  | htb (v : Nat)
  | esb (v : Nat)
  | ml (v : Nat)
  | epr (k v : Nat)
  | ge (i : Nat) (c : Cap)
  | fcause (v : Nat)
  | faddr (v : Nat)
deriving DecidableEq, Repr

/-- The delay slot to come (R239): its control transfer's address, where execution goes on after it, whether it is
annulled, and the tc lost after it (R240). -/
structure Slot where
  addr : BitVec 40
  target : BitVec 40
  annul : Bool
  lost : Nat
deriving DecidableEq, Repr

/-- An RPT whose body is to come (R260): its address, the body, and the elements until an interruption point. -/
structure RptS where
  addr : BitVec 40
  body : RptBody
  limit : Nat
deriving DecidableEq, Repr

/-- Trifle, beyond its memories (R217, R218, R245, R275, R283, R286, R293, R304). Registers not listed hold zero, and
capability registers not listed null. -/
structure TriS where
  /-- The address of the next instruction. -/
  pc : BitVec 40
  slot : Option Slot
  g : List (Nat × Word)
  f : List (Nat × Word)
  v : List (Nat × VWord)
  p : List (Nat × Word)
  fcsr : Word
  /-- The event register EV (R266). -/
  ev : Bool
  /-- PL, PH, the LP_ registers and VX_IDX, by number (R218). -/
  sp : List (Nat × Word)
  /-- The writes of PL and PH in flight, oldest first, with their instants on Trifle's clock (R235). -/
  mul : List (Nat × MulOp)
  /-- Trifle's clock since the reset, in sixteenths of a tc (CYC is its whole tc), and how far the chain time that has
  passed with it differs from it, in sixteenths of a nanosecond (R7, R218); instructions retired; the last CT read (R21). -/
  clk : Nat
  skew : Int
  insn : Word
  ctLast : Nat
  c : List (Nat × Cap)
  fcap : Cap
  /-- Gate entry registers as written and as in force (R244): 2n for GEn.CODE, 2n + 1 for GEn.DATA. -/
  ge : List (Nat × Cap)
  geUsed : List (Nat × Cap)
  /-- HTB, ESB and ML as written and as in force, FCAUSE and FADDR. -/
  htb : Word
  esb : Word
  ml : Word
  htbUsed : Word
  esbUsed : Word
  mlUsed : Word
  fcause : Word
  faddr : Word
  /-- Epoch registers as written, as Trifle uses them (R277), and as the other blocks use them since the last round boundary
  (R278). -/
  eprW : List (Nat × Nat)
  epr : List (Nat × Nat)
  eprUsed : List (Nat × Nat)
  waiting : List CtlWrite
  /-- XW_CTL.REMAP as instruction fetch uses it (R24, R244). -/
  remapUsed : Bool
  holdOvr : Bool
  epx : Bool
  /-- TSTAT.ACTL and COMP (R304). -/
  actl : Nat
  comp : Nat
  /-- The end of the current handler's hold window, on Trifle's clock (R300). -/
  hold : Option Nat
  stack : List EFrame
  /-- A handler entry, GATE, GRET or HRET whose first instruction has still to reach X (R296). -/
  entered : Bool
  wait : Option TWait
  rpt : Option RptS
deriving DecidableEq, Repr

/-- A root capability (R283). -/
def rootCap (otype base len : Nat) : Cap :=
  ⟨BitVec.ofNat 128 (base + len * 2 ^ 40 + 0x3FFF * 2 ^ 80 + otype * 2 ^ 96), true⟩

/-- The root memory capability (R283). -/
def rootMem : Cap := rootCap 0 0 0xFFFFFFFFFF

/-- C0 to C15 after a reset (R283). -/
def rootCaps : List (Nat × Cap) :=
  [(0, rootMem), (1, rootCap 1 0 1024), (2, rootCap 2 0 1048576), (3, rootCap 3 0 64), (4, rootCap 4 0 8),
   (5, rootCap 5 0 4096), (6, rootCap 6 1 4095), (15, rootMem)]

def TriS.reset : TriS :=
  { pc := 0, slot := none, g := [], f := [], v := [], p := [], fcsr := 0, ev := false, sp := [], mul := [],
    clk := 0, skew := 0, insn := 0, ctLast := 0, c := rootCaps, fcap := rootMem, ge := [], geUsed := [],
    htb := 0, esb := 0x1FE000, ml := 0, htbUsed := 0, esbUsed := 0x1FE000, mlUsed := 0, fcause := 0, faddr := 0,
    eprW := [], epr := [], eprUsed := [], waiting := [], remapUsed := false, holdOvr := false, epx := false, actl := 0, comp := 16,
    hold := none, stack := [], entered := false, wait := none, rpt := none }

/-- The interrupt controller and the Always-on Watcher, beyond their registers. -/
structure IcuS where
  /-- The Watcher slots whose latch is set, one bit each (R311). -/
  latch : Nat
  /-- Schedule marks raised whose edge has not reached the controller (R305, R165). -/
  marks : Nat
  /-- When the Recovery Controller checked in last, in ns of the fabric counter (R210). -/
  checkIn : Nat
  /-- The sources whose line the controller's synchroniser has found high, one bit each (R306). -/
  seen : Nat
deriving DecidableEq, Repr

def IcuS.reset : IcuS := ⟨0, 0, 0, 0⟩

/-- A queue descriptor as four doublewords (R323). -/
structure QDesc where
  dw0 : Nat
  dw1 : Nat
  dw2 : Nat
  dw3 : Nat
deriving DecidableEq, Repr

/-- The queue engine, beyond its registers and the descriptors and rings in Bulk. -/
structure QueS where
  /-- Queues in the engine's use (R324). -/
  attached : List Nat
  /-- Cached descriptors with their queues, least recently used first, at most 4,096 (R324). -/
  cache : List (Nat × QDesc)
  /-- Pinned descriptors, at most 2,048 (R329). -/
  pinned : List Nat
  /-- Registrations: soft entry (64 × list + entry) and queue (R328). -/
  asks : List (Nat × Nat)
  /-- Depth-met answers on their way to the sequencer (R328). -/
  answers : List Nat
  /-- The notification FIFOs: (FIFO, queue), oldest first; the FIFOs whose OVF is set (R327). -/
  notes : List (Nat × Nat)
  noteOvf : List Nat
  /-- The strands' input buffers, oldest first: (strand, 2 × chain + port, queue, message) (R325). -/
  inbuf : List (Nat × Nat × Nat × List Byte)
  /-- The stall queue (R330). -/
  stalls : List Nat
  stallOvf : Bool
  /-- Staging slots: word 64 × slot + w: TX 0 to 15, RX 16 to 31, SLOTSTAT 32. Slot 0 to 16 are compartments, 17 the
  debug logic, 18 the Archive processor (R326). -/
  slots : List (Nat × Reg32)
deriving DecidableEq, Repr

def QueS.reset : QueS := ⟨[], [], [], [], [], [], [], [], [], false, []⟩

/-- One field port (R375 to R388). Times in ns of chain time. -/
structure PortS where
  /-- SEQ of the next frame (R376). -/
  seq : Nat
  /-- The last 8 round trips, newest first (R380). -/
  trips : List Nat
  /-- The end of the port's last EOF, and whether an answer to it is awaited (R380). -/
  eof : Nat
  waiting : Bool
  /-- The next transmission is an IDENT_REQ (R384). -/
  ident : Bool
  /-- The port has still to transmit in this round (R372), for the bank that became current at `bound`. -/
  due : Bool
  bound : Nat
  /-- A good frame or transfer in this round. -/
  got : Bool
  /-- CAPTURE: edges in the filling bank (R386). -/
  edges : Nat
  /-- CAPTURE and PULSE: the pin level. -/
  level : Bool
  /-- PULSE: entries not yet placed, and the instant of the entry before (R387). -/
  entries : List (Bool × Nat)
  lastAt : Nat
  /-- PULSE with MARKEN: the stamps not yet placed. -/
  stamps : List Nat
  /-- SSI and UART: the end of the last transfer sent (R385, R388). -/
  busyUntil : Nat
  /-- UART: bytes received in the filling bank (R388). -/
  rx : Nat
deriving DecidableEq, Repr

def PortS.idle : PortS := ⟨0, [], 0, false, false, false, 0, false, 0, false, [], 0, [], 0, 0⟩

/-- What is left of an exchange in progress. -/
inductive FldStage where
  | inbound | outbound | moved
deriving DecidableEq, Repr

/-- An exchange in progress at a block (R373, R374): the chain time of its start, its direction, what is left, whether an
outbound word was uncorrectable, and the map entries in force at its start: (inbound, _A, _B). -/
structure FldX where
  block : Nat
  start : Nat
  both : Bool
  out : Bool
  stage : FldStage
  ue : Bool
  maps : List (Bool × Nat × Nat)
deriving DecidableEq, Repr

/-- The field blocks, beyond their registers; a buffer bank is stored memory. -/
structure FldS where
  ports : List (Nat × PortS)
  xfers : List FldX
  /-- FLD_PCFG, FLD_XIN, FLD_XOUT and FLD_APPLY as in force, by register address (R369). -/
  eff : List (Nat × Reg32)
  /-- Per block, the chain time in ns at which its pending outbound bank was complete (R372). -/
  pendAt : List (Nat × Nat)
deriving DecidableEq, Repr

def FldS.reset : FldS := ⟨[], [], [], []⟩

/-- A transfer of a mover in progress (R391): the descriptor as started, whether MOVE started it, and the chain time in
sixteenths at which it started. -/
structure MvRun where
  mover : Nat
  desc : List Nat
  byMove : Bool
  start : Nat
deriving DecidableEq, Repr

/-- The movers, beyond their registers. -/
structure MvS where
  runs : List MvRun
deriving DecidableEq, Repr

def MvS.reset : MvS := ⟨[]⟩

/-- An entry of a CAM_DONE FIFO (R394, R400). -/
structure CamDoneE where
  trunc : Bool
  wide : Bool
  slot : Nat
  frame : Nat
  rows : Nat
  cols : Nat
  stamp : Nat
deriving DecidableEq, Repr

/-- One camera port (R393 to R396): slots FILLING and HELD, the slot taken last, the FIFO, the running frame (slot,
stamp, 2-byte pixels), trigger instants that wait (in ns), and the control access in progress: the end of the wait for its
acknowledgement, whether it writes, and its length. -/
structure CamPort where
  filling : Nat
  held : Nat
  last : Nat
  fifo : List CamDoneE
  ovf : Bool
  frame : Option (Nat × Nat × Bool)
  trig : List Nat
  ackBy : Nat
  accWrite : Bool
  accLen : Nat
deriving DecidableEq, Repr

def CamPort.idle : CamPort := ⟨0, 0, 15, [], false, none, [], 0, false, 0⟩

/-- The camera ports, beyond their registers. -/
structure CamS where
  ports : List (Nat × CamPort)
deriving DecidableEq, Repr

def CamS.reset : CamS := ⟨[]⟩

/-- A frame of the chain (R343, R344): its three header doublewords and the bytes between header and TERM. -/
structure Frame where
  h0 : Nat
  h1 : Nat
  h2 : Nat
  body : List Byte
deriving DecidableEq, Repr

/-- A frame sent and not acknowledged, and the fabric time of its sending in sixteenths (R348). -/
structure TxFrame where
  lseq : Nat
  frame : Frame
  retried : Bool
  sentAt : Nat
deriving DecidableEq, Repr

/-- A chain port (R337 to R358). Stamps in sixteenths of a nanosecond of fabric time. -/
structure ChnPort where
  txSeq : Nat
  rxLast : Option Nat
  fails : Nat
  unacked : List TxFrame
  /-- Frames not yet started, in the order they are to be sent (R349). -/
  waiting : List Frame
  /-- The PDREQ sent last: its SEQ and t1; the mean's last 8 delays, newest first (R358). -/
  pdSeq : Nat
  t1 : Nat
  delays : List Int
deriving DecidableEq, Repr

def ChnPort.idle : ChnPort := ⟨0, none, 0, [], [], 0, 0, []⟩

/-- A session key (R451). -/
structure SessKey where
  peer : Nat
  num : Nat
  rights : Nat
  key : List Byte
  tx : Nat
  rx : Nat
deriving DecidableEq, Repr

/-- A session exchange in progress (R449): the peer, whether this module is the initiator, K, the rights requested or
granted, this module's ephemeral secret as an index of free values, and every payload byte sent so far. -/
structure SessX where
  peer : Nat
  initiator : Bool
  num : Nat
  rights : Nat
  eph : Nat
  bytes : List Byte
deriving DecidableEq, Repr

/-- A frame that the module is to consume: port (0 U, 1 D), frame, its plaintext payload, the rights of the key it came under, if
it was encrypted, and its arrival on the master copy, in sixteenths (R359). -/
structure RxFrame where
  port : Nat
  frame : Frame
  text : List Byte
  rights : Option Nat
  at16 : Nat
deriving DecidableEq, Repr

/-- The chain, beyond its registers. -/
structure ChnS where
  u : ChnPort
  d : ChnPort
  /-- TAG of the next frame (R344). -/
  tag : Nat
  /-- Frames to consume, in the order of arrival. -/
  rx : List RxFrame
  /-- Fabric time less the master copy, in sixteenths (R358). -/
  fabOff : Int
  topoGen : Nat
  /-- Down segments, bit j for segment j (R361). -/
  down : Nat
  trustGen : Nat
  /-- Role epochs of other modules as learned (R354). -/
  epochs : List (Nat × Nat)
  /-- The head has recorded that a line holds more modules than addresses (R352). -/
  excess : Bool
  /-- The nonces of the challenges, and the parts of certificates received (R353). -/
  nonces : List (Nat × List Byte)
  certs : List (Nat × Nat × List Byte)
  /-- Consecutive SYNCs within 4 ns, and the fabric time of the last SYNC in ns (R359). -/
  good : Nat
  syncAt : Nat
  /-- Listening after a cold reset (head): the end in ns of fabric time, and a locked neighbour's chain time less ours, in sixteenths. -/
  listen : Option (Nat × Option Int)
  keys : List SessKey
  sess : List SessX
  /-- The snapshot that is pending: T and ID (R362). -/
  snap : Option (Nat × Nat)
  /-- The recipe transfer: image length, hash, chunks taken since the last STATUS (R363); as a source, the target. -/
  rcpLen : Nat
  rcpHash : List Byte
  rcpRun : Nat
  /-- A reset that waits for its instant: kind 1 to 3, instant in ns (R364). -/
  rst : Option (Nat × Nat)
deriving DecidableEq, Repr

def ChnS.reset : ChnS :=
  ⟨ChnPort.idle, ChnPort.idle, 0, [], 0, 0, 0, 0, [], false, [], [], 0, 0, none, [], [], none, 0, [], 0, none⟩

/-- A record on a drive (R406): its first LBA, its blocks, its SEQ, and whether a Flush has followed its writes. -/
structure ArcRec where
  lba : Nat
  blocks : Nat
  seq : Nat
  flushed : Bool
deriving DecidableEq, Repr

/-- One drive (R406): CAP, head LBA, the records retained oldest first, the superblock generation and whether head or tail
have changed since it was rewritten; records found on it at a probe. -/
structure ArcDrive where
  cap : Nat
  head : Nat
  recs : List ArcRec
  gen : Nat
  dirty : Bool
deriving DecidableEq, Repr

def ArcDrive.empty : ArcDrive := ⟨0, 2, [], 0, false⟩

/-- A request taken and not completed (R408, R409): OP, TAG, drive, LBA, SEQ, whether its write has started and is done,
whether a retry has been made, and the request message. -/
structure ArcReq where
  drive : Nat
  lba : Nat
  seq : Nat
  written : Bool
  retried : Bool
  msg : List Byte
deriving DecidableEq, Repr

/-- The Archive, beyond its registers. -/
structure ArcS where
  drives : List (Nat × ArcDrive)
  /-- The drive used last (R407); SEQ of the next record. -/
  last : Nat
  nextSeq : Nat
  reqs : List ArcReq
  /-- Completions not yet in ARC_CQUEUE (R409). -/
  comps : List (List Byte)
  /-- Chain times of the watchdog restarts, newest first (R403). -/
  restarts : List Nat
  /-- PERST_N is low at the four root ports (R490). -/
  perst : Bool
deriving DecidableEq, Repr

def ArcS.reset : ArcS := ⟨[], 3, 1, [], [], [], true⟩

/-- The power states (R414). -/
inductive PState where
  | off | dormant | idle | run
deriving DecidableEq, Repr

/-- Power, reset and the flash engine, beyond their registers. -/
structure PwrS where
  /-- The widest reset that has been called for and not yet applied: 0 none, 1 core, 2 warm, 3 cold (R420, R424). -/
  req : Nat
  state : PState
  /-- The kind of the reset that is asserted (0 none) and of the last one applied. -/
  asserted : Nat
  last : Nat
  /-- When the asserted reset may be released, in ns of the fabric counter, as the next times here (R421). -/
  until_ : Nat
  /-- What is left of the start window, in ns, and from when it runs (R424). -/
  winLeft : Nat
  winFrom : Nat
  /-- The watchdog's last restart (R427). -/
  wdtFrom : Nat
  /-- Neither port draws and the rails are about to fall (R481). -/
  fail : Bool
  /-- The flash operation in progress (R443): device, operation, flash address, Bulk address, length. -/
  flash : Option (Nat × Nat × Nat × Nat × Nat)
  /-- The path code handed over at the last start (R428); 0xFF while the boot ROM waits or halts. -/
  path : Nat
  /-- MGMT WAKE named this module in Idle (R415). -/
  wakeChain : Bool
  /-- Line voltage at each port in eighths of a volt, and whether the port may draw (R341). -/
  vinU : Nat
  vinD : Nat
  mayU : Bool
  mayD : Bool
  /-- VOUT_1V8 and VOUT_3V3 are on (R494). -/
  vout : Bool
deriving DecidableEq, Repr

def PwrS.reset : PwrS := ⟨0, .run, 0, 3, 0, 0, 0, 0, false, none, 0xFF, false, 0, 0, false, false, true⟩

/-- The security block: what is held in fuses, and the debug unlock (R446 to R456, R467, R468). -/
structure SecS where
  /-- Lifecycle fuses blown, and the RETIRED fuse (R452). -/
  n : Nat
  retired : Bool
  /-- Builder key slots: PROG and REVOKED masks, and the keys, 64 bytes each (R447). -/
  prog : Nat
  revoked : Nat
  keys : List (Nat × List Byte)
  /-- The certificate chain and the serial number (R446). -/
  cert : List Byte
  serial : BitVec 64
  /-- SEC_NONCE and DBG_NONCE: indices of free values (R448, R468). -/
  nonce : Nat
  dbgNonce : Nat
deriving DecidableEq, Repr

def SecS.reset : SecS := ⟨0, false, 0, 0, [], [], 0, 0, 1⟩

/-- The debug domain, beyond its registers (R458, R464, R475). -/
structure DbgS where
  /-- The result of the last memory access, STATUS and DATA, and whether RSLT has still to return it. -/
  last : Nat × Nat
  waits : Bool
  /-- The virtual terminal's buffers, oldest byte first. -/
  tx : List Byte
  rx : List Byte
  /-- The debug slice may retire one instruction (R471). -/
  step : Bool
  /-- A halt requested and not yet reached (R469). -/
  halting : Bool
  /-- SCOPE[0] of the unlock in force (R468). -/
  run : Bool
  /-- The last falling edge while ACTIVE, in ns of the fabric counter (R459). -/
  edgeAt : Nat
deriving DecidableEq, Repr

def DbgS.reset : DbgS := ⟨(1, 0), false, [], [], false, false, false, 0⟩

/-- The state of the block. -/
structure State where
  /-- Every peripheral register, in canonical form over its reset value. -/
  regs : List (Nat × Reg32)
  /-- Every stored byte, by storage number (Ops.lean gives each memory its numbers), in canonical form. -/
  mem : List Host.Cell
  /-- Stored check bits xor the check bits of the stored data, per 64-bit granule (R30, R65, R161). -/
  syn : List (Nat × BitVec 8)
  /-- Lasting faults: bits that flip again after every write of a granule (R30, R66). -/
  stuck : List (Nat × BitVec 72)
  /-- The 16-byte granules of Trifle Local and Bulk that hold a tagged capability (R274). -/
  tags : List Nat
  /-- Arbitration credits of the system matrix, by port and cluster (R34). -/
  credit : List (Nat × Int)
  xw : XwS
  /-- The master copy of chain time, in sixteenths of a nanosecond (R21). -/
  time : Nat
  /-- The model's own: how many free values have been used. -/
  free : Nat
  /-- What the block answered last. -/
  resp : Resp
  /-- What the block has sent, oldest first. -/
  out : List Out
  bulk : BulkS
  lat : LatS
  rib : RibS
  sch : SchS
  rcv : RcvS
  tri : TriS
  icu : IcuS
  que : QueS
  fld : FldS
  mv : MvS
  cam : CamS
  chn : ChnS
  arc : ArcS
  pwr : PwrS
  sec : SecS
  dbg : DbgS
  /-- Commands that wait, first in first out. -/
  pending : List Instr
deriving DecidableEq, Repr

/-- Why the block stops. -/
inductive Fault where
  /-- Raised by no meaning: every error the spec describes leaves the block running (safe). -/
  | none
deriving DecidableEq, Repr

/-- Why a command has no meaning here. -/
inductive Refusal where
  /-- Raised by a refused arm of `exec`: a command the model does not reach (safe). -/
  | notModelled (mnemonic : String)
deriving DecidableEq, Repr

/-- The machine right after cold reset: every register at its reset value (`regs` lists only others), memories zero or
as Ops.lean says an unlisted byte reads, chain time 0 (R21, R22). -/
def State.reset : State :=
  { regs := [], mem := [], syn := [], stuck := [], tags := [], credit := [], xw := XwS.reset, time := 0, free := 2, resp := .none, out := [],
    bulk := BulkS.reset,
    lat := LatS.reset,
    rib := RibS.reset,
    sch := SchS.reset,
    rcv := RcvS.reset,
    tri := TriS.reset,
    icu := IcuS.reset,
    que := QueS.reset,
    fld := FldS.reset,
    mv := MvS.reset,
    cam := CamS.reset,
    chn := ChnS.reset,
    arc := ArcS.reset,
    pwr := PwrS.reset,
    sec := SecS.reset,
    dbg := DbgS.reset,
    pending := [] }

/-- What a meaning answers. -/
abbrev Res := Host.Outcome State Fault Refusal

end Sys2Proof.Machine
end

