-- ==== Sys2Proof/Machine/Ops.lean ====
section
/-! DEFINITION. Machine/Ops.lean: the named operations over registers, chain time, memory, stored check bits, tags, the
Recovery Controller's log and reset requests. -/

namespace Sys2Proof.Machine

/-! Registers (R8). -/

/-- The 32 bits of the register at address a. -/
def State.rdReg (s : State) (a : Nat) : Nat := (SMap.get regReset s.regs a).toNat

/-- The register at address a takes the value v. -/
def State.wrReg (s : State) (a v : Nat) : State := { s with regs := SMap.set regReset s.regs a (BitVec.ofNat 32 v) }

/-- The value of a field. -/
def State.rd (s : State) (f : Fld) : Nat := bits (s.rdReg f.addr) f.hi f.lo

/-- A field takes the value v. -/
def State.wr (s : State) (f : Fld) (v : Nat) : State := s.wrReg f.addr (setBits (s.rdReg f.addr) f.hi f.lo v)

/-- Is a field not zero? -/
def State.isOn (s : State) (f : Fld) : Bool := s.rd f != 0

/-- Set every bit of a field. -/
def State.on (s : State) (f : Fld) : State := s.wr f (2 ^ (f.hi + 1 - f.lo) - 1)

/-- Clear a field. -/
def State.off (s : State) (f : Fld) : State := s.wr f 0

/-- A field takes a truth value. -/
def State.put (s : State) (f : Fld) (b : Bool) : State := s.wr f (b2n b)

/-- A counter gains n and saturates. -/
def State.gain (s : State) (f : Fld) (n : Nat) : State := s.wr f (min (s.rd f + n) (2 ^ (f.hi + 1 - f.lo) - 1))

/-- A counter gains 1 and saturates. -/
def State.bump (s : State) (f : Fld) : State := s.gain f 1

/-- A counter gains 1 and wraps. -/
def State.bumpWrap (s : State) (f : Fld) : State := s.wr f (s.rd f + 1)

/-- A field is or-ed with m. -/
def State.orBits (s : State) (f : Fld) (m : Nat) : State := s.wr f (Nat.lor (s.rd f) m)

/-- The bits of m are cleared in a field. -/
def State.clearBits (s : State) (f : Fld) (m : Nat) : State :=
  s.wr f (Nat.land (s.rd f) (Nat.xor (Nat.lor (s.rd f) m) m))

/-- A 64-bit value from a low and a high register field. -/
def State.rd2 (s : State) (lo hi : Fld) : Nat := s.rd lo + s.rd hi * 2 ^ 32

/-- A 64-bit value into a low and a high register field. -/
def State.wr2 (s : State) (lo hi : Fld) (v : Nat) : State := (s.wr lo v).wr hi (v / 2 ^ 32)

/-- Run f when b holds. -/
def State.when (s : State) (b : Bool) (f : State → State) : State := if b then f s else s

/-! Chain time and free values. -/

/-- Chain time in nanoseconds (R21). -/
def State.now (s : State) : Nat := s.time / 16

/-- One rc of chain time, in sixteenths of a nanosecond (R21). -/
abbrev rc16 : Nat := 10

/-- A free value of w bits; the next one differs. -/
def State.fresh (s : State) (w : Nat) : Nat × State :=
  ((Config.freeBits s.free).toNat % 2 ^ w, { s with free := s.free + 1 })

/-- Does Trifle's clock run: in Run, with no reset asserted, no resynchronisation pause and no Frost (R218, R414)? -/
def State.clocked (s : State) : Bool :=
  s.pwr.state == .run && s.pwr.asserted == 0 && s.rcv.paused.isNone && !s.isOn DBG_STAT.FROST

/-- How chain time and Trifle's clock have drifted apart after d further sixteenths of a tc: a free value, within one
sixteenth of a nanosecond and 25 ppm of the time that passes, and within 25 ppm and one tc since the reset (R7, R493). -/
def State.drift (s : State) (d : Nat) : Int × State :=
  let (x, t) := s.fresh 64
  let b := d / 40000 + 1
  let k : Int := s.tri.skew + (x % (2 * b + 1) : Nat) - b
  (if k.natAbs * 40000 ≤ s.tri.clk + d + 640000 then k else s.tri.skew, t)

/-- d sixteenths of a tc pass on Trifle's clock, and as much chain time but for the drift (R7). -/
def State.clkPass (s : State) (d : Nat) : State :=
  if d = 0 then s else
  let (k, t) := s.drift d
  { t with time := (s.time + d + (k - s.tri.skew)).toNat, tri.clk := s.tri.clk + d, tri.skew := k }

/-- d sixteenths of a nanosecond pass: on Trifle's clock too, if it runs, but for the drift (R7); under Frost chain time stands
still, and only the fabric counter runs on (R158, R358). -/
def State.pass (s : State) (d : Nat) : State :=
  if d = 0 then s
  else if s.isOn DBG_STAT.FROST then { s with chn.fabOff := s.chn.fabOff + d }
  else if s.clocked then
    let (k, t) := s.drift d
    { t with time := s.time + d, tri.clk := (s.tri.clk + d - (k - s.tri.skew)).toNat, tri.skew := k }
  else { s with time := s.time + d }

/-- What passes until chain time t, if it has not passed it. -/
def State.until (s : State) (t : Nat) : State := s.pass (t - s.time)

/-- Time in the fabric counter, which runs from REF, in sixteenths: no step of chain time and no Frost touches it (R358). -/
def State.fabNow (s : State) : Nat := (s.time + s.chn.fabOff).toNat

/-- REF's count in nanoseconds: what the intervals of the resets, the watchdogs, the links and the wire are counted in. -/
def State.refNow (s : State) : Nat := s.fabNow / 16

/-- What passes until the fabric counter reads t, if it has not passed it. -/
def State.fabUntil (s : State) (t : Nat) : State := s.pass (t - s.fabNow)

/-- CT, the copy of chain time in whole nanoseconds, which is 2 ns to 6 ns behind the master: a free value (R21). -/
def State.ctNow (s : State) : Nat × State :=
  let (x, t) := s.fresh 8
  ((s.time / 16) - (2 + x % 5), t)

/-- The block sends bytes at a port. -/
def State.send (s : State) (p : OutPort) (idx : Nat) (bs : List Byte) : State :=
  { s with out := s.out ++ [⟨p, idx, s.time, bs⟩] }

/-- The block answers. -/
def State.answer (s : State) (r : Resp) : State := { s with resp := r }

/-! Storage numbers. Trifle Local, Toffee, the Secure Store, the Schedule Store and Bulk stand at their physical
addresses of R23 (REMAP = 0); the Lattice stands by physical bank and row (R43); Archive records and the flash devices,
which have no physical address, stand above. -/

abbrev tLocalBase : Nat := 0x10000000
abbrev toffeeBase : Nat := 0x20000000
abbrev secureBase : Nat := 0x20010000
abbrev sstoreBase : Nat := 0x200000000
abbrev bulkBase : Nat := 0x800000000
abbrev bulkSpareBase : Nat := 0xFFFE00000
abbrev bulkEnd : Nat := 0x1000000000
abbrev latticeBase : Nat := 2 ^ 44
abbrev archiveBase : Nat := 2 ^ 46
abbrev flashBase : Nat := 2 ^ 47

/-- What an unlisted byte reads as: 0, and 0xFF in the flash devices. -/
def memDefault (a : Nat) : Byte := if flashBase ≤ a then 0xFF else 0

/-- One stored byte. -/
def State.byte (s : State) (a : Nat) : Byte := SMap.get memDefault s.mem a

/-- Store one byte. -/
def State.setByte (s : State) (a : Nat) (b : Byte) : State := { s with mem := SMap.set memDefault s.mem a b }

/-- n stored bytes from a. -/
def State.bytes (s : State) (a : Nat) : Nat → List Byte
  | 0 => []
  | n + 1 => s.byte a :: s.bytes (a + 1) n

/-- Store bytes from a, in one memory list. -/
def memPut (m : List Host.Cell) (a : Nat) : List Byte → List Host.Cell
  | [] => m
  | b :: t => memPut (SMap.set memDefault m a b) (a + 1) t

/-- Store bytes from a. -/
def State.setBytes (s : State) (a : Nat) (bs : List Byte) : State := { s with mem := memPut s.mem a bs }

/-- A stored little-endian number of n bytes (R5). -/
def State.num (s : State) (a n : Nat) : Nat := ofBytes (s.bytes a n)

/-- Store a number as n little-endian bytes. -/
def State.setNum (s : State) (a n v : Nat) : State := s.setBytes a (toBytes n v)

/-- Copy n storage bytes from a to b (the ranges do not overlap). -/
def copyRegion {α : Type} (m : List (Nat × α)) (a b n : Nat) : List (Nat × α) :=
  let moved := (m.filter (fun c => decide (a ≤ c.1) && decide (c.1 < a + n))).map (fun c => (c.1 - a + b, c.2))
  moved.foldl (fun acc c => SMap.insert c.1 c.2 acc) (SMap.clear m b (b + n))

/-- Every byte of [lo, hi) reads as the default again. -/
def State.wipeMem (s : State) (lo hi : Nat) : State := { s with mem := SMap.clear s.mem lo hi }

/-! Tags (R274). -/

/-- The tags of the 16-byte granules that a write of n bytes at a touches are cleared. -/
def State.clearTags (s : State) (a n : Nat) : State :=
  if n = 0 then s else { s with tags := s.tags.filter (fun g => decide (g < a / 16) || decide ((a + n - 1) / 16 < g)) }

/-- Is the granule at a tagged? -/
def State.tagged (s : State) (a : Nat) : Bool := s.tags.elem (a / 16)

/-- Tag the granule at a. -/
def State.setTag (s : State) (a : Nat) : State :=
  { s with tags := (s.tags.filter (· < a / 16)) ++ (a / 16) :: (s.tags.filter (a / 16 < ·)) }

/-! The (72,64) SECDED code (R65). A granule is named by its storage number divided by 8. -/

/-- What the decoder finds. -/
inductive Ecc where
  | ok | corrected | uncorrectable
deriving DecidableEq, Repr

/-- p(i): the position of data bit i. -/
def eccPos (i : Nat) : Nat :=
  if i < 1 then i + 3 else if i < 4 then i + 4 else if i < 11 then i + 5 else if i < 26 then i + 6
  else if i < 57 then i + 7 else i + 8

/-- The change of stored against recomputed check bits when bit i of the 72 is inverted. -/
def eccFlip (i : Nat) : Nat :=
  if i < 64 then eccPos i + 128 * ((1 + popcount 7 (eccPos i)) % 2) else 2 ^ (i - 64)

/-- The same for a whole pattern of inverted bits. -/
def eccMask (m : Nat) : Nat := (upto 72).foldl (fun acc i => if bitb m i then Nat.xor acc (eccFlip i) else acc) 0

/-- {e, s[6:0]} from the xor of stored and recomputed check bits. -/
def eccSynd (x : Nat) : Nat := x % 128 + 128 * (popcount 8 x % 2)

/-- The decoder's result for a syndrome {e, s[6:0]}. -/
def eccClass (y : Nat) : Ecc :=
  if y = 0 then .ok else if y < 128 then .uncorrectable else if 72 ≤ y % 128 then .uncorrectable else .corrected

/-- The data the decoder delivers. -/
def eccData (d y : Nat) : Nat :=
  if eccClass y = .corrected then
    match firstBelow 64 (fun i => eccPos i == y % 128) with
    | some i => Nat.xor d (2 ^ i)
    | none => d
  else d

/-- What the decoder delivers for granule g, and the syndrome. -/
def State.gran (s : State) (g : Nat) : Nat × Nat :=
  let x := (SMap.get (fun _ => (0 : BitVec 8)) s.syn g).toNat
  let d := s.num (8 * g) 8
  if x = 0 then (d, 0) else (eccData d (eccSynd x), eccSynd x)

/-- Invert stored bits of a granule. -/
def State.flipGran (s : State) (g : Nat) (m : BitVec 72) : State :=
  let x := SMap.get (fun _ => (0 : BitVec 8)) s.syn g
  { s.setNum (8 * g) 8 (Nat.xor (s.num (8 * g) 8) (m.toNat % 2 ^ 64)) with
    syn := SMap.set (fun _ => (0 : BitVec 8)) s.syn g (x ^^^ BitVec.ofNat 8 (eccMask m.toNat)) }

/-- A granule is written whole, with fresh check bits; lasting faults invert their bits again. -/
def State.putGran (s : State) (g d : Nat) : State :=
  let s1 := { s.setNum (8 * g) 8 d with syn := SMap.erase g s.syn }
  match SMap.get (fun _ => (0 : BitVec 72)) s.stuck g with
  | 0 => s1
  | m => s1.flipGran g m

/-- An upset of stored bits; a lasting one stays with the cells. -/
def State.upset (s : State) (u : Upset) : State :=
  let s1 := s.flipGran u.gran u.mask
  if u.lasting then
    { s1 with stuck := SMap.set (fun _ => (0 : BitVec 72)) s1.stuck u.gran (SMap.get (fun _ => 0) s1.stuck u.gran ||| u.mask) }
  else s1

/-- What the decoder found at a granule of an access: the granule, the syndrome, the data delivered. -/
structure GEv where
  gran : Nat
  synd : Nat
  data : Nat
deriving DecidableEq, Repr

def GEv.ue (e : GEv) : Bool := eccClass e.synd == .uncorrectable

/-- The pieces of a write by granule: (granule, first byte in it, bytes). -/
def granParts : Nat → Nat → List Byte → List (Nat × Nat × List Byte)
  | 0, _, _ => []
  | f + 1, a, bs => if bs = [] then [] else
    let k := min (8 - a % 8) bs.length
    (a / 8, a % 8, bs.take k) :: granParts f (a + k) (bs.drop k)

/-- Bytes off to off + k of a granule's data replaced. -/
def mergeGran (d off : Nat) (bs : List Byte) : Nat := setBits d (8 * (off + bs.length) - 1) (8 * off) (ofBytes bs)

/-- Write part of a granule: a whole granule is written; a part is merged with the decoded data, and an uncorrectable
granule stays as it is (R30, R51, R161). -/
def State.writePart (s : State) (p : Nat × Nat × List Byte) : State × List GEv :=
  if p.2.2.length = 8 then (s.putGran p.1 (ofBytes p.2.2), [])
  else
    let (d, y) := s.gran p.1
    if eccClass y = .uncorrectable then (s, [⟨p.1, y, d⟩])
    else (s.putGran p.1 (mergeGran d p.2.1 p.2.2), if y = 0 then [] else [⟨p.1, y, d⟩])

/-- Write bytes to a memory with stored check bits; the events of the merges. -/
def State.eccWrite (s : State) (a : Nat) (bs : List Byte) : State × List GEv :=
  (granParts bs.length a bs).foldl (fun acc p => let (s', e) := acc.1.writePart p; (s', acc.2 ++ e)) (s, [])

/-- The granules that n bytes from a touch. -/
def gransOf (a n : Nat) : List Nat := if n = 0 then [] else (upto ((a + n - 1) / 8 - a / 8 + 1)).map (· + a / 8)

/-- Read n bytes from a memory with stored check bits: the bytes delivered and what the decoder found. -/
def State.eccRead (s : State) (a n : Nat) : List Byte × List GEv :=
  let gs := (gransOf a n).map (fun g => let (d, y) := s.gran g; (⟨g, y, d⟩ : GEv))
  (((gs.flatMap (fun e => toBytes 8 e.data)).drop (a % 8)).take n, gs.filter (fun e => e.synd != 0))

/-! The Recovery Controller's event log (R214, R215) and reset requests. -/

/-- Record an event. -/
def State.rcLog (s : State) (code unit info arg : Nat) : State :=
  let h := s.rd RCV_LOG_HEAD.HEAD
  let w := s.now % 2 ^ 64 + 2 ^ 64 * (info % 2 ^ 20 + unit % 16 * 2 ^ 20 + code % 256 * 2 ^ 24) + 2 ^ 96 * (arg % 2 ^ 32)
  let s1 := { s with rcv.log := SMap.set (fun _ => (0 : BitVec 128)) s.rcv.log (h % 64) (BitVec.ofNat 128 w) }
  s1.bumpWrap RCV_LOG_HEAD.HEAD

/-- Raise the degrade source (R208). -/
def State.degrade (s : State) : State := s.on RCV_STAT.DEG

/-- A reset is called for: 1 core, 2 warm, 3 cold; its RST_CAUSE bit is set, and while a reset as wide is asserted it has no
other effect (R420, R424). In Dormant and Off requests are ignored (R417). -/
def State.callReset (s : State) (kind cause : Nat) : State :=
  if s.pwr.state = .off ∨ s.pwr.state = .dormant then s
  else { s.orBits RST_CAUSE.CAUSE (2 ^ cause) with
    pwr.req := if kind ≤ s.pwr.asserted then s.pwr.req else max s.pwr.req kind }

/-- Answer a next state. -/
def next (s : State) : Res := .next s

/-- Do the clocks run of the blocks that a core reset does not reach: in Run, with no wider reset asserted and no Frost (R125,
R158, R414, R422, R469)? -/
def State.live (s : State) : Bool := s.pwr.state == .run && decide (s.pwr.asserted ≤ 1) && !s.isOn DBG_STAT.FROST

/-- A unit does something while its clocks run; otherwise nothing happens. -/
def State.whileLive (s : State) (f : State → Res) : Res := if s.live then f s else next s

/-- Is a block paused under Freeze (R470), bit b of DBG_FREEZE, or by Frost? -/
def State.frozen (s : State) (b : Nat) : Bool :=
  s.isOn DBG_STAT.FROST || (s.isOn DBG_STAT.HALTED && s.isOn DBG_CTL.MODE && bitb (s.rd DBG_FREEZE.BLOCKS) b)

end Sys2Proof.Machine
end

