-- ==== Sys2Proof/Machine/Matrix.lean ====
section
/-! DEFINITION. Machine/Matrix.lean: the system matrix: what lies where (R23, R26), arbitration (R32 to R35), decode
errors and bus errors (R37 to R41). -/

namespace Sys2Proof.Machine

/-- What a physical address names (R23). Stored memories carry their storage number. -/
inductive Region where
  | bootRom (off : Nat)
  | tLocal (a : Nat)
  | toffee (a : Nat)
  | secure (a : Nat)
  | periph (bus : Nat)
  | lattice (off : Nat)
  | sstore (a : Nat)
  | bulk (a : Nat)
  | bulkSpare
  | unmapped
deriving DecidableEq, Repr

/-- The region of a physical address, with REMAP as given (R23, R24, R26). -/
def regionOf (remap : Bool) (a : Nat) : Region :=
  if a < 0x200000 then
    if remap then .tLocal (tLocalBase + a) else if a < 0x10000 then .bootRom a else .unmapped
  else if a < 0x10000000 then .unmapped
  else if a < 0x10200000 then
    if remap then (if a < 0x10010000 then .bootRom (a - 0x10000000) else .unmapped) else .tLocal a
  else if a < 0x20000000 then .unmapped
  else if a < 0x20001000 then .toffee a
  else if a < 0x20010000 then .unmapped
  else if a < 0x20020000 then .secure a
  else if a < 0x40000000 then .unmapped
  else if a < 0x40090000 then .periph 0
  else if a < 0x50000000 then .unmapped
  else if a < 0x50060000 then .periph 1
  else if a < 0x60000000 then .unmapped
  else if a < 0x60070000 then .periph 2
  else if a < 0x100000000 then .unmapped
  else if a < 0x106000000 then .lattice (a - 0x100000000)
  else if a < sstoreBase then .unmapped
  else if a < sstoreBase + 0x400000 then .sstore a
  else if a < bulkBase then .unmapped
  else if a < bulkSpareBase then .bulk a
  else if a < bulkEnd then .bulkSpare
  else .unmapped

/-- The region a matrix transaction reaches now. -/
def State.region (s : State) (a : Nat) : Region := regionOf (s.isOn XW_CTL.REMAP) a

/-- Does a reset of a kind reach the register page of an address (R422, and each page's own reach)? Kinds: 1 core, 2 warm, 3
cold, 4 Thaw, 5 line power-on. -/
def reachesPage (kind a : Nat) : Bool :=
  let p := a / 0x10000
  if p = 0x6003 then decide (4 ≤ kind)
  else if 3 ≤ kind then true
  else if kind = 2 then !(p == 0x4004 || p == 0x4006 || p == 0x4008 || p == 0x6000)
  else kind == 1 && (p == 0x4000 || p == 0x4005)

/-- Is a target held in reset, or, Bulk, in self-refresh for a warm reset (R31, R38, R422)? The page that times the reset is not. -/
def State.inReset (s : State) (a : Nat) : Bool :=
  let k := s.pwr.asserted
  match s.region a with
  | .periph _ => a / 0x10000 != 0x4000 && reachesPage k a
  | .lattice _ => decide (2 ≤ k)
  | .sstore _ => decide (2 ≤ k)
  | .bulk _ => decide (2 ≤ k)
  | .bulkSpare => decide (2 ≤ k)
  | .tLocal _ => decide (3 ≤ k)
  | .secure _ => decide (3 ≤ k)
  | _ => false

/-- The cluster of a master (R32). -/
def clusterOf (m : Nat) : Nat := if m < 2 then 0 else if m < 10 then 1 else if m < 13 then 2 else 3

/-- The target port of a transaction (R33): 0 to 7 Bulk, 8 to 15 Lattice, 16 the local memories, 17 the Schedule Store, 18
to 20 the peripheral buses. -/
def Region.port (r : Region) (a : Nat) : Option Nat :=
  match r with
  | .bulk _ => some (bits a 8 6)
  | .bulkSpare => some (bits a 8 6)
  | .lattice _ => some (8 + bits a 8 6)
  | .sstore _ => some 17
  | .periph b => some (18 + b)
  | .unmapped => none
  | _ => some 16

/-- One decision of a target port (R34): the weights and credits of clusters 0 to 3; the cluster granted and the credits
left. -/
def arbDecide (w : List Nat) (cr : List Int) : Nat × List Int :=
  let c1 := (upto 4).map (fun c => if w.getD c 0 = 0 then 0 else cr.getD c 0 + (w.getD c 0 : Int))
  let best := (upto 4).foldl (fun g c => if c1.getD g 0 < c1.getD c 0 then c else g) 0
  (best, c1.set best (c1.getD best 0 - (w.foldl (· + ·) 0 : Nat)))

/-- The masters of a cluster among those that request. -/
def ofCluster (ms : List Nat) (c : Nat) : List Nat := ms.filter (fun m => clusterOf m == c)

/-- The round robin of a cluster (R34): the least requesting master from `start` on, or else the least of all. -/
def robin (ms : List Nat) (start : Nat) : Nat :=
  match firstBelow 14 (fun m => decide (start ≤ m) && ms.elem m) with
  | some m => m
  | none => (firstBelow 14 (fun m => ms.elem m)).getD 0

/-- One decision of a target port among the masters that request it: the master granted (R34). -/
def State.arbOnce (s : State) (port : Nat) (ms : List Nat) : Nat × State :=
  let cr := (upto 4).map (fun c => SMap.get (fun _ => (0 : Int)) s.credit (4 * port + c))
  let (g, cr') := arbDecide ((upto 4).map (fun c => (ofCluster ms c).length)) cr
  let m := robin (ofCluster ms g) (SMap.get (fun _ => 0) s.xw.turn (4 * port + g))
  (m, { s with
    credit := (upto 4).foldl (fun l c => SMap.set (fun _ => (0 : Int)) l (4 * port + c) (cr'.getD c 0)) s.credit
    xw.turn := SMap.set (fun _ => 0) s.xw.turn (4 * port + g) (m + 1) })

/-- The decisions of a port, among masters that all keep requesting, up to the one that grants m, at most f of them (R34,
R35). -/
def State.arbUntil (s : State) (port m : Nat) (ms : List Nat) : Nat → State
  | 0 => s
  | f + 1 => let (g, t) := s.arbOnce port ms; if g = m then t else t.arbUntil port m ms f

/-- A transaction of master m reaches its port, when its address is mapped, beside the requests of other masters for that
port (R34, R37). -/
def State.toPortAmong (s : State) (m a : Nat) (rivals : List Nat) : State :=
  match (s.region a).port a with
  | some p => s.arbUntil p m (m :: rivals.filter (fun x => x != m && decide (x < 14))).eraseDups 28
  | none => s

/-- A lone transaction reaches its port. -/
def State.toPort (s : State) (m a : Nat) : State := s.toPortAmong m a []

/-- The errors noted are those of the present tc. -/
def State.thisTc (s : State) : State :=
  if s.xw.tc = s.now then s else { s with xw := { s.xw with tc := s.now, derrs := [], logged := false, berrs := 0 } }

/-- The log of decode errors takes one (R37, R41). -/
def State.derrLog (s : State) (m a : Nat) (write ovf : Bool) : State :=
  ((((s.wr2 XW_DERR_ADDR_LO.ADDR_LO XW_DERR_ADDR_HI.ADDR_HI a).on XW_DERR_INFO.VALID).put XW_DERR_INFO.OVF ovf).put
    XW_DERR_INFO.WRITE write).wr XW_DERR_INFO.MASTER m

/-- A decode error is counted and logged (R37): of several in one tc the lowest master's is the one logged, if VALID was 0,
and the others set OVF (R40). -/
def State.decodeErr (s : State) (m a : Nat) (write : Bool) : State :=
  let s := (s.bump XW_DERR_CNT.COUNT).thisTc
  let s := { s with xw.derrs := s.xw.derrs ++ [(m, a, write)] }
  if !s.isOn XW_DERR_INFO.VALID then { s.derrLog m a write false with xw.logged := true }
  else if s.xw.logged && decide (m < s.rd XW_DERR_INFO.MASTER) then s.derrLog m a write true
  else s.on XW_DERR_INFO.OVF

/-- The least master's error of a list. -/
def leastErr : List (Nat × Nat × Bool) → Option (Nat × Nat × Bool)
  | [] => none
  | e :: t => match leastErr t with
    | none => some e
    | some x => if x.1 < e.1 then some x else some e

/-- VALID is written 1 (R40, R41): it and OVF clear, unless an error fell in the same tc, which the log then holds. -/
def State.derrClear (s : State) : State :=
  let s := s.thisTc
  match leastErr s.xw.derrs with
  | none => (s.off XW_DERR_INFO.VALID).off XW_DERR_INFO.OVF
  | some (m, a, w) => { s.derrLog m a w (decide (1 < s.xw.derrs.length)) with xw.logged := true }

/-- A bus error is counted (R38). -/
def State.busErr (s : State) : State :=
  let s := (s.bump XW_BERR_CNT.COUNT).thisTc
  { s with xw.berrs := s.xw.berrs + 1 }

/-- A write of an XW_ register's count adds the errors of the same tc (R41). -/
def State.countWrite (s : State) (f : Fld) (v n : Nat) : State := (s.wr f v).gain f n

/-- A transaction moves 1 to 64 bytes and crosses no 64 B boundary (R33). -/
def transactionOk (a n : Nat) : Bool := decide (0 < n) && decide (a % 64 + n ≤ 64)

end Sys2Proof.Machine
end

