-- ==== Sys2Proof/Machine/Bulk.lean ====
section
/-! DEFINITION. Machine/Bulk.lean: the Bulk controller (R28 to R31, R499): redirected pages, correction, re-reads, page
retirement; the commands BULK_ACCESS and BULK_RE_READ. -/

namespace Sys2Proof.Machine

/-- Do n bytes from a lie in usable Bulk (R23)? -/
def inBulk (a n : Nat) : Bool := decide (bulkBase ≤ a) && decide (a + n ≤ bulkSpareBase)

/-- Where a Bulk address is stored, after redirection of its page (R30). -/
def State.bulkAt (s : State) (a : Nat) : Nat :=
  match s.bulk.redir.find? (fun r => r.1 == (a - bulkBase) / 4096) with
  | some r => bulkSpareBase + r.2 * 4096 + a % 4096
  | none => a

/-- Retire the 4 KiB page of a Bulk address: copy it (what the
decoder delivers; uncorrectable granules with their stored bits, log entry 26) into the next free spare page and redirect
it; with the spare area full the retirement fails and is reported (R30). -/
def State.retirePage (s : State) (a : Nat) : State :=
  let page := (a - bulkBase) / 4096
  if s.bulk.nextFree < 512 then
    let src := s.bulkAt (bulkBase + page * 4096)
    let dst := bulkSpareBase + s.bulk.nextFree * 4096
    let t := { s with
      mem := copyRegion s.mem src dst 4096
      syn := copyRegion s.syn (src / 8) (dst / 8) 512
      bulk.redir := (page, s.bulk.nextFree) :: s.bulk.redir
      bulk.nextFree := s.bulk.nextFree + 1 }
    let marked := t.syn.filter (fun c => decide (dst / 8 ≤ c.1) && decide (c.1 < dst / 8 + 512))
    marked.foldl (fun u c => let (d, y) := u.gran c.1; if eccClass y = .corrected then u.putGran c.1 d else u) t
  else (s.rcLog 0x22 0 0 page).degrade

/-- A corrected granule is written back and awaits its re-read (R30). -/
def State.bulkFix (s : State) (e : GEv) : State :=
  let s := s.putGran e.gran e.data
  { s with bulk.reread := if s.bulk.reread.elem e.gran then s.bulk.reread else s.bulk.reread ++ [e.gran] }

/-- Remember an uncorrectable granule by its Bulk address. -/
def State.bulkNoteUe (s : State) (g : Nat) : State :=
  { s with bulk.ueGran := if s.bulk.ueGran.elem g then s.bulk.ueGran else s.bulk.ueGran ++ [g] }

/-- Read n bytes of one Bulk transaction: the bytes, or none for a bus error (R30, R38). -/
def State.bulkRead (s : State) (a n : Nat) : Option (List Byte) × State :=
  if !inBulk a n then (none, s) else
  let p := s.bulkAt a
  let (bs, evs) := s.eccRead p n
  let s1 := (evs.filter (fun e => !e.ue)).foldl State.bulkFix s
  let bad := evs.filter GEv.ue
  let s2 := bad.foldl (fun t e => t.bulkNoteUe (a / 4096 * 512 + e.gran % 512)) s1
  (if bad = [] then some bs else none, s2)

/-- The pages to retire once a write has rewritten granules found uncorrectable: a page whose last such granule it was. -/
def State.bulkRewritten (s : State) (a n : Nat) : State :=
  let whole := (gransOf a n).filter (fun g => decide (a ≤ 8 * g) && decide (8 * g + 8 ≤ a + n))
  let hit := s.bulk.ueGran.any (fun g => whole.elem g)
  let left := s.bulk.ueGran.filter (fun g => !whole.elem g)
  let s1 := { s with bulk.ueGran := left }
  if hit && !(left.any (fun g => g / 512 == a / 4096)) then s1.retirePage a else s1

/-- Write one Bulk transaction; false for a bus error, which leaves Bulk unchanged (R30, R38). -/
def State.bulkWrite (s : State) (a : Nat) (bs : List Byte) : Bool × State :=
  if !inBulk a bs.length then (false, s) else
  let p := s.bulkAt a
  let (s1, evs) := s.eccWrite p bs
  let bad := evs.filter GEv.ue
  if bad = [] then
    let s2 := evs.foldl (fun t e =>
      { t with bulk.reread := if t.bulk.reread.elem e.gran then t.bulk.reread else t.bulk.reread ++ [e.gran] }) s1
    (true, (s2.bulkRewritten a bs.length).clearTags a bs.length)
  else (false, bad.foldl (fun t e => t.bulkNoteUe (a / 4096 * 512 + e.gran % 512)) s)

/-- BULK_ACCESS (R499, R30, R38): one granted transaction, after the upsets given. -/
def execBulkAccess (asker : Asker) (write : Bool) (addr : BitVec 40) (len : Fin 65) (data : List Byte)
    (upsets : List Upset) (s : State) : Res :=
  let s := upsets.foldl State.upset s
  let a := addr.toNat
  let n := if write then data.length else len.val
  if !transactionOk a n then next s
  else match s.region a with
  | .bulkSpare => next ((s.toPortAmong asker.master a (asker.rivals.map (·.val))).busErr.answer .busError)
  | .bulk _ =>
    let s := s.toPortAmong asker.master a (asker.rivals.map (·.val))
    if s.inReset a then next (s.busErr.answer .busError)
    else if write then
      match s.bulkWrite a data with
      | (true, s') => next (s'.answer .done)
      | (false, s') => next (s'.busErr.answer .busError)
    else
      match s.bulkRead a n with
      | (some bs, s') => next (s'.answer (.data bs))
      | (none, s') => next (s'.busErr.answer .busError)
  | _ => next s

/-- BULK_RE_READ (R30): the re-read of a granule written back: any error is lasting and retires the page. -/
def execBulkReRead (addr : BitVec 40) (s : State) : Res := s.whileLive fun s =>
  let a := addr.toNat
  let g := s.bulkAt a / 8
  if s.bulk.reread.elem g then
    let s1 := { s with bulk.reread := s.bulk.reread.erase g }
    let (_, y) := s1.gran g
    next (if y = 0 then s1 else s1.retirePage a)
  else next s

end Sys2Proof.Machine
end

