-- ==== Sys2Proof/Machine/QueueCore.lean ====
section
/-! DEFINITION. Machine/QueueCore.lean: the queue engine's operations on descriptors and rings in Bulk (R323 to R331). -/

namespace Sys2Proof.Machine

def QDesc.ring (d : QDesc) : Nat := bits d.dw0 28 0
def QDesc.n (d : QDesc) : Nat := 2 ^ bits d.dw0 35 32
def QDesc.ngrp (d : QDesc) : Nat := bits d.dw0 41 40
def QDesc.enable (d : QDesc) : Bool := bitb d.dw0 42
def QDesc.head (d : QDesc) : Nat := bits d.dw1 15 0
def QDesc.depth (d : QDesc) : Nat := bits d.dw1 32 16
def QDesc.stalled (d : QDesc) : Bool := bitb d.dw1 33
def QDesc.thresh (d : QDesc) : Nat := bits d.dw2 16 0
def QDesc.age (d : QDesc) : Nat := bits d.dw2 47 32

/-- The address of slot k of a ring. -/
def QDesc.slotAddr (d : QDesc) (k : Nat) : Nat := bulkBase + 64 * (d.ring + k)

/-- Does a descriptor obey R323? -/
def QDesc.ok (d : QDesc) : Bool :=
  bits d.dw0 31 29 == 0 && bits d.dw0 39 36 == 0 && bits d.dw0 63 43 == 0 && bits d.dw1 63 34 == 0 &&
  bits d.dw2 31 17 == 0 && bits d.dw2 63 48 == 0 &&
  decide (4 ≤ bits d.dw0 35 32) && decide (bits d.dw0 35 32 ≤ 16) &&
  decide (d.head < d.n) && decide (d.depth ≤ d.n) && decide (d.thresh ≤ d.n) &&
  decide (d.slotAddr 0 + 64 * d.n ≤ bulkSpareBase)

/-- The address of the descriptor of queue q (R323). -/
def State.queDescAddr (s : State) (q : Nat) : Nat :=
  s.rd QUE_DBASE_LO.ADDR_LO * 2 ^ 25 + s.rd QUE_DBASE_HI.ADDR_HI * 2 ^ 32 + 32 * q

/-- Four doublewords from 32 bytes. -/
def qdescOf (bs : List Byte) : QDesc :=
  ⟨ofBytes (bs.take 8), ofBytes ((bs.drop 8).take 8), ofBytes ((bs.drop 16).take 8), ofBytes ((bs.drop 24).take 8)⟩

def QDesc.bytes (d : QDesc) : List Byte := toBytes 8 d.dw0 ++ toBytes 8 d.dw1 ++ toBytes 8 d.dw2 ++ toBytes 8 d.dw3

/-- An engine access to Bulk fails: BUSERR, and the log (R335). -/
def State.queLog (s : State) (kind path q : Nat) : State :=
  if s.isOn QUE_ERRINFO.VALID then s.on QUE_ERRINFO.OVF
  else s.wrReg QUE_ERRINFO.addr (q % 2 ^ 20 + path * 2 ^ 25 + kind * 2 ^ 28 + 2 ^ 31)

def State.queBusErr (s : State) (path q : Nat) : State := (s.busErr.on QUE_STAT.BUSERR).queLog 2 path q

/-- A descriptor is cached as the most recently used; the least recently used unpinned one is replaced (R324). -/
def State.queTouch (s : State) (q : Nat) (d : QDesc) : State :=
  let c := s.que.cache.filter (fun x => x.1 != q)
  let c := if c.length < 4096 then c
    else match c.find? (fun x => !(s.que.pinned.elem x.1)) with
      | some x => c.erase x
      | none => c
  { s with que.cache := c ++ [(q, d)] }

/-- A descriptor leaves the cache. -/
def State.queEvict (s : State) (q : Nat) : State := { s with que.cache := s.que.cache.filter (fun x => x.1 != q) }

/-- The descriptor of an attached queue: from the cache, or by one 32-byte Bulk read (R324). -/
def State.queGet (s : State) (q : Nat) : Option QDesc × State :=
  match s.que.cache.find? (fun x => x.1 == q) with
  | some x => (some x.2, s.queTouch q x.2)
  | none =>
    let a := s.queDescAddr q
    match ((s.bump QUE_MISS_CNT.COUNT).toPort 12 a).bulkRead a 32 with
    | (some bs, t) => (some (qdescOf bs), t.queTouch q (qdescOf bs))
    | (none, t) => (none, t)

/-- The descriptor write, the commit point: to Bulk, and into the cache (R324). -/
def State.quePut (s : State) (q : Nat) (d : QDesc) : Bool × State :=
  match (s.toPort 12 (s.queDescAddr q)).bulkWrite (s.queDescAddr q) d.bytes with
  | (true, t) => (true, t.queTouch q d)
  | (false, t) => (false, t)

/-- Pin or unpin a queue by its age limit and depth (R329). -/
def State.quePin (s : State) (q : Nat) (d : QDesc) : State :=
  if d.age != 0 && d.depth != 0 then
    if s.que.pinned.elem q then s
    else if s.que.pinned.length < 2048 then { s with que.pinned := s.que.pinned ++ [q] }
    else s.on QUE_STAT.PINFULL
  else { s with que.pinned := s.que.pinned.filter (· != q) }

/-- Push a queue number into notification FIFO f (R327). -/
def State.queNotify (s : State) (f q : Nat) : State :=
  if (s.que.notes.filter (fun p => p.1 == f)).length < 64 then { s with que.notes := s.que.notes ++ [(f, q)] }
  else { s with que.noteOvf := if s.que.noteOvf.elem f then s.que.noteOvf else f :: s.que.noteOvf }

/-- Answer every registration of a queue whose depth is met (R328). -/
def State.queAnswer (s : State) (q : Nat) (d : QDesc) : State :=
  if max d.thresh 1 ≤ d.depth then
    { s with
      que.answers := s.que.answers ++ (s.que.asks.filter (fun p => p.2 == q)).map (·.1)
      que.asks := s.que.asks.filter (fun p => p.2 != q) }
  else s

/-- Results of an operation (R335). -/
inductive QRes where
  | ok | full | empty | offline | baddesc | busError
deriving DecidableEq, Repr

def QRes.code : QRes → Nat
  | .ok => 0 | .full => 1 | .empty => 2 | .offline => 3 | .baddesc => 4 | .busError => 0

/-- The descriptor of a queue that accepts operations, or why not (R326). -/
def State.queOpen (s : State) (path q : Nat) : Except (QRes × Nat) QDesc × State :=
  if !s.isOn QUE_CTL.EN || !(s.que.attached.elem q) then (.error (.offline, 0), s)
  else match s.queGet q with
  | (none, t) => (.error (.busError, 0), t.queBusErr path q)
  | (some d, t) => if d.enable then (.ok d, t) else (.error (.offline, d.depth), t)

/-- Replace DEPTH, HEAD, and at progress PROG and STALLED (R323, R329). -/
def State.qstep (s : State) (d : QDesc) (head depth : Nat) (progress : Bool) : QDesc :=
  let dw1 := setBits (setBits d.dw1 15 0 head) 32 16 depth
  if progress then { d with dw1 := setBits dw1 33 33 0, dw3 := s.now % 2 ^ 64 } else { d with dw1 := dw1 }

/-- ENQ (R326, R327): the result, DEPTH after it, and the state. -/
def State.queEnq (s : State) (path q : Nat) (msg : List Byte) : QRes × Nat × State :=
  match s.queOpen path q with
  | (.error (r, k), t) => (r, k, t)
  | (.ok d, t) =>
    if d.n ≤ d.depth then (.full, d.depth, t)
    else
      let a := d.slotAddr ((d.head + d.depth) % d.n)
      match (t.toPort 12 a).bulkWrite a msg with
      | (false, t1) => (.busError, d.depth, t1.queBusErr path q)
      | (true, t1) =>
        let d' := t1.qstep d d.head (d.depth + 1) (d.depth == 0)
        match t1.quePut q d' with
        | (false, t2) => (.busError, d.depth, t2.queBusErr path q)
        | (true, t2) =>
          let t3 := (t2.bump QUE_OPS_CNT.COUNT).quePin q d'
          let t4 := t3.when (decide (1 ≤ d.thresh) && d'.depth == d.thresh && decide (1 ≤ d.ngrp))
            (fun u => u.queNotify (d.ngrp - 1) q)
          (.ok, d'.depth, t4.queAnswer q d')

/-- DEQ and DROP (R326): the result, DEPTH after it, the entry taken (DEQ), and the state. -/
def State.queDeq (s : State) (path q : Nat) (copy : Bool) : QRes × Nat × List Byte × State :=
  match s.queOpen path q with
  | (.error (r, k), t) => (r, k, [], t)
  | (.ok d, t) =>
    if d.depth = 0 then (.empty, 0, [], t)
    else
      let a := d.slotAddr (d.head % d.n)
      let (entry, t1) := if copy then (t.toPort 12 a).bulkRead a 64 else (some [], t)
      match entry with
      | none => (.busError, d.depth, [], t1.queBusErr path q)
      | some bs =>
        let d' := t1.qstep d ((d.head + 1) % d.n) (d.depth - 1) true
        match t1.quePut q d' with
        | (false, t2) => (.busError, d.depth, [], t2.queBusErr path q)
        | (true, t2) => (.ok, d'.depth, bs, (t2.bump QUE_OPS_CNT.COUNT).quePin q d')

/-- A QSINK or chain message: one that finds the queue full or offline is dropped, counted and logged (R326). -/
def State.queMessage (s : State) (path q : Nat) (msg : List Byte) : Bool × State :=
  match s.queEnq path q msg with
  | (.ok, _, t) => (true, t)
  | (.full, _, t) => (false, (t.bump QUE_DROP_CNT.COUNT).queLog 0 path q)
  | (.busError, _, t) => (false, t)
  | (_, _, t) => (false, (t.bump QUE_DROP_CNT.COUNT).queLog 1 path q)

/-- The sequencer arms a soft entry: the engine records its registration and answers at once when the depth is met
(R328). The registration of a queue that is offline, or whose descriptor cannot be read, stays until an ENQ answers it. -/
def State.queAsk (s : State) (entry q : Nat) : State :=
  let s := { s with que.asks := (s.que.asks.filter (fun p => p.1 != entry)) ++ [(entry, q)] }
  if s.isOn QUE_CTL.EN && s.que.attached.elem q then
    match s.queGet q with
    | (some d, t) =>
      if max d.thresh 1 ≤ d.depth then
        { t with que.asks := t.que.asks.filter (fun p => p.1 != entry), que.answers := t.que.answers ++ [entry] }
      else t
    | (none, t) => t.queBusErr 0 q
  else s

/-- A cancel removes the registration without an answer (R328). -/
def State.queUnask (s : State) (entry : Nat) : State :=
  { s with que.asks := s.que.asks.filter (fun p => p.1 != entry), que.answers := s.que.answers.filter (· != entry) }

end Sys2Proof.Machine
end

