-- ==== Sys2Proof/Machine/SchedBase.lean ====
section
/-! DEFINITION. Machine/SchedBase.lean: what the sequencer records when others act: breaches (R181), soft-entry states
(R174), the active schedule buffer (R159, R162), the round number (R153). -/

namespace Sys2Proof.Machine

abbrev schStopped : Nat := 0
abbrev schCheck : Nat := 1
abbrev schStart : Nat := 2
abbrev schRunning : Nat := 3
abbrev schStopping : Nat := 4

/-- Is the sequencer in the state given (R156)? -/
def State.schIs (s : State) (st : Nat) : Bool := s.rd SCH_STAT.STATE == st

/-- A schedule is active: the sequencer runs a buffer that has passed its check (R156, R187). -/
def State.schActive (s : State) : Bool := s.schIs schStart || s.schIs schRunning || s.schIs schStopping

/-- The round length in sixteenths of a nanosecond: 125 × RL ns, and 31.25 µs before any schedule has run (R153, R210). -/
def State.roundLen (s : State) : Nat := if s.rd SCH_STAT.RL = 0 then 500000 else 2000 * s.rd SCH_STAT.RL

/-- The round number as SCH_ROUND holds it (R187). -/
def State.roundNo (s : State) : Nat := s.rd2 SCH_ROUND_LO.ROUND SCH_ROUND_HI.ROUND

/-- Chain time at the start of the rc in hand: round boundaries, and so the rc, fall on whole multiples of an rc (R22, R153). -/
def State.rcStart (s : State) : Nat := s.time / rc16 * rc16

/-- rc since the most recent round boundary (R154). -/
def State.rcr (s : State) : Nat := (s.time - s.sch.roundStart) / rc16

/-- Record a breach (R181): counted, and the first one logged with its rcr and instruction index. Of breaches of one rc the lowest
CAUSE is the one logged (R187); another of that rc counts as a further one (log entry 82). -/
def State.breach (s : State) (cause : Nat) : State :=
  let s := s.bump SCH_BREACH_CNT.COUNT
  let log (s : State) : State :=
    { ((s.wr SCH_BREACH_INFO.CAUSE cause).wr SCH_BREACH_INFO.RCR s.rcr).wr SCH_BREACH_PC.PC (s.rd SCH_PC.PC) with
      sch.breachRc := s.time / rc16 }
  if !s.isOn SCH_BREACH_INFO.VALID then (log (s.on SCH_BREACH_INFO.VALID)).off SCH_BREACH_INFO.OVF
  else
    (s.when (s.sch.breachRc == s.time / rc16 && decide (cause < s.rd SCH_BREACH_INFO.CAUSE)) log).on SCH_BREACH_INFO.OVF

/-- The storage number of word k of a Schedule Store buffer (R159). -/
def schWordAt (buf k : Nat) : Nat := sstoreBase + buf * 0x200000 + 8 * k

/-- Word k of a buffer as the decoder delivers it, with the syndrome (R161). -/
def State.schWord (s : State) (buf k : Nat) : Nat × Nat := s.gran (schWordAt buf k / 8)

/-- Soft entry e (64 × list + entry) of the active schedule (R162, R173). -/
def State.softEntry (s : State) (e : Nat) : Nat := (s.schWord (s.rd SCH_STAT.ACT) (8 + e)).1

def entryChain (w : Nat) : Nat := bits w 11 0
def entryKind (w : Nat) : Nat := bits w 15 12
def entryRearm (w : Nat) : Bool := bitb w 16
def entryArmInit (w : Nat) : Bool := bitb w 17
def entryQueue (w : Nat) : Nat := bits w 39 20
def entryOffset (w : Nat) : Nat := bits w 35 20
def entryPeriod (w : Nat) : Nat := bits w 55 40

abbrev kindPeriodic : Nat := 1
abbrev kindQueue : Nat := 2
abbrev kindSoftware : Nat := 3

abbrev softIdle : Nat := 0
abbrev softArmed : Nat := 1
abbrev softReady : Nat := 2
abbrev softRunning : Nat := 3

/-- The state of a soft entry (R174). -/
def State.softState (s : State) (e : Nat) : Nat := SMap.get (fun _ => 0) s.sch.soft e

/-- A soft entry takes a state. -/
def State.softPut (s : State) (e st : Nat) : State := { s with sch.soft := SMap.set (fun _ => 0) s.sch.soft e st }

/-- Arm a soft entry (R174, R176): a SOFTWARE entry becomes READY, a QUEUE entry ARMED and its queue is asked. -/
def State.softArm (s : State) (e : Nat) : State :=
  let w := s.softEntry e
  if s.softState e != softIdle then s
  else if entryKind w = kindSoftware then s.softPut e softReady
  else if entryKind w = kindQueue then (s.softPut e softArmed).queAsk e (entryQueue w)
  else s

/-- A RUNNING entry's chain has stopped (R174, R178): on completion it goes to IDLE, or to ARMED with REARM; at a slot
end, preemption or mismatch to READY; on a fault or refusal to IDLE; a pending cancel sends it to IDLE. -/
def State.softStopped (s : State) (e : Nat) (endCode : Nat) : State :=
  let w := s.softEntry e
  let cancelled := s.sch.cancels.elem e
  let s := { s with sch.cancels := s.sch.cancels.filter (· != e) }
  if cancelled then s.softPut e softIdle
  else if endCode = 1 then
    let s := s.softPut e softIdle
    if entryKind w = kindQueue && entryRearm w then s.softArm e else s
  else if endCode = 3 then s.softPut e softReady
  else if endCode = 4 then
    { s.softPut e softReady with sch.retryNext := if s.sch.retryNext.elem e then s.sch.retryNext else e :: s.sch.retryNext }
  else s.softPut e softIdle

/-- A hard chain that ran as DUPLEX ended in a mismatch: it joins the retry queue (R179). -/
def State.retryPush (s : State) (chain strands : Nat) : State :=
  if s.sch.retryq.length < 16 then { s with sch.retryq := s.sch.retryq ++ [(chain, strands)] } else s.breach 7

end Sys2Proof.Machine
end

