-- ==== Sys2Proof/Machine/Icu.lean ====
section
/-! DEFINITION. Machine/Icu.lean: the source lines (R305), the interrupt controller (R306 to R309), the Always-on
Watcher's slots (R310, R311) and the mailbox channels (R312 to R322). -/

namespace Sys2Proof.Machine

/-- What a camera port holds beyond its registers. -/
def State.cam1 (s : State) (n : Nat) : CamPort := SMap.get (fun _ => CamPort.idle) s.cam.ports n

/-- The code of the endpoint of a matrix master (R313): TRIFLE 0, CHAIN 1, ARCHIVE 2, SCHED 3. -/
def endpointOf (m : Nat) : Option Nat :=
  if m < 2 then some 0 else if m = 10 then some 1 else if m = 11 then some 2 else if m = 13 then some 3 else none

/-- The receive line of a channel (R318). -/
def State.mbxReceive (s : State) (n : Nat) : Bool :=
  (s.isOn (MBX_STAT.FULL n) && !s.isOn (MBX_STAT.FMASK n)) ||
  Nat.land (s.rd (MBX_DB.DB n)) (2 ^ 32 - 1 - s.rd (MBX_DBMASK.MASK n)) != 0

/-- The level of the line of source n (R305 and the rules it names); false for a source without a line. -/
def State.sourceLine (s : State) (n : Nat) : Bool :=
  if n < 64 then Nat.land (s.rdReg (FLD_IRQ.addr n)) (s.rd (FLD_IRQ_EN.EN n)) != 0
  else if n < 72 then
    let c := n - 64
    ((s.cam1 c).fifo != [] && s.isOn (CAM_CTL.DONE_IE c)) ||
    (bits (s.rdReg (CAM_STAT.addr c)) 6 1 != 0 && s.isOn (CAM_CTL.ERR_IE c))
  else if n < 80 then
    let m := n - 72
    (s.isOn (MV_STAT.DONE m) || s.isOn (MV_STAT.ERR m)) && s.isOn (MV_CTL.IE m)
  else if n < 96 then bitb s.icu.marks (n - 80)
  else if n = 96 then s.rib.done != [] && s.isOn RIB_CTL.DONE_IE
  else if n = 97 then s.isOn RIB_FAULT_INFO.VALID && s.isOn RIB_CTL.FAULT_IE
  else if n = 98 then s.isOn RIB_VOTE_INFO.VALID && s.isOn RIB_CTL.VOTE_IE
  else if n = 99 then s.isOn SCH_BREACH_INFO.VALID && s.isOn SCH_CTL.BREACH_IE
  else if n < 164 then
    let c := n - 100
    (s.mbxReceive c && s.rd (MBX_CFG.RECEIVER c) == 0) ||
    (s.isOn (MBX_STAT.EMPTY c) && s.rd (MBX_CFG.SENDER c) == 0)
  else if n = 164 then s.que.stalls != [] && s.isOn QUE_CTL.STALL_IE
  else if n = 165 then s.isOn QUE_ERRINFO.VALID && s.isOn QUE_CTL.ERR_IE
  else if n < 169 then s.que.notes.any (fun p => p.1 == n - 166) && bitb (s.rd QUE_CTL.NOTE_IE) (n - 166)
  else if n < 180 then false
  else if n < 184 then
    let on := Nat.land (s.rdReg CHN_IRQ.addr) (s.rd CHN_IRQ_EN.EN)
    if n = 180 then Nat.land on 0x03 != 0 else if n = 181 then Nat.land on 0x0C != 0
    else if n = 182 then bitb on 4 else Nat.land on 0x60 != 0
  else if n < 188 then bitb (Nat.land (s.rdReg ARC_IRQ.addr) (s.rd ARC_IRQ_EN.EN)) (n - 184)
  else if n = 188 then s.rd RCV_LOG_HEAD.HEAD != s.rd RCV_LOG_TAIL.TAIL && s.isOn RCV_CTL.LOG_IE
  else if n = 189 then s.isOn RCV_STAT.DEG && s.isOn RCV_CTL.DEG_IE
  else if n = 190 then
    s.isOn LAT_ECC_INFO.VALID && (if s.isOn LAT_ECC_INFO.UE then s.isOn LAT_CTL.UE_IE else s.isOn LAT_CTL.CE_IE)
  else if n = 191 then s.isOn XW_DERR_INFO.VALID && s.isOn XW_CTL.DERR_IE
  else false

/-- Is source n allocated (R305)? -/
def sourceOk (n : Nat) : Bool :=
  decide (n < 80) || (decide (80 ≤ n) && decide (n < 169)) || (decide (180 ≤ n) && decide (n < 192)) ||
  (decide (200 ≤ n) && decide (n < 216))

/-- Is source n a level source (R305)? -/
def sourceLevel (n : Nat) : Bool := sourceOk n && !(decide (80 ≤ n) && decide (n < 96)) && decide (n < 192)

/-- Bit n of an array of 32-bit registers. -/
def State.srcBit (s : State) (f : Nat → Fld) (n : Nat) : Bool := bitb (s.rd (f (n / 32))) (n % 32)

/-- Set bit n of an array of 32-bit registers. -/
def State.srcSet (s : State) (f : Nat → Fld) (n : Nat) : State := s.orBits (f (n / 32)) (2 ^ (n % 32))

/-- Clear bit n of an array of 32-bit registers. -/
def State.srcClear (s : State) (f : Nat → Fld) (n : Nat) : State := s.clearBits (f (n / 32)) (2 ^ (n % 32))

/-- The allocated sources among 32k to 32k + 31, as a mask (R305). -/
def sourceMask (k : Nat) : Nat := (upto 32).foldl (fun m b => m + b2n (sourceOk (32 * k + b)) * 2 ^ b) 0

/-- Set the pending bit of source n (R306). -/
def State.setPend (s : State) (n : Nat) : State := if sourceOk n then s.srcSet ICU_PEND.PEND n else s

/-- The priority of source n. -/
def State.srcPrio (s : State) (n : Nat) : Nat :=
  bits (s.rd (ICU_PRIO.PRIO (n / 8))) (4 * (n % 8) + 3) (4 * (n % 8))

/-- The sources that are pending, enabled and not active. -/
def State.candidates (s : State) : List Nat :=
  (upto 16).flatMap (fun k =>
    let m := Nat.land (s.rd (ICU_PEND.PEND k)) (Nat.land (s.rd (ICU_EN.EN k)) (2 ^ 32 - 1 - s.rd (ICU_ACTIVE.ACTIVE k)))
    if m = 0 then [] else ((upto 32).filter (bitb m)).map (· + 32 * k))

/-- The source presented to Trifle, with its priority (R307): the highest priority, then the lower number. -/
def State.present (s : State) : Option (Nat × Nat) :=
  s.candidates.foldl (fun best n =>
    match best with
    | some (_, p) => if p < s.srcPrio n then some (n, s.srcPrio n) else best
    | none => some (n, s.srcPrio n)) none

/-- Acknowledgement (R308). -/
def State.ackSource (s : State) (n : Nat) : State := (s.srcClear ICU_PEND.PEND n).srcSet ICU_ACTIVE.ACTIVE n

/-- The controller's synchroniser finds the line of source n high or low (R18, R306). -/
def State.seeLine (s : State) (n : Nat) (high : Bool) : State := { s with icu.seen := setBits s.icu.seen n n (b2n high) }

/-- Completion (R308): a level source whose line is high is pending again. -/
def State.completeSource (s : State) (n : Nat) : State :=
  let s := s.srcClear ICU_ACTIVE.ACTIVE n
  let high := s.sourceLine n
  (s.seeLine n high).when (sourceLevel n && high) (fun t => t.setPend n)

/-- The levels of all lines, as a mask. -/
def State.linesNow (s : State) : Nat := (upto 192).foldl (fun m n => if s.sourceLine n then m + 2 ^ n else m) 0

/-- The re-sampling of level sources (R309). -/
def State.resample (s : State) : State :=
  let m := s.linesNow
  (upto 192).foldl (fun t n => if sourceLevel n && bitb m n then t.setPend n else t) { s with icu.seen := m }

/-- SOURCE_EDGE (R306): a change of a line reaches the controller while its clock runs: a rise, from a level that it has found low,
sets the pending bit; a mark's pulse is taken (log entry 66). -/
def execSourceEdge (n : Fin 512) (s : State) : Res :=
  if !s.live || s.pwr.asserted != 0 then next s
  else
    let high := s.sourceLine n
    let mark := decide (80 ≤ n.val) && decide (n.val < 96)
    let t := if high && (mark || !bitb s.icu.seen n) then s.setPend n else s
    let t := t.seeLine n (high && !mark)
    next (if mark then { t with icu.marks := setBits t.icu.marks (n - 80) (n - 80) 0 } else t)

/-- A write of ICU_UNPENDk (R306): the bits clear, and the controller goes on from the levels of their lines. -/
def State.unpend (s : State) (k mask : Nat) : State :=
  (upto 32).foldl (fun t b => if bitb mask b then t.seeLine (32 * k + b) (t.sourceLine (32 * k + b)) else t)
    (s.clearBits (ICU_PEND.PEND k) mask)

/-- UNPEND (R306). -/
def execUnpend (k : Fin 16) (mask : BitVec 32) (s : State) : Res := next (s.unpend k mask.toNat)

/-- SLOT_LATCH (R311): in Idle, an enabled slot latches the rise of the line its source names, which was low when the
controller's clock stopped, and AOW_WAKE shows it. -/
def execSlotLatch (slot : Fin 32) (s : State) : Res :=
  let src := s.rd (AOW_SEL.SOURCE slot)
  if s.pwr.state == .idle && s.isOn (AOW_SEL.EN slot) && s.sourceLine src && !bitb s.icu.seen src then
    next (({ s with icu.latch := Nat.lor s.icu.latch (2 ^ slot.val) }).orBits AOW_WAKE.WAKE (2 ^ slot.val))
  else next s

/-- The first tc of Run after Idle (R309, R311): latched slots set their pending bits, the latches clear, level sources are
sampled again. -/
def State.wakeSources (s : State) : State :=
  let t := (upto 32).foldl (fun t k => if bitb s.icu.latch k then t.setPend (t.rd (AOW_SEL.SOURCE k)) else t) s
  ({ t with icu.latch := 0 }).resample

/-! Mailbox channels. -/

/-- May a master reach a channel as the endpoint given (R313, R321)? -/
def mbxMay (master : Nat) (secure : Bool) (n code : Nat) : Bool :=
  (decide (n < 32) || secure) && endpointOf master == some code

/-- A post (R314). -/
def State.mbxPost (s : State) (n bells : Nat) : State :=
  let t := (upto 16).foldl (fun t w => t.wr (MBX_RX.DATA n w) (s.rd (MBX_TX.DATA n w))) s
  let t := t.orBits (MBX_DB.DB n) bells
  if s.isOn (MBX_STAT.FULL n) then t.on (MBX_STAT.COLLIDE n) else t.on (MBX_STAT.FULL n)

/-- An acknowledgement (R315). -/
def State.mbxAck (s : State) (n : Nat) : State :=
  if s.isOn (MBX_STAT.FULL n) then (s.off (MBX_STAT.FULL n)).on (MBX_STAT.EMPTY n) else s

/-- A doorbell ring (R317). -/
def State.mbxRing (s : State) (n bells : Nat) : State := s.orBits (MBX_DB.DB n) bells

/-- The staging area of a channel is cleared. -/
def State.mbxClearTx (s : State) (n : Nat) : State := (upto 16).foldl (fun t w => t.wr (MBX_TX.DATA n w) 0) s

/-- A write to MBX_CFGn by master 0 or 1 (R320): endpoints CHAIN, ARCHIVE or TRIFLE, and SCHED as sender only. -/
def State.mbxCfg (s : State) (n v : Nat) : State :=
  let snd := bits v 3 0
  let rcv := bits v 7 4
  let s := s.when (bitb v 31) (fun t => t.off (MBX_CFG.REFUSED n))
  if s.isOn (MBX_STAT.FULL n) || s.isOn (MBX_STAT.EMPTY n) || s.isOn (MBX_DB.DB n) || decide (3 < snd) || decide (2 < rcv)
  then s.on (MBX_CFG.REFUSED n)
  else
    let t := s.when (s.rd (MBX_CFG.SENDER n) != snd) (fun u => u.mbxClearTx n)
    (t.wr (MBX_CFG.SENDER n) snd).wr (MBX_CFG.RECEIVER n) rcv

/-- The access is refused with a bus error (R38, R313). -/
def State.refuseAccess (s : State) : State := s.busErr.answer .busError

/-- MBX_POST (R314): a write of MBX_POSTn. -/
def execMbxPost (master : Fin 14) (secure : Bool) (chan : Fin 64) (bells : BitVec 32) (s : State) : Res :=
  if mbxMay master secure chan (s.rd (MBX_CFG.SENDER chan)) then next ((s.mbxPost chan bells.toNat).answer .done)
  else next s.refuseAccess

/-- MBX_ACK (R315): a write of MBX_ACKn. -/
def execMbxAck (master : Fin 14) (secure : Bool) (chan : Fin 64) (ack : Bool) (s : State) : Res :=
  if mbxMay master secure chan (s.rd (MBX_CFG.RECEIVER chan)) then
    next ((s.when ack (fun t => t.mbxAck chan)).answer .done)
  else next s.refuseAccess

/-- MBX_CFG (R320): a write of MBX_CFGn; a write by a master other than 0 and 1 is ignored and sets REFUSED. -/
def execMbxCfg (master : Fin 14) (secure : Bool) (chan : Fin 64) (value : BitVec 32) (s : State) : Res :=
  if 32 ≤ chan.val ∧ !secure then next s.refuseAccess
  else if master.val < 2 then next ((s.mbxCfg chan value.toNat).answer .done)
  else next ((s.on (MBX_CFG.REFUSED chan)).answer .done)

/-- What a reset of endpoints does to a channel (R322): `hit` says which endpoint codes are reset. -/
def State.mbxEndpoints (s : State) (hit : Nat → Bool) : State :=
  (upto 64).foldl (fun t n =>
    let t := t.when (hit (s.rd (MBX_CFG.RECEIVER n))) (fun u => (u.on (MBX_DBMASK.MASK n)).on (MBX_STAT.FMASK n))
    t.when (hit (s.rd (MBX_CFG.SENDER n))) (fun u => u.mbxClearTx n)) s

end Sys2Proof.Machine
end

