-- ==== Sys2Proof/Machine/Lattice.lean ====
section
/-! DEFINITION. Machine/Lattice.lean: the Lattice (R42 to R79): banks, phases, arbitration, read-modify-write, the error
log, the scrubber and bank sparing. -/

namespace Sys2Proof.Machine

/-- The logical bank of a word address (R45). -/
def latBank (w : Nat) : Nat := Nat.xor (Nat.xor (bits w 7 0) (bits w 15 8)) (bits w 21 16 * 4)

/-- The row of a word address (R45). -/
def latRow (w : Nat) : Nat := bits w 21 8

/-- The number of words (R42). -/
abbrev latWords : Nat := 0x300000

/-- The spare that serves a logical bank, if any (R74, R76). -/
def State.spareOf (s : State) (b : Nat) : Option Nat :=
  firstBelow 8 (fun k => s.rd (LAT_SPARE.STATE k) == 2 && s.rd (LAT_SPARE.LBANK k) == b)

/-- The physical bank that serves a logical bank (R43, R74). -/
def State.physBank (s : State) (b : Nat) : Nat :=
  match s.spareOf b with
  | some k => 256 + k
  | none => b

/-- The storage number of granule g of a row of a physical bank, divided by 8. -/
def latGran (p row g : Nat) : Nat := latticeBase / 8 + (p * 12288 + row) * 4 + g

/-- The granule of a word, where it now stands. -/
def State.wordGran (s : State) (w g : Nat) : Nat := latGran (s.physBank (latBank w)) (latRow w) g

/-- The spare being written by a copy of logical bank b, if any (R73). -/
def State.copyOf (s : State) (b : Nat) : Option Nat :=
  if s.isOn LAT_SPARE_COPY.ACTIVE && s.rd LAT_SPARE_COPY.LBANK == b then some (s.rd LAT_SPARE_COPY.SPARE) else none

/-! The error log (R66 to R68). -/

/-- One decoder event of the Lattice. -/
structure LatEv where
  pbank : Nat
  row : Nat
  loc : Nat
  gran : Nat
  req : Nat
  synd : Nat
  lasting : Bool
  data : Nat
  /-- The requester itself writes the granule in its second rc, so that its write-back is cancelled (R51, R66). -/
  rewritten : Bool
deriving DecidableEq, Repr

def LatEv.ue (e : LatEv) : Bool := eccClass e.synd == .uncorrectable

/-- Record one event: the log holds the first one while VALID is 1 (R68). -/
def State.latLogOne (s : State) (e : LatEv) : State :=
  if s.isOn LAT_ECC_INFO.VALID then s.on LAT_ECC_INFO.OVF
  else
    (s.wrReg LAT_ECC_LOC.addr (e.loc % 2 ^ 22 + e.gran * 2 ^ 22 + e.req * 2 ^ 24)).wrReg LAT_ECC_INFO.addr
      (e.synd + e.pbank * 2 ^ 16 + b2n e.lasting * 2 ^ 28 + b2n e.ue * 2 ^ 29 + 2 ^ 31)

/-- Events in order of physical bank, each kept in the order it came. -/
def LatEv.sort : List LatEv → List LatEv
  | [] => []
  | e :: t => let r := LatEv.sort t; (r.takeWhile (fun x => decide (x.pbank < e.pbank))) ++
      e :: r.dropWhile (fun x => decide (x.pbank < e.pbank))

/-- A corrected granule starts its write-back, unless one is pending in the bank (R66). -/
def State.latStartFix (s : State) (e : LatEv) : State :=
  if s.lat.fixes.any (fun f => f.pbank == e.pbank) then s
  else { s with lat.fixes := s.lat.fixes ++ [⟨e.pbank, e.row, e.gran, e.loc, BitVec.ofNat 64 e.data, e.rewritten, false⟩] }

/-- The decoder events of one rc: counted, logged, and corrections written back (R66 to R68). -/
def State.latEvents (s : State) (evs : List LatEv) : State :=
  (LatEv.sort evs).foldl (fun t e =>
    let t := if e.lasting then t else if e.ue then t.bump LAT_UE_CNT.COUNT else t.bump LAT_CE_CNT.COUNT
    let t := t.latLogOne e
    if e.ue || e.lasting then t else t.latStartFix e) s

/-! Words. -/

/-- Read a stored word of a physical bank: its granules after correction, which are uncorrectable, and the events, in order
of granule (log entry 71). -/
def State.latRaw (s : State) (p row loc req : Nat) : Nat × Nat × List LatEv :=
  (upto 4).foldl (fun (acc : Nat × Nat × List LatEv) g =>
    let (d, y) := s.gran (latGran p row g)
    let ue := b2n (eccClass y == .uncorrectable)
    (acc.1 + d * 2 ^ (64 * g), acc.2.1 + ue * 2 ^ g,
      if y = 0 then acc.2.2 else acc.2.2 ++ [⟨p, row, loc, g, req, y, false, d, false⟩])) (0, 0, [])

/-- The same for a logical word. -/
def State.latPeek (s : State) (w req : Nat) : Nat × Nat × List LatEv :=
  s.latRaw (s.physBank (latBank w)) (latRow w) w req

/-- Granule g of a word takes the data d: in its bank, and in the spare that a copy of the bank is writing (R73); a
pending write-back of the granule is cancelled (R66). -/
def State.latPutGran (s : State) (w g d : Nat) : State :=
  let b := latBank w
  let p := s.physBank b
  let s := s.putGran (latGran p (latRow w) g) d
  let s := match s.copyOf b with
    | some k => s.putGran (latGran (256 + k) (latRow w) g) d
    | none => s
  { s with lat.fixes := s.lat.fixes.map (fun f =>
      if f.pbank = p ∧ f.row = latRow w ∧ f.gran = g ∧ f.written = false then { f with cancelled := true } else f) }

/-- The part of a 256-bit value that granule g holds. -/
def granPart (x g : Nat) : Nat := bits x (64 * g + 63) (64 * g)

/-- A granule that a write covers in part (R51). -/
def granPartial (mask g : Nat) : Bool := granPart mask g != 0 && granPart mask g != 2 ^ 64 - 1

/-- Write the masked bits of a word over what was read of it; partly covered uncorrectable granules stay (R51). -/
def State.latMerge (s : State) (w mask data old ue : Nat) : State :=
  (upto 4).foldl (fun t g =>
    let m := granPart mask g
    if m = 0 then t
    else if m = 2 ^ 64 - 1 then t.latPutGran w g (granPart data g)
    else if bitb ue g then t
    else t.latPutGran w g (Nat.lor (Nat.land (granPart old g) (2 ^ 64 - 1 - m)) (Nat.land (granPart data g) m))) s

/-! Groups (R46, R47). -/

/-- The words that a port presents, in groups of at most 8 distinct words, after the group in hand (R46). -/
def latGroupsFrom (cur : List Nat) : List Nat → List (List Nat)
  | [] => if cur = [] then [] else [cur]
  | w :: t => if cur.elem w then latGroupsFrom cur t else if cur.length < 8 then latGroupsFrom (cur ++ [w]) t
    else cur :: latGroupsFrom [w] t

/-- The groups of the words that a port presents (R46). -/
def latGroups (l : List Nat) : List (List Nat) := latGroupsFrom [] l

/-- A group cut into the words granted in each rc: in each, the earliest pending word of every bank (R47). -/
def groupRcs : Nat → List Nat → List (List Nat)
  | 0, _ => []
  | f + 1, g => if g = [] then [] else
    let first := g.foldl (fun (acc : List Nat) w => if acc.any (fun x => latBank x == latBank w) then acc else acc ++ [w]) []
    first :: groupRcs f (g.filter (fun w => !first.elem w))

/-- Reads of the words of groups, by one port: each rc's events are those of one rc (R47, R65, R68); each word with its
corrected data and which of its granules are uncorrectable (R49). -/
def State.latReadSet (s : State) (req : Nat) (ws : List Nat) : List (Nat × Nat × Nat) × State :=
  ((latGroups ws).flatMap (groupRcs 8)).foldl (fun (acc : List (Nat × Nat × Nat) × State) rc =>
    let got := rc.map (fun w => (w, acc.2.latPeek w req))
    (acc.1 ++ got.map (fun x => (x.1, x.2.1, x.2.2.1)), acc.2.latEvents (got.flatMap (fun x => x.2.2.2)))) ([], s)

/-- The data and the uncorrectable granules of a word among words read. -/
def wordOf (got : List (Nat × Nat × Nat)) (w : Nat) : Nat × Nat :=
  match got.find? (fun x => x.1 == w) with
  | some x => x.2
  | none => (0, 0)

/-! Read-modify-writes (R51). -/

/-- A status for the requester, four rc after the grant (R49). -/
def State.latDeliver (s : State) (req w d ue : Nat) : State :=
  { s with lat.inflight := s.lat.inflight ++ [⟨s.time + 4 * rc16, req, w, BitVec.ofNat 256 d, BitVec.ofNat 4 ue⟩] }

/-- The write half of a waiting read-modify-write is granted (R51). -/
def State.latHalfGrant (s : State) (h : LatHalf) : State :=
  let w := h.r.word.toNat
  let s := { s with lat.halves := s.lat.halves.erase h }
  let s := s.latMerge w h.r.mask.toNat h.r.data.toNat h.data.toNat h.ue.toNat
  let bad := (upto 4).any (fun g => bitb h.ue.toNat g && granPartial h.r.mask.toNat g)
  if bad then s.latDeliver h.r.req.toNat w 0 h.ue.toNat else s

/-- A class 1 or 2 write of the masked bits of a word cancels a waiting write half whose partly covered granule it touches;
its read-modify-write starts again (R51). -/
def State.latCancel (s : State) (cls w mask : Nat) : State :=
  let hit (h : LatHalf) : Bool := h.r.word.toNat == w &&
    (upto 4).any (fun g => granPartial h.r.mask.toNat g && granPart mask g != 0)
  if cls = 1 ∨ cls = 2 then
    { s with lat.waiting := (s.lat.halves.filter hit).map (·.r) ++ s.lat.waiting, lat.halves := s.lat.halves.filter (fun h => !hit h) }
  else s

/-- One write of the masked bits of a word, granted to a requester of a class (R49 to R52): which partly covered granules were
uncorrectable, and the state. A read-modify-write of class 4 to 7 waits for the write half that waits at its bank (R51). -/
def State.latWrite (s : State) (req cls w mask data : Nat) : Nat × State :=
  if (upto 4).any (granPartial mask) then
    let s := if 4 ≤ cls then (s.lat.halves.filter (fun h => h.bank == latBank w)).foldl State.latHalfGrant s else s
    let (old, ue, evs) := s.latPeek w req
    let ue' := (upto 4).foldl (fun acc g => if bitb ue g && granPartial mask g then acc + 2 ^ g else acc) 0
    (ue', ((s.latEvents evs).latMerge w mask data old ue).latCancel cls w mask)
  else (0, (s.latMerge w mask data 0 0).latCancel cls w mask)

/-- Read n bytes within the words they lie in; true when no granule that holds one of them is uncorrectable (R67). -/
def State.latReadBytes (s : State) (req a n : Nat) : List Byte × Bool × State :=
  let w0 := a / 32
  let ws := if n = 0 then [] else (upto ((a + n - 1) / 32 - w0 + 1)).map (· + w0)
  let (got, t) := s.latReadSet req ws
  let bad (w : Nat) : Bool := (upto 4).any (fun g => bitb (wordOf got w).2 g && decide (w * 32 + 8 * g < a + n) &&
    decide (a < w * 32 + 8 * g + 8))
  (((ws.flatMap (fun w => toBytes 32 (wordOf got w).1)).drop (a % 32)).take n, !(ws.any bad), t)

/-- The mask and the data that bytes at a give to word w. -/
def wordBytes (w a : Nat) (bs : List Byte) : Nat × Nat :=
  let lo := max a (w * 32)
  let hi := min (a + bs.length) (w * 32 + 32)
  if hi ≤ lo then (0, 0)
  else ((2 ^ (8 * (hi - lo)) - 1) * 2 ^ (8 * (lo - w * 32)),
    ofBytes ((bs.drop (lo - a)).take (hi - lo)) * 2 ^ (8 * (lo - w * 32)))

/-- The words that bytes at a touch. -/
def wordsOf (a n : Nat) : List Nat := if n = 0 then [] else (upto ((a + n - 1) / 32 - a / 32 + 1)).map (· + a / 32)

/-- Write bytes; true when no partly covered granule is uncorrectable. -/
def State.latWriteBytes (s : State) (req cls a : Nat) (bs : List Byte) : Bool × State :=
  (wordsOf a bs.length).foldl (fun (acc : Bool × State) w =>
    let (m, d) := wordBytes w a bs
    let (ue, t) := acc.2.latWrite req cls w m d
    (acc.1 && ue == 0, t)) (true, s)

/-- The words that a write of these bytes covers in part, and so reads first (R51). -/
def partWords (a : Nat) (bs : List Byte) : List Nat :=
  (wordsOf a bs.length).filter (fun w => (upto 4).any (granPartial (wordBytes w a bs).1))

/-- Would a write of these bytes meet an uncorrectable granule that it cannot merge (R38)? -/
def State.latWriteBad (s : State) (a : Nat) (bs : List Byte) : Bool :=
  (partWords a bs).any (fun w => (upto 4).any (fun g => bitb (s.latPeek w 0).2.1 g && granPartial (wordBytes w a bs).1 g))

/-! Phases (R56 to R60). -/

/-- Entry n of a phase table (R57). -/
def State.ptabEntry (s : State) (t n : Nat) : Nat :=
  bits (s.rd2 (LAT_PTAB_LO.PHASES t) (LAT_PTAB_HI.PHASES t)) (4 * n + 3) (4 * n)

/-- The phase of the rc d after the present one: the rc since the round boundary before it, modulo 16 (R56). -/
def State.phaseIn (s : State) (d : Nat) : Nat := (s.rcr + d) % (s.roundLen / rc16) % 16

/-- The code of that phase. -/
def State.phaseKindIn (s : State) (d : Nat) : Nat := s.ptabEntry (s.rd LAT_STAT.PTAB_ACT) (s.phaseIn d)

/-- The code of the present phase. -/
def State.phaseKind (s : State) : Nat := s.phaseKindIn 0

/-- Chain time in the first rc, from the present one on, for which p holds; none where it holds for none (a partial cycle of
phases and a whole one are looked through, R56). -/
def State.untilRc (s : State) (p : Nat → Bool) : Option State :=
  (firstBelow 48 p).map (fun d => s.until (s.sch.roundStart + rc16 * (s.rcr + d)))

/-- Chain time in the next phase of a kind for which p holds (R57). -/
def State.untilPhase (s : State) (p : Nat → Bool) : Option State := s.untilRc (fun d => p (s.phaseKindIn d))

/-- Chain time in the first OPEN phase at or after an instant (R69, R73). -/
def State.untilOpen (s : State) (at_ : Nat) : Option State := (s.until at_).untilPhase (· == 1)

/-- The tick after the present time on a grid of ticks `every` apart, one of which is `at_`. -/
def State.tickAfter (s : State) (at_ every : Nat) : Nat := at_ + every * ((s.time - at_) / every + 1)

/-- A phase table is valid (R59). -/
def State.ptabValid (s : State) (t : Nat) : Bool :=
  let es := (upto 16).map (s.ptabEntry t)
  es.elem 1 && es.elem 2 && es.all (fun c => decide (c < 3) || decide (8 ≤ c))

/-- May a request issue in a phase of kind k (R57)? -/
def mayIssue (k cls req : Nat) : Bool :=
  if k = 0 then cls != 0 && cls != 3
  else if k = 1 then cls == 0 || decide (4 ≤ cls)
  else if k = 2 then decide (4 ≤ cls)
  else if 8 ≤ k then decide (4 ≤ cls) || (cls == 3 && req == 0x20 + (k - 8))
  else false

/-- The place of a request in the grant order of a phase of kind k: the lowest is granted (R58). -/
def grantKey (k cls req age : Nat) : Nat :=
  if k = 2 ∧ 5 ≤ cls then age * 2 ^ 16 + cls * 2 ^ 8 + req
  else if k = 2 then 2 ^ 200 + req
  else if cls = 0 then 0xFF - req
  else cls * 2 ^ 8 + req

/-- The class of a master's accesses through the matrix: the Archive processor's 7, every other's 6 (R14, R52). -/
def matrixCls (m : Nat) : Nat := if m = 11 then 7 else 6

/-- The class a requester may carry (R52); `m` is the master of a matrix port's access. -/
def reqClassOk (req cls m : Nat) : Bool :=
  if req < 0x18 then decide (req % 8 < 6) && (cls == 4 || (if req % 8 < 4 then cls == 2 else cls == 1) || cls == 2 && req % 8 == 4)
  else if 0x20 ≤ req ∧ req < 0x28 then cls == 3
  else if 0x30 ≤ req ∧ req < 0x38 then cls == 5
  else if 0x40 ≤ req ∧ req < 0x80 then cls == 5
  else if 0x80 ≤ req ∧ req < 0x88 then cls == matrixCls m
  else decide (0xF0 ≤ req) && decide (req < 0xF3) && cls == 0

/-! LATTICE_ACCESS. -/

/-- Two requests of one group for one word are one access (R46). -/
def latMergeNew (l : List LatReq) (r : LatReq) : List LatReq :=
  match l.find? (fun x => x.req == r.req && x.word == r.word && x.write == r.write) with
  | none => l ++ [r]
  | some _ => l.map (fun x => if x.req == r.req && x.word == r.word && x.write == r.write then
      { x with mask := x.mask ||| r.mask, data := (x.data &&& ~~~ r.mask) ||| (r.data &&& r.mask) } else x)

/-- The requests a port can present now: a legal requester, class and word; its last group granted; at most 8 words of a
group, 2 for a matrix port (R44, R46, R52). -/
def State.latArrivals (s : State) (reqs : List LatReq) : List LatReq :=
  let ok := reqs.filter (fun r => decide (r.word.toNat < latWords) && reqClassOk r.req.toNat r.cls.val r.master.val &&
    !(s.lat.waiting.any (fun x => x.req == r.req)) && !(s.lat.halves.any (fun h => h.r.req == r.req)))
  let merged := ok.foldl latMergeNew []
  merged.foldl (fun acc r =>
    let lim := if 0x80 ≤ r.req.toNat ∧ r.req.toNat < 0x88 then 2 else 8
    if (acc.filter (fun x => x.req == r.req)).length < lim then acc ++ [{ r with age := s.time }] else acc) []

/-- Is a request a write that needs a read half (R51)? -/
def latRmw (r : LatReq) : Bool := r.write && (upto 4).any (granPartial r.mask.toNat)

/-- The request of least key, the earliest on a tie. -/
def leastKey (key : LatReq → Nat) : List LatReq → Option LatReq
  | [] => none
  | r :: t => match leastKey key t with
    | none => some r
    | some x => if key x < key r then some x else some r

/-- The effect of a grant at bank b (R49 to R51), with its decoder events. -/
def State.latGrant (s : State) (b : Nat) (r : LatReq) : State × List LatEv :=
  let w := r.word.toNat
  let s := { s with lat.waiting := s.lat.waiting.erase r }
  if !r.write then
    let (d, ue, evs) := s.latPeek w r.req.toNat
    (s.latDeliver r.req.toNat w d ue, evs)
  else if !latRmw r then ((s.latMerge w r.mask.toNat r.data.toNat 0 0).latCancel r.cls.val w r.mask.toNat, [])
  else
    let (old, ue, evs) := s.latPeek w r.req.toNat
    if r.cls.val < 4 then
      let bad := (upto 4).any (fun g => bitb ue g && granPartial r.mask.toNat g)
      let s := (s.latMerge w r.mask.toNat r.data.toNat old ue).latCancel r.cls.val w r.mask.toNat
      let s := { s with lat.busy := (b, r) :: s.lat.busy }
      (if bad then s.latDeliver r.req.toNat w 0 ue else s, evs.map (fun e => { e with rewritten := granPart r.mask.toNat e.gran != 0 }))
    else ({ s with lat.halves := s.lat.halves ++ [⟨b, r, BitVec.ofNat 256 old, BitVec.ofNat 4 ue⟩] }, evs)

/-- The granules of a mask that the bits of x name. -/
def someGrans (mask x : Nat) : Nat :=
  (upto 4).foldl (fun acc g => if bitb x g then acc + granPart mask g * 2 ^ (64 * g) else acc) 0

/-- What is in flight at a warm reset (R78): each granule of a write half that waits holds its old value or its new one, as a
free value chooses. -/
def State.latInFlight (s : State) : State :=
  s.lat.halves.foldl (fun t h =>
    let (x, u) := t.fresh 4
    u.latMerge h.r.word.toNat (someGrans h.r.mask.toNat x) h.r.data.toNat h.data.toNat h.ue.toNat) s

/-- Does the write half that waits at a bank win there in a phase of kind k: no request of class 1 to 3 is presented, and in the
order of the phase none comes before it as the oldest of its own class, with age 0 among classes 5 to 7 (R51, R58; log
entry 72)? -/
def halfWins (k : Nat) (elig : List LatReq) (h : LatHalf) : Bool :=
  let here := elig.filter (fun r => latBank r.word.toNat == h.bank)
  !(here.any (fun r => decide (1 ≤ r.cls.val) && decide (r.cls.val ≤ 3))) &&
  (match leastKey (fun r => grantKey k r.cls.val r.req.toNat (r.age + 1))
      (here.filter (fun r => !(latRmw r && decide (4 ≤ r.cls.val)))) with
    | none => true
    | some r => decide (grantKey k h.r.cls.val 0 0 ≤ grantKey k r.cls.val r.req.toNat (r.age + 1)))

/-- One bank in one rc: a waiting write half or the first request in order (R51, R55, R58). -/
def State.latBankRc (k : Nat) (elig : List LatReq) (acc : State × List LatEv) (b : Nat) : State × List LatEv :=
  let s := acc.1
  let here := elig.filter (fun r => latBank r.word.toNat == b)
  let grant (l : List LatReq) : State × List LatEv :=
    match leastKey (fun r => grantKey k r.cls.val r.req.toNat (r.age + 1)) l with
    | none => acc
    | some r => let (s', e) := s.latGrant b r; (s', acc.2 ++ e)
  match s.lat.halves.find? (fun h => h.bank == b) with
  | some h => if halfWins k elig h then (s.latHalfGrant h, acc.2) else grant (here.filter (fun r => !(latRmw r && decide (4 ≤ r.cls.val))))
  | none => grant here

/-- The pair that a breach at a bank records: the winner, and the next requester that is not of its chain (R63). The access
that holds the bank for its second rc is the winner there (R51; log entry 73). -/
def latBreachAt (hold : Option LatReq) (elig : List LatReq) (b : Nat) : Option (Nat × Nat) :=
  let hard := elig.filter (fun r => latBank r.word.toNat == b && (r.cls.val == 1 || r.cls.val == 2))
  let key (r : LatReq) : Nat := grantKey 0 r.cls.val r.req.toNat 0
  let other (x r : LatReq) : Bool := x.req != r.req && (x.grp == 0 || x.grp != r.grp)
  match (match hold with
    | some h => some h
    | none => leastKey key (hard.filter (fun x => hard.any (other x)))) with
  | none => none
  | some x => (leastKey key (hard.filter (other x))).map (fun y => (x.req.toNat, y.req.toNat))

/-- Count and log the breaches of one rc (R63). -/
def State.latBreach (s : State) (elig : List LatReq) (banks : List Nat) : State :=
  let hold (b : Nat) : Option LatReq := (s.lat.busy.find? (fun x => x.1 == b)).map (·.2)
  match banks.filterMap (fun b => (latBreachAt (hold b) elig b).map (fun p => (b, p))) with
  | [] => s
  | (b, x, y) :: more =>
    let s1 := (s.bump LAT_BREACH_CNT.COUNT).breach 1
    if s1.isOn LAT_BREACH_INFO.VALID then s1.on LAT_BREACH_INFO.OVF
    else
      (s1.wrReg LAT_BREACH_REQ.addr (x + y * 2 ^ 8 + b * 2 ^ 16)).wrReg LAT_BREACH_INFO.addr
        (s.rcr % 2 ^ 21 + s.phaseIn 0 * 2 ^ 21 + b2n (more != []) * 2 ^ 30 + 2 ^ 31)

/-- The distinct elements of a list of naturals, in rising order. -/
def risingSet (l : List Nat) : List Nat :=
  l.foldl (fun acc x => if acc.elem x then acc else acc.takeWhile (· < x) ++ x :: acc.dropWhile (· < x)) []

/-- One rc of the Lattice: requests arrive, each bank grants one access, the losers stall (R46 to R63). -/
def State.latRc (s : State) (reqs : List LatReq) : State :=
  let s := { s with lat.waiting := s.lat.waiting ++ s.latArrivals reqs }
  let k := s.phaseKind
  let issued := s.lat.waiting.filter (fun r => mayIssue k r.cls.val r.req.toNat)
  let elig := issued.filter (fun r => !(s.lat.busy.any (fun x => x.1 == latBank r.word.toNat)))
  let banks := risingSet (elig.map (fun r => latBank r.word.toNat) ++ s.lat.halves.map (·.bank))
  let s1 := s.latBreach issued (risingSet (issued.map (fun r => latBank r.word.toNat)))
  let (s2, evs) := banks.foldl (State.latBankRc k elig) ({ s1 with lat.busy := [] }, [])
  (s2.latEvents evs).pass rc16

/-- LATTICE_ACCESS (R55): the requests newly presented in this rc, after the upsets given. -/
def execLatticeAccess (reqs : List LatReq) (upsets : List Upset) (s : State) : Res := s.whileLive fun s =>
  next ((upsets.foldl State.upset s).latRc reqs)

/-- READ_DATA (R49): the oldest read in flight reaches its requester, four rc after its grant. -/
def execReadData (s : State) : Res := s.whileLive fun s =>
  match s.lat.inflight with
  | [] => next s
  | r :: t => next (({ s with lat.inflight := t }.until r.due).answer (.latRead r.req r.word r.data r.ue))

/-- WRITE_HALF (R51): the write half that waits at a bank is granted, where it wins in the present phase. -/
def execWriteHalf (bank : BitVec 8) (s : State) : Res := s.whileLive fun s =>
  match s.lat.halves.find? (fun h => h.bank == bank.toNat) with
  | none => next s
  | some h =>
    next (s.when (halfWins s.phaseKind (s.lat.waiting.filter (fun r => mayIssue s.phaseKind r.cls.val r.req.toNat)) h)
      (fun t => t.latHalfGrant h))

/-! Maintenance (R66, R69, R70). -/

/-- ECC_WRITE_BACK (R66): the corrected granule is written back, unless a requester has written it. -/
def execEccWriteBack (pbank : Fin 264) (s : State) : Res := s.whileLive fun s =>
  match s.lat.fixes.find? (fun f => f.pbank == pbank.val && !f.written) with
  | none => next s
  | some f =>
    let s1 := if f.cancelled then s else s.putGran (latGran f.pbank f.row f.gran) f.data.toNat
    next { s1 with lat.fixes := s1.lat.fixes.map (fun x => if x == f then { x with written := true } else x) }

/-- The logical bank that a physical bank serves, if any. -/
def State.logBank (s : State) (p : Nat) : Option Nat :=
  if p < 256 then (if s.lat.homeOut.elem p || (s.spareOf p).isSome then none else some p)
  else if s.rd (LAT_SPARE.STATE (p - 256)) = 2 then some (s.rd (LAT_SPARE.LBANK (p - 256))) else none

/-- Is the pending bit of a logical bank set (R71)? -/
def State.sparePend (s : State) (b : Nat) : Bool := bitb (s.rd (LAT_SPARE_PEND.PEND (b / 32))) (b % 32)

/-- Set a pending bit, unless the bank is being copied (R71). -/
def State.setSparePend (s : State) (b : Nat) : State :=
  if (s.copyOf b).isSome then s else s.orBits (LAT_SPARE_PEND.PEND (b / 32)) (2 ^ (b % 32))

/-- A lasting error: the bank's pending bit and the event log; in a FREE spare, the spare fails (R66, R69). -/
def State.latLasting (s : State) (f : LatFix) : State :=
  if 256 ≤ f.pbank ∧ s.rd (LAT_SPARE.STATE (f.pbank - 256)) = 0 then
    ((s.wr (LAT_SPARE.STATE (f.pbank - 256)) 3).rcLog 0x23 0 (f.pbank - 256) f.row).degrade
  else match s.logBank f.pbank with
    | some b => ((s.setSparePend b).rcLog 0x20 0 b f.loc).degrade
    | none => s

/-- ECC_RE_READ (R66): the re-read of a granule written back tells a lasting error from a transient one. -/
def execEccReRead (pbank : Fin 264) (s : State) : Res := s.whileLive fun s =>
  match s.lat.fixes.find? (fun f => f.pbank == pbank.val && f.written) with
  | none => next s
  | some f =>
    let s1 := { s with lat.fixes := s.lat.fixes.erase f }
    let (d, y) := s1.gran (latGran f.pbank f.row f.gran)
    if y = 0 then next s1
    else
      let s2 := if eccClass y = .uncorrectable then s1.bump LAT_UE_CNT.COUNT else s1
      next ((s2.latLogOne ⟨f.pbank, f.row, f.loc, f.gran, 0xF2, y, true, d, false⟩).latLasting f)

/-- The scrub position after p that is not skipped, and whether a pass ends (R69). -/
def State.scrubNext (s : State) : Nat → Nat → Nat × Bool
  | 0, p => (p, false)
  | f + 1, p =>
    if 3244032 ≤ p then (0, true)
    else if p < latWords then (p, false)
    else
      let k := (p - latWords) / 12288
      if s.rd (LAT_SPARE.STATE k) = 0 ∨ s.rd (LAT_SPARE.STATE k) = 3 then (p, false)
      else s.scrubNext f (latWords + 12288 * (k + 1))

/-- The scrub read at the pointer, which moves on (R69). -/
def State.scrubRead (s : State) : State :=
  let (p, wrapped) := s.scrubNext 9 (s.rd LAT_SCRUB_PTR.PTR)
  let s := s.when wrapped (fun t => t.bumpWrap LAT_SCRUB_PASS.PASS)
  let (_, _, evs) := if p < latWords then s.latPeek p 0xF0
    else s.latRaw (256 + (p - latWords) / 12288) ((p - latWords) % 12288) ((p - latWords) % 12288) 0xF0
  let (p', wrapped') := s.scrubNext 9 (p + 1)
  ((s.latEvents evs).when wrapped' (fun t => t.bumpWrap LAT_SCRUB_PASS.PASS)).wr LAT_SCRUB_PTR.PTR p'

/-- SCRUB (R69): one scrub read, in the first OPEN phase at or after the next tick of 960 rc. -/
def execScrub (upsets : List Upset) (s : State) : Res := s.whileLive fun s =>
  let s := upsets.foldl State.upset s
  if !s.isOn LAT_CTL.SCRUB_EN then next s
  else match s.untilOpen s.lat.scrubAt with
  | none => next s
  | some t => next { t.scrubRead with lat.scrubAt := t.tickAfter t.lat.scrubAt (960 * rc16) }

/-! Phase tables and sparing. -/

/-- PHASE_TABLE_ACTIVATE (R59): at the first phase 0 after its selection the selected table becomes active if it is valid. -/
def execPhaseTableActivate (s : State) : Res := s.whileLive fun s =>
  match s.lat.ptabSel with
  | none => next s
  | some (t, at_) =>
    match s.untilRc (fun d => s.phaseIn d == 0 && decide (at_ < s.sch.roundStart + rc16 * (s.rcr + d))) with
    | none => next s
    | some u =>
      let v := { u with lat.ptabSel := none }
      next (if v.ptabValid t then v.wr LAT_STAT.PTAB_ACT t else v.on LAT_STAT.PTAB_ERR)

/-- SPARE_CMD (R71): LAT_SPARE_CMD with GO sets the pending bit of LBANK. -/
def execSpareCmd (lbank : BitVec 8) (s : State) : Res := next (s.setSparePend lbank.toNat)

/-- The pending logical banks. -/
def State.pendBanks (s : State) : List Nat := (upto 256).filter s.sparePend

/-- With no FREE spare and a bank pending, SPARE_EXH is set and each bank's exhaustion reported once (R72). -/
def State.latExhaust (s : State) : State :=
  let pend := s.pendBanks
  if pend = [] || (upto 8).any (fun k => s.rd (LAT_SPARE.STATE k) == 0) then s
  else
    let fresh := pend.filter (fun b => !(s.lat.exhReported.elem b))
    let s1 := fresh.foldl (fun t b => (t.rcLog 0x21 0 b 0).degrade) (s.on LAT_STAT.SPARE_EXH)
    { s1 with lat.exhReported := s1.lat.exhReported ++ fresh }

/-- SPARE_PEND_CLEAR (R71): writing 1 clears a pending bit, unless the bank is being copied. -/
def execSparePendClear (n : Fin 8) (mask : BitVec 32) (s : State) : Res :=
  let hit := (upto 32).filter (fun i => bitb mask.toNat i && (s.copyOf (32 * n.val + i)).isNone)
  let s1 := s.clearBits (LAT_SPARE_PEND.PEND n.val) (hit.foldl (fun acc i => acc + 2 ^ i) 0)
  next { s1 with lat.exhReported := s1.lat.exhReported.filter (fun b => !(b / 32 == n.val && hit.elem (b % 32))) }

/-- COPY_START (R72): the lowest pending bank is copied to the lowest FREE spare; with none FREE, exhaustion. A bank whose
copy a warm reset abandoned waits for the sequencer (R75). -/
def execCopyStart (s : State) : Res := s.whileLive fun s =>
  if s.isOn LAT_SPARE_COPY.ACTIVE then next s
  else match s.pendBanks.filter (fun b => s.lat.copyHold != some b) with
  | [] => next s
  | b :: _ =>
    match firstBelow 8 (fun k => s.rd (LAT_SPARE.STATE k) == 0) with
    | none => next s.latExhaust
    | some k =>
      let s1 := (s.wrReg (LAT_SPARE.addr k) (b + 2 ^ 30)).clearBits (LAT_SPARE_PEND.PEND (b / 32)) (2 ^ (b % 32))
      let s2 := (s1.wrReg LAT_SPARE_COPY.addr (b * 2 ^ 16 + k * 2 ^ 24 + 2 ^ 31)).on LAT_STAT.SPARE_BUSY
      next { s2 with lat.exhReported := s2.lat.exhReported.filter (· != b), lat.copyAt := s2.time }

/-- Row `LAT_SPARE_COPY.ROW` of the bank being copied is written to the spare: corrected words corrected, uncorrectable
granules with their stored bits (R73). -/
def State.copyRow (s : State) : State :=
  let b := s.rd LAT_SPARE_COPY.LBANK
  let row := s.rd LAT_SPARE_COPY.ROW
  let q := 256 + s.rd LAT_SPARE_COPY.SPARE
  let p := s.physBank b
  let w := row * 256 + Nat.xor (Nat.xor b (bits row 7 0)) (bits row 13 8 * 4)
  let (d, ue, evs) := s.latRaw p row w 0xF1
  let s1 := (upto 4).foldl (fun t g =>
    let t1 := t.putGran (latGran q row g) (if bitb ue g then t.num (8 * latGran p row g) 8 else granPart d g)
    let x := SMap.get (fun _ => (0 : BitVec 8)) t1.syn (latGran p row g)
    if bitb ue g then { t1 with syn := SMap.set (fun _ => (0 : BitVec 8)) t1.syn (latGran q row g) x } else t1) s
  (s1.latEvents evs).wr LAT_SPARE_COPY.ROW (row + 1)

/-- ROW_COPY (R73): one row of the bank being copied, in the first OPEN phase at or after the next tick of 64 rc. -/
def execRowCopy (s : State) : Res := s.whileLive fun s =>
  if !s.isOn LAT_SPARE_COPY.ACTIVE || decide (12288 ≤ s.rd LAT_SPARE_COPY.ROW) then next s
  else match s.untilOpen s.lat.copyAt with
  | none => next s
  | some t => next { t.copyRow with lat.copyAt := t.tickAfter t.lat.copyAt (64 * rc16) }

/-- The physical bank that a logical bank leaves is out of service: a home bank until cold reset, a spare FAILED (R74). -/
def State.leaveBank (s : State) (b : Nat) : State :=
  match s.spareOf b with
  | some k => s.wr (LAT_SPARE.STATE k) 3
  | none => { s with lat.homeOut := if s.lat.homeOut.elem b then s.lat.homeOut else s.lat.homeOut ++ [b] }

/-- Has the copy in progress written its last row? -/
def State.copied (s : State) : Bool := s.isOn LAT_SPARE_COPY.ACTIVE && decide (12288 ≤ s.rd LAT_SPARE_COPY.ROW)

/-- At a round boundary a bank whose last row is copied moves to its spare (R74). -/
def State.spareSwitch (s : State) : State := s.when s.copied fun s =>
  let s1 := s.leaveBank (s.rd LAT_SPARE_COPY.LBANK)
  ((s1.wr (LAT_SPARE.STATE (s.rd LAT_SPARE_COPY.SPARE)) 2).wrReg LAT_SPARE_COPY.addr 0).off LAT_STAT.SPARE_BUSY

/-- The next round boundary: the first multiple of the round length after the last boundary that has not passed (R153). -/
def State.nextBoundary (s : State) : Nat :=
  max ((s.sch.roundStart / s.roundLen + 1) * s.roundLen) ((s.time + s.roundLen - 1) / s.roundLen * s.roundLen)

/-- SPARE_SWITCH (R74): at the first round boundary after the last row, the bank moves to its spare. -/
def execSpareSwitch (s : State) : Res := s.whileLive fun s =>
  if s.copied then next (s.until s.nextBoundary).spareSwitch else next s

/-- SPARE_ENTRY_WRITE (R76): firmware writes a spare entry while the sequencer is STOPPED and nothing is copied. -/
def execSpareEntryWrite (spare : Fin 8) (state : BitVec 2) (lbank : BitVec 8) (s : State) : Res :=
  let k := spare.val
  let old := s.rd (LAT_SPARE.STATE k)
  let b := lbank.toNat
  if s.rd SCH_STAT.STATE != 0 || s.isOn LAT_SPARE_COPY.ACTIVE then next s
  else if old = 0 ∧ state = 2#2 then
    if (s.spareOf b).isSome then next s
    else next ((s.leaveBank b).wrReg (LAT_SPARE.addr k) (b + 2 ^ 31))
  else if old = 0 ∧ state = 3#2 then next (s.wr (LAT_SPARE.STATE k) 3)
  else if old = 3 ∧ state = 0#2 then next (s.wr (LAT_SPARE.STATE k) 0)
  else next s

end Sys2Proof.Machine
end

