-- ==== Sys2Proof/Machine/Store.lean ====
section
/-! DEFINITION. Machine/Store.lean: matrix transactions on the Schedule Store (R159 to R161), the Lattice and Bulk, as any
master may make them (R37, R38). -/

namespace Sys2Proof.Machine

/-- The address of the Lattice in the matrix (R23). -/
abbrev latMatrixBase : Nat := 0x100000000

/-- Matrix read of the Schedule Store (R161): corrected words are counted and written back; an uncorrectable one that holds
a byte read is a bus error. -/
def State.sstoreRead (s : State) (a n : Nat) : Option (List Byte) × State :=
  let (bs, evs) := s.eccRead a n
  let t := (evs.filter (fun e => !e.ue)).foldl (fun t e => (t.putGran e.gran e.data).bump SCH_CE_CNT.COUNT) s
  (if evs.any GEv.ue then none else some bs, t)

/-- Is a matrix write to the Schedule Store accepted (R160)? The idle buffer refuses writes while a swap of the schedule is checking
or pending (R184). -/
def State.sstoreOpen (s : State) (a : Nat) : Bool :=
  if (a - sstoreBase) / 0x200000 = s.rd SCH_STAT.ACT then s.schIs schStopped
  else !(match s.sch.swap with | some w => w.sched | none => false)

/-- Matrix write of the Schedule Store (R160, R161); false for a bus error, which leaves it unchanged. -/
def State.sstoreWrite (s : State) (a : Nat) (bs : List Byte) : Bool × State :=
  if !s.sstoreOpen a then (true, s.on SCH_STAT.WACT)
  else
    let (t, evs) := s.eccWrite a bs
    if evs.any GEv.ue then (false, s)
    else (true, evs.foldl (fun u _ => u.bump SCH_CE_CNT.COUNT) t)

/-- The requester number of matrix accesses to the Lattice at an address (R52). -/
def latPortReq (a : Nat) : Nat := 0x80 + bits a 8 6

/-- One read by a matrix master from the Lattice, Bulk or the Schedule Store, in one transaction; none for a bus error. -/
def State.dataRead (s : State) (m a n : Nat) : Option (List Byte) × State :=
  let s := s.toPort m a
  if s.inReset a then (none, s)
  else match s.region a with
  | .lattice off =>
    let (bs, ok, t) := s.latReadBytes (latPortReq a) off n
    (if ok then some bs else none, t)
  | .bulk _ => s.bulkRead a n
  | .sstore p => s.sstoreRead p n
  | .unmapped => (some (List.replicate n 0), s.decodeErr m a false)
  | _ => (none, s)

/-- One write by a matrix master to the Lattice, Bulk or the Schedule Store; false for a bus error, before which the read halves
are decoded, logged and counted (R38, R51, R67). -/
def State.dataWrite (s : State) (m a : Nat) (bs : List Byte) : Bool × State :=
  let s := s.toPort m a
  if s.inReset a then (false, s)
  else match s.region a with
  | .lattice off =>
    if s.latWriteBad off bs then (false, (s.latReadSet (latPortReq a) (partWords off bs)).2)
    else (true, (s.latWriteBytes (latPortReq a) (matrixCls m) off bs).2)
  | .bulk _ => s.bulkWrite a bs
  | .sstore p => s.sstoreWrite p bs
  | .unmapped => (true, s.decodeErr m a true)
  | _ => (false, s)

/-- The 64-byte blocks of n bytes from a, by the 64 B boundaries (R33): (address, bytes). -/
def blocksOf : Nat → Nat → Nat → List (Nat × Nat)
  | 0, _, _ => []
  | f + 1, a, n => if n = 0 then [] else
    let k := min (64 - a % 64) n
    (a, k) :: blocksOf f (a + k) (n - k)

/-- Read n bytes in as many transactions as R33 needs. -/
def State.dataReads (s : State) (m a n : Nat) : Option (List Byte) × State :=
  (blocksOf (n / 64 + 2) a n).foldl (fun (acc : Option (List Byte) × State) b =>
    match acc.1 with
    | none => acc
    | some got => match acc.2.dataRead m b.1 b.2 with
      | (some bs, t) => (some (got ++ bs), t)
      | (none, t) => (none, t.busErr)) (some [], s)

/-- Write bytes in as many transactions as R33 needs. -/
def State.dataWrites (s : State) (m a : Nat) (bs : List Byte) : Bool × State :=
  (blocksOf (bs.length / 64 + 2) a bs.length).foldl (fun (acc : Bool × State) b =>
    if acc.1 then
      match acc.2.dataWrite m b.1 ((bs.drop (b.1 - a)).take b.2) with
      | (true, t) => (true, t)
      | (false, t) => (false, t.busErr)
    else acc) (true, s)

end Sys2Proof.Machine
end

