-- ==== Sys2Proof/Machine/ChainBase.lean ====
section
/-! DEFINITION. Machine/ChainBase.lean: the chain's frames (R343, R344), routes (R347, R361), sending and acknowledgement
(R348, R349), what a received frame meets before it is consumed (R345, R350, R351, R353, R355, R356, R365). -/

namespace Sys2Proof.Machine

/-! Frames. -/

def Frame.cls (f : Frame) : Nat := bits f.h0 3 0
def Frame.ver (f : Frame) : Nat := bits f.h0 7 4
def Frame.dst (f : Frame) : Nat := bits f.h0 15 8
def Frame.src (f : Frame) : Nat := bits f.h0 23 16
def Frame.depoch (f : Frame) : Nat := bits f.h0 39 24
def Frame.sepoch (f : Frame) : Nat := bits f.h0 55 40
def Frame.enc (f : Frame) : Bool := bitb f.h0 56
def Frame.len (f : Frame) : Nat := bits f.h1 11 0
def Frame.sub (f : Frame) : Nat := bits f.h1 15 12
def Frame.tag (f : Frame) : Nat := bits f.h1 31 16
def Frame.arg (f : Frame) : Nat := bits f.h1 63 32

/-- The 24-byte header. -/
def Frame.header (f : Frame) : List Byte := toBytes 8 f.h0 ++ toBytes 8 f.h1 ++ toBytes 8 f.h2

/-- The frame's bytes in its data blocks. -/
def Frame.bytes (f : Frame) : List Byte := f.header ++ f.body

/-- A frame from the bytes of its data blocks. -/
def frameOf (bs : List Byte) : Frame :=
  ⟨ofBytes (bs.take 8), ofBytes ((bs.drop 8).take 8), ofBytes ((bs.drop 16).take 8), bs.drop 24⟩

abbrev clsTime : Nat := 1
abbrev clsMsg : Nat := 2
abbrev clsSnap : Nat := 3
abbrev clsRecipe : Nat := 4
abbrev clsMgmt : Nat := 5
abbrev clsDebug : Nat := 6
abbrev clsNak : Nat := 15

/-- High-priority classes (R345). -/
def Frame.high (f : Frame) : Bool := [clsTime, clsSnap, clsMgmt, clsNak].elem f.cls

/-- Hop-local frames (R345). -/
def Frame.hopLocal (f : Frame) : Bool := f.cls == clsTime || (f.cls == clsMgmt && decide (f.sub < 2))

/-- Is a frame of MGMT subclass k? -/
def Frame.mgmt (f : Frame) (k : Nat) : Bool := f.cls == clsMgmt && f.sub == k

/-- May a frame use the unused segment (R361): TIME, MGMT TOPO and HELLO? -/
def Frame.anySegment (f : Frame) : Bool := f.cls == clsTime || f.mgmt 1 || f.mgmt 3

/-- The payload of n bytes padded with zeros to a multiple of 8 (R343). -/
def pad8 (bs : List Byte) : List Byte := bs ++ List.replicate ((8 - bs.length % 8) % 8) 0

/-! Addresses, segments and routes. -/

/-- This module's chain address. -/
def State.chnAddr (s : State) : Nat := s.rd CHN_ADDR.ADDR

/-- Is this module the head (R352)? -/
def State.isHead (s : State) : Bool := s.isOn CHN_CTL.HEAD

/-- Is the line closed into a ring (R361)? -/
def State.isRing (s : State) : Bool := s.isOn CHN_CTL.RING

/-- Is the module in Lull (R426)? -/
def State.inLull (s : State) : Bool := s.isOn RST_STAT.LULL

/-- Is Frost in force (R469)? -/
def State.frost (s : State) : Bool := s.isOn DBG_STAT.FROST

/-- Port 0 is U, port 1 is D. -/
def State.portUp (s : State) (p : Nat) : Bool := s.isOn (if p = 0 then CHN_STAT.UP_U else CHN_STAT.UP_D)

def State.chnPort (s : State) (p : Nat) : ChnPort := if p = 0 then s.chn.u else s.chn.d

def State.putChnPort (s : State) (p : Nat) (c : ChnPort) : State :=
  if p = 0 then { s with chn.u := c } else { s with chn.d := c }

/-- The segment at a port of a line of n modules (R361); none where a LINE ends, and for a module without an address. -/
def State.segIn (s : State) (n p : Nat) : Option Nat :=
  let a := s.chnAddr
  if a = 0 then none
  else if p = 0 then (if a = 1 then (if s.isRing && n != 0 then some n else none) else some (a - 1))
  else if n != 0 && a == n then (if s.isRing then some n else none)
  else some a

/-- The segment at a port (R361). -/
def State.segOf (s : State) (p : Nat) : Option Nat := s.segIn (s.rd CHN_ADDR.COUNT) p

/-- The segments at this module's ports that are down, one bit each (R340, R361). -/
def State.segsDown (s : State) : Nat :=
  [0, 1].foldl (fun m p => match s.segOf p with | some j => if s.portUp p then m else Nat.lor m (2 ^ j) | none => m) 0

/-- A bitmap of down segments without those at this module's ports that are up again (R361). -/
def State.segsUp (s : State) (m : Nat) : Nat :=
  [0, 1].foldl (fun m p => match s.segOf p with | some j => if s.portUp p then setBits m j j 0 else m | none => m) m

/-- May routes and broadcasts cross segment j (R361)? -/
def State.segOpen (s : State) (j : Nat) : Bool :=
  !bitb s.chn.down j && (j != s.rd CHN_ADDR.UNUSED || s.rd CHN_ADDR.UNUSED == 0)

/-- May a broadcast leave by a port (R347)? TOPO frames cross the unused segment too, and go by the count they name. -/
def State.portOpen (s : State) (p : Nat) (f : Frame) : Bool :=
  s.portUp p && (match s.segIn (if f.mgmt 3 then bits f.arg 7 0 else s.rd CHN_ADDR.COUNT) p with
    | none => false
    | some j => s.segOpen j || f.anySegment)

/-- The segments from lo up to and without hi. -/
def segRange (lo hi : Nat) : List Nat := (upto (hi - lo)).map (· + lo)

/-- The segments on the way to an address by a port (R361), if there is such a way. -/
def State.segsTo (s : State) (p dst : Nat) : Option (List Nat) :=
  let a := s.chnAddr
  let n := s.rd CHN_ADDR.COUNT
  if p = 1 then
    if a < dst then some (segRange a dst)
    else if s.isRing then some (segRange a (n + 1) ++ segRange 1 dst) else none
  else if dst < a then some (segRange dst a)
  else if s.isRing then some (segRange 1 a ++ segRange dst (n + 1)) else none

/-- The one port whose path reaches an address without crossing a down or the unused segment, or the end of a LINE (R347,
R361). -/
def State.routeTo (s : State) (dst : Nat) : Option Nat :=
  if s.chnAddr = 0 || dst == s.chnAddr then none
  else [0, 1].find? (fun p => s.portUp p && (s.segOf p).isSome && (match s.segsTo p dst with | some l => l.all s.segOpen | none => false))

/-- The time port: the port on the path to the head (R361). -/
def State.timePort (s : State) : Option Nat := if s.isHead then none else s.routeTo 1

/-! Sending. -/

/-- The out port of a chain port. -/
def chainOut (p : Nat) : OutPort := if p = 0 then .chainU else .chainD

/-- Send a block's bytes at a port. -/
def State.sendBlock (s : State) (p : Nat) (bs : List Byte) : State := s.send (chainOut p) 0 bs

/-- A LACK block (R338). -/
def State.sendLack (s : State) (p lseq : Nat) (bad : Bool) : State :=
  s.sendBlock p [0x66, BitVec.ofNat 8 lseq, if bad then 1 else 0, 0, 0, 0, 0, 0]

/-- A TMARK block (R338): KIND 0 SYNC, 1 PDREQ, 2 PDRESP. -/
def State.sendTmark (s : State) (p kind seq : Nat) : State :=
  s.sendBlock p ([0x4B, BitVec.ofNat 8 kind] ++ toBytes 2 seq ++ [0, 0, 0, 0])

/-- A frame on the line: START with LSEQ, the frame's bytes, TERM with the CRC-32 (R343). -/
def State.sendFrame (s : State) (p lseq : Nat) (f : Frame) : State :=
  s.sendBlock p ([0x78, BitVec.ofNat 8 lseq, 0, 0, 0, 0, 0, 0] ++ f.bytes ++ [0x87] ++ toBytes 4 (crc32 f.bytes) ++ [0, 0, 0])

/-- The frame to start next (R349): the first of high priority, else the first. -/
def nextFrame (l : List Frame) : Option Frame :=
  match l.find? Frame.high with
  | some f => some f
  | none => l.head?

/-- Start waiting frames while fewer than 16 are unacknowledged (R348). -/
def State.chnPump (p : Nat) : Nat → State → State
  | 0, s => s
  | k + 1, s =>
    let c := s.chnPort p
    if 16 ≤ c.unacked.length || !s.portUp p then s
    else match nextFrame c.waiting with
    | none => s
    | some f =>
      let t := s.sendFrame p c.txSeq f
      State.chnPump p k (t.putChnPort p { c with
        waiting := c.waiting.erase f
        unacked := c.unacked ++ [⟨c.txSeq, f, false, s.fabNow⟩]
        txSeq := (c.txSeq + 1) % 256 })

/-- Hand a frame to a port's fabric. -/
def State.chnQueue (s : State) (p : Nat) (f : Frame) : State :=
  if s.portUp p then
    let c := s.chnPort p
    State.chnPump p 16 (s.putChnPort p { c with waiting := c.waiting ++ [f] })
  else s

/-- Send a frame: a broadcast through both ports, any other by its route (R347); without a way it is not sent. -/
def State.chnSend (s : State) (f : Frame) : State :=
  if f.dst = 255 then
    [0, 1].foldl (fun t p => if t.portOpen p f then t.chnQueue p f else t) s
  else match s.routeTo f.dst with
  | some p => s.chnQueue p f
  | none => s

/-- The role epoch of a module as this one knows it (R354); 0 while it knows none. -/
def State.epochOf (s : State) (a : Nat) : Nat := SMap.get (fun _ => 0) s.chn.epochs a

/-- A frame of this module (R344), with the next TAG. -/
def State.mkFrame (s : State) (cls dst depoch sub arg h2 : Nat) (enc : Bool) (len : Nat) (body : List Byte) : Frame × State :=
  (⟨cls + 16 + dst * 2 ^ 8 + s.chnAddr * 2 ^ 16 + depoch * 2 ^ 24 + s.rd CHN_EPOCH.EPOCH * 2 ^ 40 + b2n enc * 2 ^ 56,
    len + sub * 2 ^ 12 + s.chn.tag * 2 ^ 16 + arg % 2 ^ 32 * 2 ^ 32, h2 % 2 ^ 64, body⟩,
   { s with chn.tag := (s.chn.tag + 1) % 65536 })

/-- Build a frame in the clear and send it by its route. -/
def State.chnPost (s : State) (cls dst sub arg h2 : Nat) (payload : List Byte) : State :=
  let (f, t) := s.mkFrame cls dst (s.epochOf dst) sub arg h2 false payload.length (pad8 payload)
  t.chnSend f

/-- Build a hop-local frame and send it at a port. -/
def State.chnHop (s : State) (p cls sub arg h2 : Nat) (payload : List Byte) : State :=
  let (f, t) := s.mkFrame cls 0 0 sub arg h2 false payload.length (pad8 payload)
  t.chnQueue p f

/-! Keys (R351, R451). -/

/-- The nonce of an encrypted frame (R351). -/
def gcmNonce (h2 src dst : Nat) : List Byte :=
  (toBytes 7 (h2 % 2 ^ 56)).reverse ++ [BitVec.ofNat 8 src, BitVec.ofNat 8 dst, BitVec.ofNat 8 (h2 / 2 ^ 56), 0, 0]

/-- A key as used last: it takes the place of the one it was, as the most recently used (R451). -/
def State.keyUsed (s : State) (k : SessKey) : State :=
  let l : List SessKey := s.chn.keys.filter (fun y => !(y.peer == k.peer && y.num == k.num))
  { s with chn.keys := l ++ [k] }

/-- Send a frame encrypted under the key (dst, K), whose counter advances; without the key nothing is sent, and a key at
its last counter sends nothing (R351, R451). -/
def State.chnPostEnc (s : State) (cls dst sub arg k : Nat) (payload : List Byte) : State :=
  match s.chn.keys.find? (fun x => x.peer == dst && x.num == k) with
  | none => s
  | some x =>
    if x.tx = 2 ^ 56 - 1 then s
    else
      let h2 := x.tx + 1 + k * 2 ^ 56
      let (f, t) := s.mkFrame cls dst (s.epochOf dst) sub arg h2 true payload.length []
      let sealed := Config.gcmSeal x.key (gcmNonce h2 f.src dst) f.header (pad8 payload)
      let t := t.keyUsed { x with tx := x.tx + 1 }
      t.chnSend { f with body := sealed }

/-- Install a key (R451): one of the same peer and K is replaced, and the least recently used of 16 is evicted. -/
def State.installKey (s : State) (k : SessKey) : State :=
  let l := s.chn.keys.filter (fun y => !(y.peer == k.peer && y.num == k.num))
  { s with chn.keys := (if l.length < 16 then l else l.drop 1) ++ [k] }

/-- Count a frame dropped for its encryption (R351). -/
def State.authFail (s : State) : State := s.bump CHN_AUTHFAIL_CNT.COUNT

/-- The right a class needs (R450). -/
def Frame.right (f : Frame) : Option Nat :=
  if f.cls = clsMsg then some 0 else if f.mgmt 8 then some 1 else if f.cls = clsRecipe then some 2
  else if f.cls = clsDebug then some 3 else none

/-- Decrypt a received frame (R351, R450): its plaintext and rights, or none for a drop. -/
def State.chnOpen (s : State) (f : Frame) : Option (List Byte × Nat) × State :=
  let k := f.h2 / 2 ^ 56
  let ctr := f.h2 % 2 ^ 56
  match s.chn.keys.find? (fun x => x.peer == f.src && x.num == k) with
  | none => (none, s.authFail)
  | some x =>
    if ctr ≤ x.rx then (none, s.authFail)
    else match Config.gcmOpen x.key (gcmNonce f.h2 f.src f.dst) f.header f.body with
    | none => (none, s.authFail)
    | some text =>
      let held := match f.right with | some r => bitb x.rights r | none => false
      let t := s.keyUsed { x with rx := ctr }
      if held then (some (text.take f.len, x.rights), t) else (none, t.authFail)

/-! NAKs and drops. -/

/-- Send a NAK for a refused frame (R356). -/
def State.chnNak (s : State) (f : Frame) (reason done : Nat) : State :=
  if f.dst = 255 || f.cls == clsNak || f.src == 0 then s
  else
    let arg := f.tag + f.cls * 2 ^ 16 + reason * 2 ^ 20 + done * 2 ^ 24
    let (g, t) := s.mkFrame clsNak f.src f.sepoch 0 arg 0 false 0 []
    t.chnSend g

abbrev nakStale : Nat := 1
abbrev nakDenied : Nat := 2
abbrev nakNoobj : Nat := 3
abbrev nakQfull : Nat := 4
abbrev nakQoff : Nat := 5
abbrev nakRestart : Nat := 6
abbrev nakSecure : Nat := 7
abbrev nakLull : Nat := 8

/-- The ARG bits, the HDR2 bits and the LEN that R346 gives a MGMT subclass: masks of the bits it names, least and greatest
LEN. -/
def mgmtForm (sub : Nat) : Option (Nat × Nat × Nat × Nat) :=
  match sub with
  | 0x0 => some (0, 0xFF, 0, 0)
  | 0x1 => some (1, 2 ^ 64 - 1, 0, 0)
  | 0x2 => some (0xFF, 0, 0, 0)
  | 0x3 => some (0x1FF, 0xFFFFFFFFFF, 32, 32)
  | 0x4 => some (0, 0, 32, 32)
  | 0x5 => some (0xFFFF, 0, 1, 2048)
  | 0x6 => some (0, 2 ^ 64 - 1, 32, 32)
  | 0x7 => some (0xFF, 0, 0, 0)
  | 0x8 => some (3, 2 ^ 64 - 1, 8, 8)
  | 0xA => some (0xFF, 0, 0, 2048)
  | _ => none

/-- Has v no bit outside a mask? -/
def within (v mask : Nat) : Bool := Nat.land v mask == v

/-- Is the subclass defined, with the fields its class leaves at zero zero (R346, R350, R356, R357)? -/
def Frame.formOk (f : Frame) : Bool :=
  if f.cls = clsTime then decide (f.sub < 2) && !f.enc
  else if f.cls = clsMsg then
    if f.sub = 0 then (if f.enc then f.len == 72 else f.len == 64 && decide (f.h2 < 2 ^ 32))
    else f.sub == 1 && decide (64 ≤ f.len) && f.len % 64 == 0 && (f.enc || f.h2 == 0)
  else if f.cls = clsSnap then f.sub == 0 && !f.enc
  else if f.cls = clsRecipe then decide (f.sub < 4)
  else if f.cls = clsMgmt then
    match mgmtForm f.sub with
    | none => false
    | some (a, h, lo, hi) =>
      within f.arg a && within f.h2 h && decide (lo ≤ f.len) && decide (f.len ≤ hi) && (f.enc == (f.sub == 8)) &&
        !(f.sub == 8 && f.arg == 3)
  else if f.cls = clsDebug then decide (f.sub < 2)
  else f.cls == clsNak && f.sub == 0 && f.len == 0 && decide (f.arg < 2 ^ 30)

/-- Is a frame dropped without a NAK (R350)? -/
def State.frameBad (s : State) (f : Frame) : Bool :=
  f.ver != 1 || decide (2048 < f.len) || bits f.h0 63 57 != 0 || (f.hopLocal && f.dst != 0) ||
  (!f.hopLocal && (f.dst == 0 || (f.src == 0 && s.rd CHN_ADDR.COUNT != 0))) || !f.formOk

/-- The lifecycle state (R452): 0 BLANK, 1 PROVISIONED, 2 DEPLOYED, 3 SERVICE, 4 RETIRED. -/
def State.lifecycle (s : State) : Nat :=
  if s.sec.retired then 4 else if s.sec.n = 0 then 0 else if s.sec.n = 1 then 1 else if s.sec.n % 2 = 0 then 2 else 3

/-- May the device key be used (R446, R454)? -/
def State.keyUsable (s : State) : Bool := s.lifecycle != 0 && s.lifecycle != 4

/-- Is address a marked as authenticated (R353)? -/
def State.trusted (s : State) (a : Nat) : Bool := bitb (s.rd (CHN_TRUST.TRUST (a / 32))) (a % 32)

/-- Is a frame's DEPOCH checked (R345, R346)? -/
def State.epochChecked (s : State) (f : Frame) : Bool :=
  f.cls == clsMsg || f.cls == clsDebug || f.cls == clsNak || f.mgmt 8 || f.mgmt 10 ||
  (f.cls == clsRecipe && !(f.sub == 0 && s.inLull))

/-- Is a frame consumed only from an authenticated source (R353)? -/
def State.trustChecked (s : State) (f : Frame) : Bool :=
  f.cls == clsMsg || f.cls == clsDebug || f.mgmt 8 || (f.cls == clsRecipe && !s.inLull)

/-- A frame joins those the module is to consume; under Frost at most 32 wait for the Chain Controller (R365), while the fabric
takes TIME frames as ever (R358). -/
def State.chnArrive (s : State) (r : RxFrame) : State :=
  if s.frost && r.frame.cls != clsTime && decide (32 ≤ (s.chn.rx.filter (fun x => x.frame.cls != clsTime)).length) then
    s.bump CHN_LOST_CNT.COUNT
  else { s with chn.rx := s.chn.rx ++ [r] }

/-- A frame addressed to this module: decryption, the Chain Controller's restart, the role epoch, the lifecycle state, the source's
authentication (R351, R365, R355, R454, R353, R345, R366, R466), in this order. -/
def State.chnConsume (s : State) (p : Nat) (f : Frame) : State :=
  let (opened, s) := if f.enc then s.chnOpen f else (some (f.body.take f.len, 0), s)
  match opened with
  | none => s
  | some (text, rights) =>
    let s := if f.src = 0 then s else { s with chn.epochs := SMap.set (fun _ => 0) s.chn.epochs f.src f.sepoch }
    let r : RxFrame := ⟨p, f, text, if f.enc then some rights else none, s.time⟩
    if f.cls = clsTime then s.chnArrive r
    else if s.isOn CHN_STAT.CC_RESTART then s.chnNak f nakRestart 0
    else if s.epochChecked f && f.depoch != s.rd CHN_EPOCH.EPOCH then (s.bump CHN_STALE_CNT.COUNT).chnNak f nakStale 0
    else if !s.keyUsable && (s.trustChecked f || f.cls == clsRecipe) then s
    else if s.trustChecked f && !s.trusted f.src then s.chnNak f nakDenied 0
    else if f.cls = clsMsg && s.isOn CHN_CTL.ENC_REQ && !f.enc then s.chnNak f nakSecure 0
    else if f.cls = clsMsg && f.sub == 0 && f.enc && ofBytes ((text.drop 4).take 4) != 0 then s.bump CHN_DROP_CNT.COUNT
    else if f.cls = clsDebug && f.sub == 0 && !f.enc then s
    else s.chnArrive r

/-- Forward a frame that came in at a port (R347): a broadcast out of the opposite port, another by its route. -/
def State.chnForward (s : State) (p : Nat) (f : Frame) : State :=
  if f.dst = 255 then (if s.portOpen (1 - p) f then s.chnQueue (1 - p) f else s)
  else match s.routeTo f.dst with
  | some q => s.chnQueue q f
  | none => s

/-- The oldest frame to consume that satisfies a test. -/
def State.popRx (s : State) (want : RxFrame → Bool) : Option (RxFrame × State) :=
  match s.chn.rx.find? want with
  | none => none
  | some r => some (r, { s with chn.rx := s.chn.rx.erase r })

/-- The Chain Controller handles the oldest frame that satisfies a test; not while it restarts or is paused (R365). -/
def State.ccTake (s : State) (want : RxFrame → Bool) : Option (RxFrame × State) :=
  if s.frost || s.isOn CHN_STAT.CC_RESTART then none else s.popRx want

/-- The wake pattern (R342). -/
def State.sendWake (s : State) (p : Nat) : State := s.send (chainOut p) 1 [0x00, 0xFF]

/-- Set an interrupt bit of the chain. -/
def State.chnIrq (s : State) (f : Fld) : State := s.on f

/-- The role epoch advances, skipping 0 (R354). -/
def State.bumpEpoch (s : State) : State :=
  s.wr CHN_EPOCH.EPOCH (if (s.rd CHN_EPOCH.EPOCH + 1) % 65536 = 0 then 1 else s.rd CHN_EPOCH.EPOCH + 1)

/-- The master copy is stepped to a value in sixteenths; the fabric counter and Trifle's clock run on (R359), and so do the
intervals of the Lattice's ticks; round boundaries are where they are in the new time (R22). -/
def State.stepTime (s : State) (t : Nat) : State :=
  { s with
    chn.fabOff := s.chn.fabOff + s.time - t
    sch.roundStart := t / s.roundLen * s.roundLen
    lat.scrubAt := s.lat.scrubAt + t - s.time
    lat.copyAt := s.lat.copyAt + t - s.time
    time := t }

/-- CHN_STAT.TOPO (R366): 1 RING, 2 SPLIT LINE, 0 LINE. -/
def State.topoField (s : State) : State :=
  s.wr CHN_STAT.TOPO (if s.isRing then 1 else if s.chn.down != 0 then 2 else 0)

/-- CHN_STAT.LOCK takes a value, and is 1 at a head in every case (R359); a change sets the interrupt bit. -/
def State.setLock (s : State) (b : Bool) : State :=
  let b := b || s.isHead
  if s.isOn CHN_STAT.LOCK = b then s else (s.put CHN_STAT.LOCK b).chnIrq CHN_IRQ.LOCK

/-- A TOPO frame, with the bitmap of down segments (R346). -/
def State.topoSend (s : State) (n : Nat) : State :=
  s.chnPost clsMgmt 255 3 (n + b2n s.isRing * 256) (s.chn.topoGen % 2 ^ 32 * 256 + s.rd CHN_ADDR.UNUSED) (toBytes 32 s.chn.down)

/-- The trust bitmap, as a number. -/
def State.trustMap (s : State) : Nat := (upto 8).foldl (fun m k => m + s.rd (CHN_TRUST.TRUST k) * 2 ^ (32 * k)) 0

/-- The trust bitmap is replaced; CHN_STAT.TRUSTED follows (R353). -/
def State.putTrust (s : State) (m : Nat) : State :=
  let t := (upto 8).foldl (fun t k => t.wr (CHN_TRUST.TRUST k) (m / 2 ^ (32 * k))) s
  let t := t.put CHN_STAT.TRUSTED (bitb m s.chnAddr)
  if m % 2 ^ 256 = s.trustMap then t else t.chnIrq CHN_IRQ.ENUM

end Sys2Proof.Machine
end

