-- ==== Sys2Proof/Machine/Image.lean ====
section
/-! DEFINITION. Machine/Image.lean: the fields of images in memory: the recipe's directory (R439), the boot record (R430), the
line trust anchor of the recipe (R440). -/

namespace Sys2Proof.Machine

/-- A little-endian field of bytes. -/
def fieldOf (bs : List Byte) (off n : Nat) : Nat := ofBytes ((bs.drop off).take n)

/-- Are n bytes from an offset zero? -/
def zeroAt (bs : List Byte) (off n : Nat) : Bool := ((bs.drop off).take n).all (· == 0)

/-- One directory entry (R439). -/
structure DirEnt where
  type : Nat
  off : Nat
  len : Nat
  hash : List Byte
deriving DecidableEq, Repr

/-- Directory entry i of a recipe header. -/
def dirEnt (h : List Byte) (i : Nat) : DirEnt :=
  let e := 0x60 + 48 * i
  ⟨fieldOf h e 2, fieldOf h (e + 4) 4, fieldOf h (e + 8) 4, (h.drop (e + 16)).take 32⟩

/-- The sections of a recipe header. -/
def recipeDir (h : List Byte) : List DirEnt := (upto (fieldOf h 6 2)).map (dirEnt h)

abbrev bootRecAt : Nat := 0x20000F80

/-- The 128 bytes of the boot record, as Toffee's decoder delivers them (R30). -/
def State.bootRec (s : State) : List Byte := (s.eccRead bootRecAt 128).1

/-- A command goes to a flash device in 1S-1S-1S after 0x06, with an address, highest byte first, and a data byte where it has
them (R438, R443). -/
def State.sendFlash (s : State) (dev op : Nat) (addr data : Option Nat) : State :=
  (s.send .flash dev [0x06]).send .flash dev ([BitVec.ofNat 8 op] ++
    (match addr with | some a => (toBytes 4 a).reverse | none => []) ++
    (match data with | some d => [BitVec.ofNat 8 d] | none => []))

/-- The line trust anchor of the module's recipe, the image that the boot record names (R353, R430, R440); empty where it cannot
be read. -/
def State.trustAnchor (s : State) : List Byte × State :=
  let base := fieldOf s.bootRec 8 8
  match s.dataReads 10 base 4096 with
  | (none, t) => ([], t)
  | (some h, t) =>
    match (recipeDir h).find? (fun e => e.type == 5) with
    | none => ([], t)
    | some e =>
      match t.dataReads 10 (base + e.off) e.len with
      | (none, u) => ([], u)
      | (some bs, u) => ((bs.drop 0x8C).take (fieldOf bs 0x88 4), u)

end Sys2Proof.Machine
end

