-- ==== Sys2Proof/Machine/Chain.lean ====
section
/-! DEFINITION. Machine/Chain.lean: the port fabric and the Chain Controller: links, time, enumeration, authentication,
sessions, remote messages, snapshots, chain resets (R339 to R366, R449 to R451). -/

namespace Sys2Proof.Machine

/-- Do the ports run (R414, R415)? -/
def State.chnPowered (s : State) : Bool := s.pwr.state == .run || s.pwr.state == .idle

/-! Links. -/

/-- A frame handed to the fabric of a port whose segment went down is lost; frames not yet started take the new route
(R361). -/
def State.dropPort (s : State) (p : Nat) : State :=
  let c := s.chnPort p
  let s := s.gain CHN_LOST_CNT.COUNT c.unacked.length
  let s := s.putChnPort p { c with unacked := [], waiting := [], fails := 0, rxLast := none }
  c.waiting.foldl (fun t f => if f.hopLocal || f.dst == 255 then t else t.chnSend f) s

/-- A segment goes down at a port (R340, R361): in a ring, a segment other than the unused one becomes the unused one, and TOPO names
it as down; one that was down before and is up again carries everything (log entry 97). -/
def State.segmentDown (s : State) (p : Nat) : State :=
  if !s.portUp p then s
  else
    let s := (s.off (if p = 0 then CHN_STAT.UP_U else CHN_STAT.UP_D)).chnIrq CHN_IRQ.LINK
    let s := match s.segOf p with
      | none => s
      | some j =>
        if s.isRing && j != s.rd CHN_ADDR.UNUSED then
          let s := ({ s with chn.topoGen := s.chn.topoGen + 1, chn.down := s.segsDown }).wr CHN_ADDR.UNUSED j
          s.topoSend (s.rd CHN_ADDR.COUNT)
        else { s with chn.down := Nat.lor (s.segsUp s.chn.down) (2 ^ j) }
    (s.topoField).dropPort p

/-- A sent frame fails (R348): once it is sent again; a second failure drops it, and three such frames take the segment
down (R340). -/
def State.txFail (s : State) (p : Nat) (x : TxFrame) : State :=
  let c := s.chnPort p
  if x.retried then
    let n := c.fails + 1
    let s := (s.putChnPort p { c with unacked := c.unacked.erase x, fails := n }).bump CHN_LINKERR_CNT.COUNT
    if 3 ≤ n then s.segmentDown p else s.chnPump p 16
  else
    (s.putChnPort p { c with unacked := c.unacked.map (fun y => if y == x then { x with retried := true, sentAt := s.fabNow } else y) }).sendFrame
      p x.lseq x.frame

/-- LACK (R348): the acknowledgement of a sent frame. -/
def execLack (port : Fin 2) (lseq : BitVec 8) (good : Bool) (s : State) : Res :=
  let p := port.val
  let c := s.chnPort p
  if !s.chnPowered then next s
  else match c.unacked.find? (fun x => x.lseq == lseq.toNat) with
  | none => next s
  | some x =>
    if good then next (State.chnPump p 16 (s.putChnPort p { c with unacked := c.unacked.erase x, fails := 0 }))
    else next (s.txFail p x)

/-- The frame sent first of those that wait for a LACK. -/
def firstSent : List TxFrame → Option TxFrame
  | [] => none
  | x :: t => match firstSent t with
    | some y => some (if y.sentAt < x.sentAt then y else x)
    | none => some x

/-- LACK_TIMEOUT (R348): the unacknowledged frame whose 4 µs end first has not been acknowledged. -/
def execLackTimeout (port : Fin 2) (s : State) : Res :=
  if !s.chnPowered then next s
  else match firstSent (s.chnPort port).unacked with
  | none => next s
  | some x => next ((s.fabUntil (x.sentAt + 64000)).txFail port x)

/-- Send MGMT HELLO (R346, R352). -/
def State.sendHello (s : State) (p : Nat) : State :=
  if s.portUp p then s.chnHop p clsMgmt 1 (s.rd CHN_STAT.LOCK) s.now [] else s

/-- A module takes an address (R352, R354); the session keys of a module whose address changes are lost (R451). -/
def State.takeAddr (s : State) (n : Nat) : State :=
  if s.chnAddr = n then s
  else { (((s.wr CHN_ADDR.ADDR n).bumpEpoch).chnIrq CHN_IRQ.ENUM) with chn.keys := [], chn.sess := [] }

/-- The head challenges a module (R353) with a random nonce. -/
def State.challenge (s : State) (a : Nat) : State :=
  let (v, s) := s.fresh 256
  let nonce := toBytes 32 v
  let s := { s with
    chn.nonces := (a, nonce) :: s.chn.nonces.filter (fun x => x.1 != a)
    chn.certs := s.chn.certs.filter (fun x => x.1 != a) }
  s.chnPost clsMgmt a 4 0 0 nonce

/-- Enumeration ends at the head with the last address (R352, R361): every segment on its way is up; the topology is broadcast,
and every module is challenged, for any may have a new or changed address (R353, log entry 84). -/
def State.enumDone (s : State) (n : Nat) : State :=
  let s := ((s.off CHN_STAT.ENUM_BUSY).wr CHN_ADDR.COUNT n).wr CHN_ADDR.UNUSED (if s.isRing then n else 0)
  let s := ({ s with chn.topoGen := s.chn.topoGen + 1, chn.down := s.segsDown }).topoField
  let s := (s.topoSend n).chnIrq CHN_IRQ.LINK
  (segRange 2 (n + 1)).foldl State.challenge s

/-- The head starts enumeration (R352). -/
def State.enumStart (s : State) : State :=
  if !s.isHead then s
  else
    let s := ({ s with chn.excess := false }.on CHN_STAT.ENUM_BUSY).takeAddr 1
    if s.portUp 1 then s.chnHop 1 clsMgmt 0 0 2 [] else s.enumDone 1

/-- PORT_UP (R339): both lanes locked and deskewed and 1,000 µs free of block errors. In a ring, a segment that was down goes on as
an unused one (R361). -/
def execPortUp (port : Fin 2) (s : State) : Res :=
  let p := port.val
  if s.portUp p || !s.chnPowered then next s
  else
    let s := (s.on (if p = 0 then CHN_STAT.UP_U else CHN_STAT.UP_D)).chnIrq CHN_IRQ.LINK
    let s := if s.isRing then s else { s with chn.down := s.segsUp s.chn.down }
    let s := s.topoField
    let s := if s.chnAddr = 0 then (s.sendHello 0).sendHello 1 else s
    next (if p = 1 then s.enumStart else s)

/-- SEGMENT_DOWN (R340): lock is lost at a port and not regained within 10 µs. -/
def execSegmentDown (port : Fin 2) (s : State) : Res := next (s.segmentDown port)

/-- FRAME_FORWARD (R347): a frame whose TERM has been checked arrives: acknowledged (R348), and consumed, forwarded or
dropped. -/
def execFrameForward (port : Fin 2) (lseq : BitVec 8) (bytes : List Byte) (good : Bool) (s : State) : Res :=
  let p := port.val
  if !s.portUp p then next s
  else if !good then next (s.sendLack p lseq.toNat true)
  else
    let s := s.sendLack p lseq.toNat false
    let c := s.chnPort p
    if c.rxLast = some lseq.toNat then next s
    else
      let s := s.putChnPort p { c with rxLast := some lseq.toNat }
      let f := frameOf bytes
      if s.frameBad f then next (s.bump CHN_DROP_CNT.COUNT)
      else if f.hopLocal then next (s.chnConsume p f)
      else if f.dst = s.chnAddr then next (s.chnConsume p f)
      else if f.dst = 255 then next ((s.chnForward p f).chnConsume p f)
      else next (s.chnForward p f)

/-! Chain time. -/

/-- PEER_DELAY (R358): a port that is up sends TMARK PDREQ. -/
def execPeerDelay (port : Fin 2) (s : State) : Res :=
  let p := port.val
  if !s.portUp p then next s
  else
    let c := s.chnPort p
    next ((s.putChnPort p { c with pdSeq := (c.pdSeq + 1) % 65536, t1 := s.fabNow }).sendTmark p 1 c.pdSeq)

/-- PDREQ (R358): the peer's PDREQ is stamped and answered, t3 − t2 sixteenths later. -/
def execPdreq (port : Fin 2) (seq : BitVec 16) (turn : BitVec 64) (s : State) : Res :=
  let p := port.val
  if !s.portUp p then next s
  else next ((s.sendTmark p 2 seq.toNat).chnHop p clsTime 1 0 0 (toBytes 8 turn.toNat))

/-- The mean of a list of delays, rounded down. -/
def meanOf (l : List Int) : Int := l.foldl (· + ·) 0 / (l.length : Int)

/-- PDRESP (R358): the PDRESP that arrived at fabric time t4, with its frame. -/
def execPdresp (port : Fin 2) (t4 : BitVec 64) (s : State) : Res :=
  let p := port.val
  match s.popRx (fun r => r.port == p && r.frame.cls == clsTime && r.frame.sub == 1) with
  | none => next s
  | some (r, s) =>
    let c := s.chnPort p
    let d : Int := (((t4.toNat : Int) - c.t1) - asInt (ofBytes (r.text.take 8)) 64) / 2
    let l := (d :: c.delays).take 8
    next ((s.putChnPort p { c with delays := l }).wr (if p = 0 then CHN_TDLY_U.DELAY else CHN_TDLY_D.DELAY) (ofInt (meanOf l) 32))

/-- The link delay of a port, in sixteenths. -/
def State.linkDelay (s : State) (p : Nat) : Int :=
  asInt (s.rd (if p = 0 then CHN_TDLY_U.DELAY else CHN_TDLY_D.DELAY)) 32

/-- Send a SYNC at a port, if it is up (R358). -/
def State.sendSync (s : State) (p ts : Nat) (corr : Int) : State :=
  if !s.portUp p then s
  else
    let c := s.chnPort p
    let s := (s.putChnPort p { c with pdSeq := (c.pdSeq + 1) % 65536 }).sendTmark p 0 c.pdSeq
    s.chnHop p clsTime 0 0 ts (toBytes 8 (ofInt corr 64))

/-- SYNC_SEND (R358): the head's SYNC out of each port whose segment is up and is not the unused one. -/
def execSyncSend (s : State) : Res :=
  let used := fun p => match s.segOf p with | none => false | some j => j != s.rd CHN_ADDR.UNUSED
  if s.isHead then next (([0, 1].filter used).foldl (fun t p => t.sendSync p s.now (s.time % 16 : Nat)) s) else next s

/-- The Ribbon PLL is steered at a SYNC, and REF is measured while locked (R359, R445): by how much the spec does not say. -/
def State.steer (s : State) : State :=
  let (v, s) := s.fresh 32
  let (e, s) := s.fresh 32
  (s.wr CLK_RSTEER.STEER (ofInt ((v % 200001 : Nat) - 100000) 32)).when (s.isOn CHN_STAT.LOCK) (fun t => t.wr CLK_REFERR.ERR e)

/-- TIME_SYNC (R358, R359): a SYNC on the time port, whose TMARK arrived when the master copy stood at `stamp`, and which
leaves again `residence` later in fabric time, both in sixteenths. -/
def execTimeSync (port : Fin 2) (stamp residence : BitVec 64) (s : State) : Res :=
  let p := port.val
  match s.popRx (fun r => r.port == p && r.frame.cls == clsTime && r.frame.sub == 0) with
  | none => next s
  | some (r, s) =>
    if s.timePort != some p then next s
    else
      let ts := r.frame.h2
      let corr := asInt (ofBytes (r.text.take 8)) 64
      let d := s.linkDelay p
      let est : Int := 16 * (ts : Int) + corr + d
      let off : Int := stamp.toNat - est
      let s := s.sendSync (1 - p) ts (corr + d + residence.toNat)
      let s := s.wr CHN_TOFF.OFFSET (ofInt off 32)
      let s := if s.schIs schStopped && decide (16000 < off.natAbs) then (s.stepTime ((s.time : Int) - off).toNat).steer else s.steer
      let n : Nat := if off.natAbs ≤ 64 then min 16 (s.chn.good + 1) else 0
      let s := { s with chn.good := n, chn.syncAt := s.refNow }
      next (if 800 < off.natAbs then s.setLock false else if n = 16 then s.setLock true else s)

/-- SYNC_TIMEOUT (R359): 2,000 µs without a SYNC. -/
def execSyncTimeout (s : State) : Res :=
  if s.isHead then next s
  else next ({ s.fabUntil (16 * (s.chn.syncAt + 2000000)) with chn.good := 0 }.setLock false)

/-- HELLO_LISTEN (R359): the end of a head's listening after a cold reset; chain time is stepped only while the sequencer is
STOPPED (R155). -/
def execHelloListen (s : State) : Res :=
  match s.chn.listen with
  | none => next s
  | some (end_, best) =>
    let s := { s.fabUntil (16 * end_) with chn.listen := none }
    next (match best with
      | some off => if s.schIs schStopped then s.stepTime ((s.time : Int) + off).toNat else s.steer
      | none => s)

/-- CHN_TSET (R366): a write of CHN_TSET_HI. -/
def execChnTset (hi : BitVec 32) (s : State) : Res :=
  if s.isHead && s.schIs schStopped then
    next ((s.wr CHN_TSET_HI.T hi.toNat).stepTime (16 * (s.rd CHN_TSET_LO.T + hi.toNat * 2 ^ 32)))
  else next s

/-! Enumeration and topology. -/

/-- ENUM (R366): CHN_CMD with OP ENUM. -/
def execEnum (s : State) : Res := next s.enumStart

/-- MGMT_ENUM (R352): ENUM on port U; at the head it ends the enumeration of a ring. The module of the last address reports it,
also when it has offered 251 to one that takes none (log entry 85). -/
def execMgmtEnum (s : State) : Res :=
  match s.ccTake (fun r => r.frame.mgmt 0) with
  | none => next s
  | some (r, s) =>
    let n := bits r.frame.h2 7 0
    if r.port != 0 then next s
    else if s.isHead then next (s.enumDone (n - 1))
    else if n = 0 || decide (251 ≤ n) then next s
    else
      let s := s.takeAddr n
      let s := if s.portUp 1 then s.chnHop 1 clsMgmt 0 0 (n + 1) [] else s
      next (if s.portUp 1 && n != 250 then s else s.chnPost clsMgmt 1 2 n 0 [])

/-- HELLO (R352, R353, R359): at the head. -/
def execHello (s : State) : Res :=
  match s.ccTake (fun r => r.frame.mgmt 1) with
  | none => next s
  | some (r, s) =>
    if !s.isHead then next s
    else
      let s := match s.chn.listen with
        | some (e, none) =>
          if bitb r.frame.arg 0 then
            { s with chn.listen := some (e, some (16 * (r.frame.h2 : Int) + s.linkDelay r.port - r.at16)) }
          else s
        | _ => s
      let full := s.rd CHN_ADDR.COUNT == 250
      next (if r.frame.src = 0 then { s.enumStart with chn.excess := full } else s.challenge r.frame.src)

/-- ENUM_END (R352): at the head. -/
def execEnumEnd (s : State) : Res :=
  match s.ccTake (fun r => r.frame.mgmt 2) with
  | none => next s
  | some (r, s) => next (if s.isHead && s.isOn CHN_STAT.ENUM_BUSY then s.enumDone (bits r.frame.arg 7 0) else s)

/-- TOPO (R361): the topology of the highest generation; a module with a recipe then verifies the head (R353). -/
def execTopo (s : State) : Res :=
  match s.ccTake (fun r => r.frame.mgmt 3) with
  | none => next s
  | some (r, s) =>
    let gen := bits r.frame.h2 39 8
    if gen ≤ s.chn.topoGen then next s
    else
      let fresh := s.rd CHN_ADDR.COUNT != bits r.frame.arg 7 0
      let s := (s.wr CHN_ADDR.COUNT (bits r.frame.arg 7 0)).wr CHN_ADDR.UNUSED (bits r.frame.h2 7 0)
      let s := { s with chn.topoGen := gen, chn.down := s.segsUp (ofBytes (r.text.take 32)) }
      let s := (s.topoField).chnIrq CHN_IRQ.LINK
      next (if fresh && !s.isHead && !s.inLull && s.keyUsable && s.chnAddr != 0 then s.challenge 1 else s)

/-- The parts of a byte string, of at most 2,048 bytes each. -/
def chunksOf : Nat → List Byte → List (List Byte)
  | 0, _ => []
  | f + 1, bs => if bs = [] then [] else bs.take 2048 :: chunksOf f (bs.drop 2048)

/-- CHAL (R353): the challenged module answers with its certificate chain and a signature over nonce, address, role epoch
and serial number; not in BLANK or RETIRED (R454). -/
def execChal (s : State) : Res :=
  match s.ccTake (fun r => r.frame.mgmt 4) with
  | none => next s
  | some (r, s) =>
    if !s.keyUsable then next s
    else
      let msg := r.text ++ toBytes 1 s.chnAddr ++ toBytes 2 (s.rd CHN_EPOCH.EPOCH) ++ toBytes 8 s.sec.serial.toNat
      let parts := chunksOf 256 (s.sec.cert ++ Config.deviceSign msg)
      next ((parts.zip (upto parts.length)).foldl (fun t x =>
        t.chnPost clsMgmt r.frame.src 5 (x.2 + parts.length * 256) 0 x.1) s)

/-- CERT (R353): with every part received, the certificate and signature are verified; the head marks the module as
authenticated, and itself, and broadcasts TRUST. -/
def execCert (s : State) : Res :=
  match s.ccTake (fun r => r.frame.mgmt 5) with
  | none => next s
  | some (r, s) =>
    let a := r.frame.src
    let n := bits r.frame.arg 15 8
    match s.chn.nonces.find? (fun x => x.1 == a) with
    | none => next s
    | some (_, nonce) =>
      let s := { s with chn.certs := (a, bits r.frame.arg 7 0, r.text) ::
        s.chn.certs.filter (fun x => !(x.1 == a && x.2.1 == bits r.frame.arg 7 0)) }
      let got := (upto n).map (fun i => (s.chn.certs.find? (fun x => x.1 == a && x.2.1 == i)).map (·.2.2))
      if got.any Option.isNone then next s
      else
        let cert := (got.filterMap id).flatten
        let s := { s with chn.nonces := s.chn.nonces.filter (fun x => x.1 != a), chn.certs := s.chn.certs.filter (fun x => x.1 != a) }
        let (anchor, s) := s.trustAnchor
        if s.isHead && Config.certVerify anchor cert nonce a r.frame.sepoch then
          let s := { s.putTrust (Nat.lor s.trustMap (Nat.lor (2 ^ a) 2)) with chn.trustGen := s.chn.trustGen + 1 }
          next (s.chnPost clsMgmt 255 6 0 s.chn.trustGen (toBytes 32 s.trustMap))
        else next s

/-- TRUST (R353): the bitmap of the highest generation. -/
def execTrust (s : State) : Res :=
  match s.ccTake (fun r => r.frame.mgmt 6) with
  | none => next s
  | some (r, s) =>
    if r.frame.h2 ≤ s.chn.trustGen then next s
    else next { s.putTrust (ofBytes (r.text.take 32)) with chn.trustGen := r.frame.h2 }

/-- MGMT_WAKE (R346). -/
def execMgmtWake (s : State) : Res :=
  match s.ccTake (fun r => r.frame.mgmt 7) with
  | none => next s
  | some (r, s) =>
    if !s.trusted r.frame.src then next s
    else
      let a := bits r.frame.arg 7 0
      if a = s.chnAddr then next (if s.pwr.state == .idle then { s with pwr.wakeChain := true } else s)
      else
        let isDown := fun p => (s.segOf p).isSome && !s.portUp p
        let n := s.rd CHN_ADDR.COUNT
        let across := fun p =>
          if p = 1 then (if s.isRing && n == s.chnAddr then 1 else s.chnAddr + 1)
          else if s.chnAddr = 1 then n else s.chnAddr - 1
        next ([0, 1].foldl (fun t p => if isDown p && across p == a then t.sendWake p else t) s)

/-- WAKE_U (R342): CHN_CMD with OP WAKE_U. -/
def execWakeU (s : State) : Res := next (s.sendWake 0)

/-- WAKE_D (R342): CHN_CMD with OP WAKE_D. -/
def execWakeD (s : State) : Res := next (s.sendWake 1)

/-! Authenticated reset. -/

/-- MGMT_RESET (R364): the reset of the kind given, at once or at its instant; a later RESET replaces one that waits. -/
def execMgmtReset (s : State) : Res :=
  match s.ccTake (fun r => r.frame.mgmt 8) with
  | none => next s
  | some (r, s) => next { s with chn.rst := some (bits r.frame.arg 1 0 + 1, max s.now (ofBytes (r.text.take 8))) }

/-- RESET_INSTANT (R364). -/
def execResetInstant (s : State) : Res :=
  match s.chn.rst with
  | none => next s
  | some (kind, t) => next ({ s.until (16 * t) with chn.rst := none }.callReset kind 7)

/-! Session keys (R449, R450). -/

/-- The SESSION frame of a step, from an authenticated sender. -/
def State.takeSession (s : State) (step : Nat) : Option (RxFrame × State) :=
  s.ccTake (fun r => r.frame.mgmt 10 && bits r.frame.arg 7 0 == step)

/-- HKDF's info string. -/
def sessionInfo (ini res k : Nat) : List Byte :=
  [0x54, 0x56, 0x44, 0x4B, BitVec.ofNat 8 ini, BitVec.ofNat 8 res, BitVec.ofNat 8 k]

/-- The exchange with a peer. -/
def State.findSess (s : State) (peer : Nat) (ini : Bool) : Option SessX :=
  s.chn.sess.find? (fun x => x.peer == peer && x.initiator == ini)

def State.endSess (s : State) (x : SessX) : State := { s with chn.sess := s.chn.sess.filter (· != x) }

/-- SESSION_OFFER (R449): the responder answers with ACCEPT. -/
def execSessionOffer (s : State) : Res :=
  match s.takeSession 1 with
  | none => next s
  | some (r, s) =>
    let a := r.frame.src
    let k := ofBytes ((r.text.drop 96).take 1)
    if !s.trusted a || r.frame.len != 98 || k == 0 || !s.keyUsable then next s.authFail
    else
      match s.chn.sess.find? (fun x => x.peer == a && x.initiator && x.num == k) with
      | some x =>
        if s.chnAddr < a then next s else next (accept (s.endSess x) a k r.text)
      | none => next (accept s a k r.text)
where
  /-- Draw the ephemeral key and the nonce, and answer. -/
  accept (s : State) (a k : Nat) (offer : List Byte) : State :=
    let granted := Nat.land (ofBytes ((offer.drop 97).take 1)) (s.rd (if a = 1 then SEC_SESSCTL.ALLOW_HEAD else SEC_SESSCTL.ALLOW_OTHER))
    let eph := s.free
    let (_, s) := s.fresh 256
    let (v, s) := s.fresh 256
    let part := (Config.ephemeralKey eph).take 64 ++ toBytes 32 v ++ toBytes 1 granted
    let ans := part ++ Config.deviceSign (offer ++ part)
    let x : SessX := ⟨a, false, k, granted, eph, offer ++ ans⟩
    let s := { s with chn.sess := x :: s.chn.sess.filter (fun y => !(y.peer == a && !y.initiator)) }
    s.chnPost clsMgmt a 10 2 0 ans

/-- The key of an exchange (R449): at the initiator with its peer's ephemeral key in ACCEPT, at the responder in OFFER. -/
def State.sessKeyOf (s : State) (x : SessX) : SessKey :=
  let offer := x.bytes.take 98
  let acc := x.bytes.drop 98
  let peerKey := if x.initiator then acc.take 64 else offer.take 64
  let salt := (offer.drop 64).take 32 ++ (acc.drop 64).take 32
  let info := if x.initiator then sessionInfo s.chnAddr x.peer x.num else sessionInfo x.peer s.chnAddr x.num
  ⟨x.peer, x.num, x.rights, Config.sessionKey x.eph peerKey salt info, 0, 0⟩

/-- SESSION_ACCEPT (R449): the initiator verifies ACCEPT, sends CONFIRM and installs the key. -/
def execSessionAccept (s : State) : Res :=
  match s.takeSession 2 with
  | none => next s
  | some (r, s) =>
    match s.findSess r.frame.src true with
    | none => next s.authFail
    | some x =>
      let part := r.text.take 97
      if s.trusted x.peer && r.frame.len == 161 && s.keyUsable &&
          Config.peerVerify x.peer (x.bytes ++ part) (r.text.drop 97) then
        let x' := { x with bytes := x.bytes ++ r.text, rights := ofBytes ((r.text.drop 96).take 1) }
        next (((s.endSess x).chnPost clsMgmt x.peer 10 3 0 (Config.deviceSign x'.bytes)).installKey (s.sessKeyOf x'))
      else next (s.endSess x).authFail

/-- SESSION_CONFIRM (R449): the responder verifies CONFIRM and installs the key. -/
def execSessionConfirm (s : State) : Res :=
  match s.takeSession 3 with
  | none => next s
  | some (r, s) =>
    match s.findSess r.frame.src false with
    | none => next s.authFail
    | some x =>
      let s := s.endSess x
      if s.trusted x.peer && r.frame.len == 64 && Config.peerVerify x.peer x.bytes r.text then next (s.installKey (s.sessKeyOf x))
      else next s.authFail

/-! Remote messages (R357). -/

/-- Does a valid CHN_ACL entry cover the object (R357)? -/
def State.aclCovers (s : State) (kind src obj : Nat) : Bool :=
  (upto 16).any (fun n =>
    s.isOn (CHN_ACL_A.VALID n) && s.rd (CHN_ACL_A.KIND n) == kind &&
    decide (s.rd (CHN_ACL_A.SRC_LO n) ≤ src) && decide (src ≤ s.rd (CHN_ACL_A.SRC_HI n)) &&
    decide (s.rd (CHN_ACL_B.BASE n) ≤ obj) && decide (obj ≤ s.rd (CHN_ACL_B.BASE n) + s.rd (CHN_ACL_B.CNT n)))

/-- MSG_POST (R357). -/
def execMsgPost (s : State) : Res :=
  match s.ccTake (fun r => r.frame.cls == clsMsg && r.frame.sub == 0) with
  | none => next s
  | some (r, s) =>
    let n := bits r.frame.arg 5 0
    if !s.aclCovers 0 r.frame.src n then next (s.chnNak r.frame nakDenied 0)
    else if 32 ≤ n && !r.frame.enc then next (s.chnNak r.frame nakSecure 0)
    else if s.rd (MBX_CFG.SENDER n) != 1 then next (s.chnNak r.frame nakNoobj 0)
    else
      let bells := if r.frame.enc then ofBytes (r.text.take 4) else r.frame.h2
      let msg := if r.frame.enc then r.text.drop 8 else r.text
      let s := (upto 16).foldl (fun t w => t.wr (MBX_TX.DATA n w) (ofBytes ((msg.drop (4 * w)).take 4))) s
      next (s.mbxPost n bells)

/-- n messages are dropped, counted and logged, each an event of its own (R326, R335). -/
def State.msgDrops (s : State) (kind q n : Nat) : State :=
  (upto n).foldl (fun t _ => t.queLog kind 1 q) (s.gain QUE_DROP_CNT.COUNT n)

/-- Enqueue the messages of a frame in order, `got` of which have been enqueued; the first that finds the queue full or offline
ends it (R357). -/
def State.msgEnqs (s : State) (r : RxFrame) (q : Nat) : List (List Byte) → Nat → State
  | [], _ => s
  | m :: rest, got =>
    match s.queEnq 1 q m with
    | (.ok, _, t) => t.msgEnqs r q rest (got + 1)
    | (.busError, _, t) => t.msgEnqs r q rest got
    | (.full, _, t) => (t.msgDrops 0 q (rest.length + 1)).chnNak r.frame nakQfull got
    | (_, _, t) => (t.msgDrops 1 q (rest.length + 1)).chnNak r.frame nakQoff got

/-- MSG_ENQ (R357). -/
def execMsgEnq (s : State) : Res :=
  match s.ccTake (fun r => r.frame.cls == clsMsg && r.frame.sub == 1) with
  | none => next s
  | some (r, s) =>
    let q := bits r.frame.arg 19 0
    if !s.aclCovers 1 r.frame.src q then next (s.chnNak r.frame nakDenied 0)
    else next (s.msgEnqs r q ((upto (r.frame.len / 64)).map (fun i => (r.text.drop (64 * i)).take 64)) 0)

/-- NAK (R356): counted and logged. -/
def execNak (s : State) : Res :=
  match s.ccTake (fun r => r.frame.cls == clsNak) with
  | none => next s
  | some (r, s) => next (((s.bump CHN_NAK_CNT.COUNT).wr CHN_NAKLOG.ARG r.frame.arg).chnIrq CHN_IRQ.NAK)

/-! Snapshots (R362). -/

/-- A SNAP reaches this module as a receiver. -/
def State.takeSnap (s : State) (id t : Nat) : State :=
  if t ≤ s.now then (s.on CHN_SNAP_STAT.LATE).chnIrq CHN_IRQ.SNAP
  else
    let s := if s.chn.snap.isSome then s.on CHN_SNAP_STAT.OVR else s
    ({ s with chn.snap := some (t, id) }).on CHN_SNAP_STAT.PEND

/-- SNAPSHOT_REQUEST (R362): a write of CHN_SNAP_CMD with GO and ID. -/
def execSnapshotRequest (id : BitVec 16) (s : State) : Res :=
  let s := s.wr CHN_SNAP_CMD.ID id.toNat
  let t := s.rd2 CHN_SNAP_T_LO.T CHN_SNAP_T_HI.T
  let (ct, s) := s.ctNow
  if t < ct + 50000 then next ((s.on CHN_SNAP_STAT.LATE).chnIrq CHN_IRQ.SNAP)
  else next ((s.chnPost clsSnap 255 0 id.toNat t []).takeSnap id.toNat t)

/-- SNAP (R362): received. -/
def execSnap (s : State) : Res :=
  match s.ccTake (fun r => r.frame.cls == clsSnap) with
  | none => next s
  | some (r, s) => next (s.takeSnap (bits r.frame.arg 15 0) r.frame.h2)

/-- Every block latches its snapshot counters (R398). -/
def State.latchSnap (s : State) : State :=
  let s := (upto 64).foldl (fun t b => (upto 16).foldl (fun t k => t.wr (FLD_PSNAP.SNAP b k) (t.rd (FLD_PCNT.COUNT b k))) t) s
  (upto 8).foldl (fun t n => t.wr (CAM_FSNAP.SNAP n) (t.rd (CAM_FCNT.COUNT n))) s

/-- SNAPSHOT_STROBE (R362): the first rc at or after T. -/
def execSnapshotStrobe (s : State) : Res :=
  match s.chn.snap with
  | none => next s
  | some (t, id) =>
    let s := ({ s.until ((16 * t + rc16 - 1) / rc16 * rc16) with chn.snap := none }).latchSnap
    let s := ((s.off CHN_SNAP_STAT.PEND).on CHN_SNAP_STAT.DONE).wr CHN_SNAP_STAT.ID id
    next ((s.put CHN_SNAP_STAT.UNLOCKED (!s.isOn CHN_STAT.LOCK)).chnIrq CHN_IRQ.SNAP)

/-! The Chain Controller's restart (R365). -/

/-- The Chain Controller restarts from ROM, and with it the CHAIN endpoint (R322). -/
def State.ccRestart (s : State) : State := (s.on CHN_STAT.CC_RESTART).mbxEndpoints (· == 1)

/-- CHAIN_CTRL_MM (R365, R212, R215). -/
def execChainCtrlMm (s : State) : Res := next ((s.rcLog 0x32 0 0 0).ccRestart)

/-- CC_RESTART_END (R365). -/
def execCcRestartEnd (s : State) : Res :=
  if s.isOn CHN_STAT.CC_RESTART then next ((s.off CHN_STAT.CC_RESTART).chnIrq CHN_IRQ.CCRST) else next s

end Sys2Proof.Machine
end

