-- ==== Sys2Proof/Machine/Queue.lean ====
section
/-! DEFINITION. Machine/Queue.lean: age watching (R330), the read-to-pop registers (R335), the staging slots and the queue
operations of the register path (R326), and the reach of resets (R331). -/

namespace Sys2Proof.Machine

/-- STALL_VISIT (R330): the engine visits a pinned queue. -/
def execStallVisit (queue : BitVec 20) (s : State) : Res := s.whileLive fun s =>
  let q := queue.toNat
  if !s.que.pinned.elem q || s.frozen 4 then next s
  else match s.queGet q with
  | (none, t) => next (t.queBusErr 0 q)
  | (some d, t) =>
    let (ct, t) := t.ctNow
    if !d.stalled && d.age != 0 && decide (d.dw3 + 1000 * d.age < ct) then
      match t.quePut q { d with dw1 := setBits d.dw1 33 33 1 } with
      | (false, t) => next (t.queBusErr 0 q)
      | (true, t) =>
        if t.que.stalls.length < 64 then next { t with que.stalls := t.que.stalls ++ [q] }
        else next { t with que.stallOvf := true }
    else next t

/-- What a read of QUE_STALLQ gives, and the state after it. -/
def State.stallPop (s : State) : Nat × State :=
  let o := b2n s.que.stallOvf * 2 ^ 30
  match s.que.stalls with
  | [] => (o, { s with que.stallOvf := false })
  | q :: rest => (2 ^ 31 + o + q, { s with que.stalls := rest })

/-- QUE_STALLQ (R335): a read of QUE_STALLQ. -/
def execQueStallq (s : State) : Res :=
  let (v, t) := s.stallPop
  next (t.answer (.data (toBytes 4 v)))

/-- What a read of QUE_NOTEf gives, and the state after it. -/
def State.notePop (s : State) (f : Nat) : Nat × State :=
  let o := b2n (s.que.noteOvf.elem f) * 2 ^ 30
  match s.que.notes.find? (fun p => p.1 == f) with
  | none => (o, { s with que.noteOvf := s.que.noteOvf.filter (· != f) })
  | some p => (2 ^ 31 + o + p.2, { s with que.notes := s.que.notes.erase p })

/-- QUE_NOTE (R335): a read of QUE_NOTEf. -/
def execQueNote (f : Fin 3) (s : State) : Res :=
  let (v, t) := s.notePop f
  next (t.answer (.data (toBytes 4 v)))

/-! Staging slots. -/

/-- Word w of a staging slot. -/
def State.slotWord (s : State) (slot w : Nat) : Nat := (SMap.get (fun _ => (0 : Reg32)) s.que.slots (64 * slot + w)).toNat

def State.putSlotWord (s : State) (slot w v : Nat) : State :=
  { s with que.slots := SMap.set (fun _ => (0 : Reg32)) s.que.slots (64 * slot + w) (BitVec.ofNat 32 v) }

/-- The 64-byte message in a slot's TX. -/
def State.slotTx (s : State) (slot : Nat) : List Byte := (upto 16).flatMap (fun w => toBytes 4 (s.slotWord slot w))

/-- A message into a slot's RX. -/
def State.putSlotRx (s : State) (slot : Nat) (bs : List Byte) : State :=
  (upto 16).foldl (fun t w => t.putSlotWord slot (16 + w) (ofBytes ((bs.drop (4 * w)).take 4))) s

/-- SLOTSTAT records RESULT and DEPTH; after a bus error it stays as it was (log entry 29). -/
def State.putSlotStat (s : State) (slot : Nat) (r : QRes) (depth : Nat) : State :=
  if r = .busError then s else s.putSlotWord slot 32 (r.code * 2 ^ 29 + depth % 2 ^ 17)

/-- A refused ENQ, DEQ or DROP is counted (R326). -/
def State.queRefuse (s : State) (r : QRes) : State :=
  if r = .ok || r = .busError then s else s.bump QUE_REFUSE_CNT.COUNT

/-- The operations of the register path (R326), by code, on queue q from a staging slot. -/
def State.queOp (s : State) (slot op q : Nat) : State :=
  match op with
  | 0x000 => let (r, d, t) := s.queEnq 0 q (s.slotTx slot); (t.queRefuse r).putSlotStat slot r d
  | 0x001 =>
    let (r, d, bs, t) := s.queDeq 0 q true
    let t := if r = .ok then t.putSlotRx slot bs else t
    (t.queRefuse r).putSlotStat slot r d
  | 0x002 => let (r, d, _, t) := s.queDeq 0 q false; (t.queRefuse r).putSlotStat slot r d
  | 0x003 =>
    (match s.queOpen 0 q with
    | (.error (r, d), t) => t.putSlotStat slot r d
    | (.ok d, t) => (t.bump QUE_OPS_CNT.COUNT).putSlotStat slot .ok d.depth)
  | 0x200 =>
    if !s.isOn QUE_CTL.EN then s.putSlotStat slot .offline 0
    else
      (match (s.queEvict q).queGet q with
      | (none, t) => t.queBusErr 0 q
      | (some d, t) =>
        if !d.ok then (t.queEvict q).putSlotStat slot .baddesc 0
        else
          let d' := { d with dw0 := setBits d.dw0 42 42 1 }
          (match t.quePut q d' with
          | (false, t) => t.queBusErr 0 q
          | (true, t) =>
            let t := { t with que.attached := if t.que.attached.elem q then t.que.attached else t.que.attached ++ [q] }
            ((t.bump QUE_OPS_CNT.COUNT).quePin q d').putSlotStat slot .ok d.depth))
  | 0x201 =>
    (match s.queOpen 0 q with
    | (.error (r, d), t) => t.putSlotStat slot r d
    | (.ok d, t) =>
      let t := { t.queEvict q with
        que.attached := t.que.attached.filter (· != q)
        que.pinned := t.que.pinned.filter (· != q) }
      (t.bump QUE_OPS_CNT.COUNT).putSlotStat slot .ok d.depth)
  | _ => s

/-- What a warm or cold reset clears in the engine (R331). -/
def State.queReset (s : State) : State :=
  { s with que := QueS.reset }

/-- What a core reset clears: the Trifle compartments' staging slots (R331). -/
def State.queCore (s : State) : State := { s with que.slots := SMap.clear s.que.slots 0 (64 * 17) }

end Sys2Proof.Machine
end

