-- ==== Sys2Proof/Machine/Archive.lean ====
section
/-! DEFINITION. Machine/Archive.lean: the Archive processor, its drives and journal (R402 to R412). -/

namespace Sys2Proof.Machine

abbrev arcOff : Nat := 0
abbrev arcLoading : Nat := 1
abbrev arcRecovering : Nat := 2
abbrev arcReady : Nat := 3
abbrev arcFault : Nat := 4

abbrev drvAbsent : Nat := 0
abbrev drvActive : Nat := 2
abbrev drvFailed : Nat := 3
abbrev drvRefused : Nat := 4

def State.arcIs (s : State) (st : Nat) : Bool := s.rd ARC_STAT.STATE == st

/-- Is the Archive processor paused or powered down (R470, R444)? -/
def State.arcStill (s : State) : Bool := s.frozen 2 || s.isOn PWR_DOWN.ARC

/-- A drive of the state. -/
def State.drive (s : State) (d : Nat) : ArcDrive := SMap.get (fun _ => ArcDrive.empty) s.arc.drives d

def State.putDrive (s : State) (d : Nat) (v : ArcDrive) : State :=
  { s with arc.drives := SMap.set (fun _ => ArcDrive.empty) s.arc.drives d v }

def State.drvIs (s : State) (d st : Nat) : Bool := s.rd (ARC_DRV.STATE d) == st

/-- A drive changes its state (R410). -/
def State.drvTo (s : State) (d st : Nat) : State :=
  if s.drvIs d st then s else (s.wr (ARC_DRV.STATE d) st).on ARC_IRQ.DRV

/-- Where block lba of a drive is stored. -/
def arcAt (d lba : Nat) : Nat := archiveBase + d * 2 ^ 43 + lba * 4096

/-- Where the processor's private bank is stored (R402). -/
abbrev arcBank : Nat := archiveBase + 2 ^ 45

/-- The records retained on ACTIVE drives. -/
def State.arcRecs (s : State) : List (Nat × ArcRec) :=
  ((upto 4).filter (fun d => s.drvIs d drvActive)).flatMap (fun d => (s.drive d).recs.map (fun r => (d, r)))

/-- ARC_TAILSEQ follows the records retained. -/
def State.arcTail (s : State) : State :=
  match s.arcRecs with
  | [] => s
  | r :: t => s.wr2 ARC_TAILSEQ_LO.SEQ ARC_TAILSEQ_HI.SEQ (t.foldl (fun m x => min m x.2.seq) r.2.seq)

/-- The firmware is alive: HB advances (log entry 31). -/
def State.arcBeat (s : State) : State := s.bumpWrap ARC_STAT.HB

/-- The processor copies its image and enters RECOVERING; an image that cannot be read leaves FAULT (log entry 32). What it
had taken and not completed is lost (R403, R411), and its mailbox endpoint restarts (R322). -/
def State.arcStart (s : State) : State :=
  let s := { s with arc.reqs := [], arc.comps := [] }
  let a := s.rd ARC_FW_BASE_LO.ADDR_LO * 4096 + s.rd ARC_FW_BASE_HI.ADDR_HI * 2 ^ 32
  match s.dataReads 11 a (min (s.rd ARC_FW_LEN.LEN) 0x80000) with
  | (none, s) => s.wr ARC_STAT.STATE arcFault
  | (some bs, s) => ((s.setBytes arcBank bs).wr ARC_STAT.STATE arcRecovering).mbxEndpoints (· == 2)

/-- ARCHIVE_START (R403): ARC_CMD with OP START. -/
def execArchiveStart (s : State) : Res :=
  if (s.arcIs arcOff || s.arcIs arcFault) && !s.isOn PWR_DOWN.ARC then next s.arcStart else next s

/-- The scan of a drive's ring (R412): it ends at the first record that is not on the drive, whose blocks are free. Whether a
record without its Flush is there is a free value (log entry 46). -/
def State.scanRing (s : State) (d : Nat) : State :=
  let v := s.drive d
  if v.recs.all (·.flushed) then s
  else
    let (found, s) := s.fresh 256
    let there := fun (x : ArcRec × Nat) => x.1.flushed || bitb found (x.2 % 256)
    let ring := v.recs.zip (upto v.recs.length)
    match ring.find? (fun x => !there x) with
    | none => s
    | some e => s.putDrive d { v with head := e.1.lba, recs := (ring.takeWhile there).map (·.1), dirty := true }

/-- What a probe makes of a drive (R404, R405, R412): REFUSED, or ACTIVE with its ring as the drive holds it. -/
def State.probeDrive (s : State) (p : DriveProbe) : State :=
  let d := p.drive.val
  if !p.present then s.drvTo d drvAbsent
  else
    let s := (s.wr (ARC_DRV.SPEED d) p.speed).wr (ARC_DRV.WIDTH d) p.width
    if !p.formatOk then s.drvTo d drvRefused
    else ((s.putDrive d { s.drive d with cap := min p.cap 1953125000 }).scanRing d).drvTo d drvActive

/-- The sequence range after a recovery (R412): numbers go on above the highest found. -/
def State.arcSeqs (s : State) : State :=
  let hi := s.arcRecs.foldl (fun m x => max m x.2.seq) 0
  let s := { s with arc.nextSeq := max s.arc.nextSeq (hi + 1) }
  (s.wr2 ARC_HEADSEQ_LO.SEQ ARC_HEADSEQ_HI.SEQ hi).arcTail

/-- PERST_N of the four root ports goes low or high (R490). -/
def State.putPerst (s : State) (low : Bool) : State :=
  if s.arc.perst = low then s
  else (upto 4).foldl (fun t d => t.send .perst d [if low then 0 else 1]) { s with arc.perst := low }

/-- ARCHIVE_RECOVERY (R412); the processor has released PERST_N before it trains the ports (R490, log entry 86). -/
def execArchiveRecovery (probes : List DriveProbe) (s : State) : Res :=
  if !s.arcIs arcRecovering || s.arcStill then next s
  else
    let s := { probes.foldl State.probeDrive (s.putPerst false) with arc.nextSeq := 1 }
    next (((s.arcSeqs).wr ARC_STAT.STATE arcReady).on ARC_IRQ.READY).arcBeat

/-- REPROBE (R410): ARC_CMD with OP REPROBE: a FAILED drive is retrained and its ring recovered. -/
def execReprobe (probe : DriveProbe) (s : State) : Res :=
  if s.arcIs arcReady && s.drvIs probe.drive drvFailed && !s.arcStill then next ((s.probeDrive probe).arcSeqs) else next s

/-- ARCHIVE_WATCHDOG (R403): 100 ms without a heartbeat. -/
def execArchiveWatchdog (s : State) : Res :=
  if s.arcStill || s.arcIs arcOff || s.arcIs arcFault then next s
  else
    let recent := s.arc.restarts.filter (fun t => decide (s.now ≤ t + 10000000000))
    let s := ({ s with arc.restarts := s.now :: recent }).bump ARC_STAT.RESTARTS
    let s := s.on ARC_IRQ.RESTART
    next (if 2 ≤ recent.length then { s.wr ARC_STAT.STATE arcFault with arc.reqs := [], arc.comps := [] } else s.arcStart)

/-! Requests. -/

abbrev stOk : Nat := 0
abbrev stBadreq : Nat := 1
abbrev stNospace : Nat := 2
abbrev stGone : Nat := 3
abbrev stSmall : Nat := 4
abbrev stIoerr : Nat := 5

/-- A little-endian field of a message. -/
def msgNum (m : List Byte) (off n : Nat) : Nat := ofBytes ((m.drop off).take n)

/-- A completion message (R408). -/
def completion (req : List Byte) (status drive len seq lba : Nat) : List Byte :=
  toBytes 1 status ++ toBytes 1 drive ++ [0, 0] ++ toBytes 4 len ++ (req.drop 16).take 8 ++ toBytes 8 seq ++ toBytes 8 lba ++
    List.replicate 32 0

/-- Enqueue a completion through the Archive's staging slot; false if it has to be retried (R409). -/
def State.arcTryEnq (s : State) (m : List Byte) : Bool × State :=
  let t := (upto 16).foldl (fun t w => t.putSlotWord 18 w (msgNum m (4 * w) 4)) s
  let q := s.rd ARC_CQUEUE.QUEUE
  match t.queEnq 0 q m with
  | (r, d, u) => (r == .ok, (u.queRefuse r).putSlotStat 18 r d)

/-- A request completes (R408, R409); IOERR is counted (R413). -/
def State.arcComplete (s : State) (req : List Byte) (status drive len seq lba : Nat) : State :=
  let s := if status = stIoerr then s.bump ARC_ERR_CNT.COUNT else s
  let m := completion req status drive len seq lba
  if s.arc.comps = [] then
    match s.arcTryEnq m with
    | (true, t) => t
    | (false, t) => { t with arc.comps := [m] }
  else { s with arc.comps := s.arc.comps ++ [m] }

/-- A DEQ of ARC_RQUEUE through the Archive's staging slot, and the request it takes, if any (R326, R409): not while 64
completions are held. -/
def State.arcTake (s : State) : Option (List Byte) × State :=
  if !s.arcIs arcReady || s.arcStill || 64 ≤ s.arc.comps.length then (none, s)
  else match s.queDeq 0 (s.rd ARC_RQUEUE.QUEUE) true with
  | (.ok, d, bs, t) => (some bs, ((t.putSlotRx 18 bs).putSlotStat 18 .ok d).arcBeat)
  | (r, d, _, t) => (none, (t.queRefuse r).putSlotStat 18 r d)

/-- The staging window (R408): start, and end without the bounce area. -/
def State.arcWindow (s : State) : Nat × Nat :=
  let base := s.rd ARC_STAGE_BASE_LO.ADDR_LO * 2 ^ 20 + s.rd ARC_STAGE_BASE_HI.ADDR_HI * 2 ^ 32
  (base, base + s.rd ARC_STAGE_LEN.LEN * 2 ^ 20 - 2 ^ 24)

/-- Does a buffer in Bulk lie in the staging window, outside the bounce area (R408)? -/
def State.arcInWindow (s : State) (a n : Nat) : Bool :=
  let (lo, hi) := s.arcWindow
  a % 64 == 0 && decide (lo ≤ a) && decide (a + n ≤ hi) && inBulk a n

/-- Does a buffer lie wholly in the Lattice? -/
def arcInLattice (a n : Nat) : Bool :=
  a % 64 == 0 && decide (latMatrixBase ≤ a) && decide (a + n ≤ latMatrixBase + latWords * 32)

/-- The next ACTIVE drive in rotation (R407), among those that can take a command (R409). -/
def State.arcNext (s : State) : Option Nat :=
  ((upto 4).map (fun i => (s.arc.last + 1 + i) % 4)).find? (fun d => s.drvIs d drvActive)

/-- The tail advances over whole records until the blocks to be written hold none (R407). -/
def tailOver (lba b : Nat) : List ArcRec → List ArcRec
  | [] => []
  | r :: t =>
    if (r :: t).any (fun x => decide (x.lba < lba + b) && decide (lba < x.lba + x.blocks)) then tailOver lba b t else r :: t

/-- A record's header (R406). -/
def recHeader (req payload : List Byte) (seq addr : Nat) : List Byte :=
  let h := toBytes 4 0x52415654 ++ [1] ++ (req.drop 1).take 1 ++ (req.drop 2).take 2 ++ toBytes 4 payload.length ++
    toBytes 4 (crc32c payload) ++ toBytes 8 seq ++ (req.drop 24).take 24 ++ toBytes 1 addr ++ List.replicate 11 0
  h ++ toBytes 4 (crc32c h)

/-- APPEND (R407, R408): the next request, an APPEND or one that is refused; its record is written and waits for its
Flush. -/
def execAppend (s : State) : Res :=
  match s.arcTake with
  | (none, t) => next t
  | (some m, t) =>
    let op := msgNum m 0 1
    if op = 2 then next s
    else if op != 1 then next (t.arcComplete m stBadreq 0 0 0 0)
    else
      let len := msgNum m 4 4
      let buf := msgNum m 8 8
      let lat := arcInLattice buf len
      if 16777152 < len || !(t.arcInWindow buf len || (lat && decide (17 ≤ t.rd ARC_STAGE_LEN.LEN))) then
        next (t.arcComplete m stBadreq 0 0 0 0)
      else match t.arcNext with
      | none => next (t.arcComplete m stNospace 0 0 0 0)
      | some d =>
        if 256 ≤ (t.arc.reqs.filter (fun r => r.drive == d)).length then next s
        else
          let v := t.drive d
          let b := (64 + len + 4095) / 4096
          if v.cap < 2 + b then next (t.arcComplete m stNospace d 0 0 0)
          else match t.dataReads 11 buf len with
          | (none, t) => next (t.arcComplete m stIoerr d 0 0 0)
          | (some payload, t) =>
            let t := if lat then (t.dataWrites 11 (t.arcWindow.2) payload).2 else t
            let lba := if v.head + b ≤ v.cap then v.head else 2
            let seq := t.arc.nextSeq
            let recd := recHeader m payload seq t.chnAddr ++ payload
            let t := t.setBytes (arcAt d lba) (recd ++ List.replicate (4096 * b - recd.length) 0)
            let t := t.putDrive d { v with head := lba + b, recs := tailOver lba b v.recs ++ [ArcRec.mk lba b seq false], dirty := true }
            let t := { t with arc.last := d, arc.nextSeq := seq + 1, arc.reqs := t.arc.reqs ++ [ArcReq.mk d lba seq true false m] }
            next t.arcTail

/-- READ (R408): the next request, a READ: the record's header and payload are copied into the buffer. -/
def execRead (s : State) : Res :=
  match s.arcTake with
  | (none, t) => next t
  | (some m, t) =>
    if msgNum m 0 1 != 2 then next s
    else
      let len := msgNum m 4 4
      let buf := msgNum m 8 8
      let seq := msgNum m 48 8
      if !t.arcInWindow buf len then next (t.arcComplete m stBadreq 0 0 seq 0)
      else match t.arcRecs.find? (fun x => x.2.seq == seq) with
      | none => next (t.arcComplete m stGone 0 0 seq 0)
      | some (d, r) =>
        let n := 64 + t.num (arcAt d r.lba + 8) 4
        if len < n then next (t.arcComplete m stSmall d 0 seq r.lba)
        else match t.dataWrites 11 buf (t.bytes (arcAt d r.lba) n) with
        | (true, t) => next (t.arcComplete m stOk d n seq r.lba)
        | (false, t) => next (t.arcComplete m stIoerr d 0 seq r.lba)

/-- FLUSH (R409): a Flush on a drive: its records are durable and their requests complete with OK. -/
def execFlush (drive : Fin 4) (s : State) : Res :=
  let d := drive.val
  if !s.arcIs arcReady || s.arcStill || !s.drvIs d drvActive then next s
  else
    let v := s.drive d
    let s := s.putDrive d { v with recs := v.recs.map (fun r => { r with flushed := true }) }
    let done := s.arc.reqs.filter (fun r => r.drive == d)
    let s := { s with arc.reqs := s.arc.reqs.filter (fun r => r.drive != d) }
    next ((done.foldl (fun t r =>
      let t := (t.bump ARC_REC_CNT.COUNT).wr2 ARC_HEADSEQ_LO.SEQ ARC_HEADSEQ_HI.SEQ
        (max (t.rd2 ARC_HEADSEQ_LO.SEQ ARC_HEADSEQ_HI.SEQ) r.seq)
      t.arcComplete r.msg stOk d 0 r.seq r.lba) s).arcBeat)

/-- Completions that wait are tried in order. -/
def State.arcRetry : List (List Byte) → State → State
  | [], s => { s with arc.comps := [] }
  | m :: t, s => match s.arcTryEnq m with
    | (true, u) => State.arcRetry t u
    | (false, u) => { u with arc.comps := m :: t }

/-- COMPLETION_RETRY (R409). -/
def execCompletionRetry (s : State) : Res :=
  if !s.arcIs arcReady || s.arcStill then next s else next (State.arcRetry s.arc.comps s)

/-- A drive fails (R410): it leaves the rotation, and its requests, whose writes have started, end with IOERR; what of their
records is on it, the next scan finds. -/
def State.drvFail (s : State) (d : Nat) : State :=
  if !s.drvIs d drvActive then s
  else
    let s := s.drvTo d drvFailed
    let hit := s.arc.reqs.filter (fun r => r.drive == d)
    let s := { s with arc.reqs := s.arc.reqs.filter (fun r => r.drive != d) }
    (hit.foldl (fun t r => t.arcComplete r.msg stIoerr d 0 r.seq r.lba) s).arcTail

/-- COMMAND_TIMEOUT (R410): a drive's oldest command has not completed within 2 s: retried once, then the drive fails. -/
def execCommandTimeout (drive : Fin 4) (s : State) : Res :=
  let d := drive.val
  if s.arcStill then next s
  else match s.arc.reqs.find? (fun r => r.drive == d) with
  | none => next s
  | some r =>
    if r.retried then next (s.drvFail d)
    else next { s with arc.reqs := s.arc.reqs.map (fun x => if x == r then { r with retried := true } else x) }

/-- PCIE_LINK_DOWN (R410): a drive's link goes down, and retrains within 1 s or not. -/
def execPcieLinkDown (drive : Fin 4) (retrains : Bool) (s : State) : Res :=
  if retrains then next s else next (s.drvFail drive)

/-- NVME_FATAL_ERROR (R410). -/
def execNvmeFatalError (drive : Fin 4) (s : State) : Res := next (s.drvFail drive)

/-- WEAR_CHECK (R410): the SMART Percentage Used of a drive. -/
def execWearCheck (drive : Fin 4) (used : BitVec 8) (s : State) : Res :=
  if !s.arcIs arcReady || s.arcStill then next s
  else
    let s := s.wr (ARC_DRV.WEAR drive) used.toNat
    next (if 90 ≤ used.toNat then s.on ARC_IRQ.WEAR else s)

/-- SUPERBLOCK_REWRITE (R406): after a change of head or tail the alternate copy takes a higher generation. -/
def execSuperblockRewrite (drive : Fin 4) (s : State) : Res :=
  let v := s.drive drive
  if v.dirty && s.drvIs drive drvActive && !s.arcStill then next (s.putDrive drive { v with gen := v.gen + 1, dirty := false })
  else next s

/-- Warm and cold reset: the processor and the root ports restart (R411), with PERST_N low (R490). -/
def State.arcReset (s : State) : State :=
  let s := { s.putPerst true with arc.reqs := [], arc.comps := [], arc.restarts := [] }
  (upto 4).foldl (fun t d => t.wrReg (ARC_DRV.addr d) 0) (s.wr ARC_STAT.STATE arcOff)

end Sys2Proof.Machine
end

