-- ==== Sys2Proof/Machine/Field.lean ====
section
/-! DEFINITION. Machine/Field.lean: field blocks, their buffers and exchanges (R367 to R374), the Xagrim link (R375 to
R384), the other port roles (R385 to R388) and the field-port requests (R389). -/

namespace Sys2Proof.Machine

/-- The storage number of a byte of a block's buffer: banks 0 I0, 1 I1, 2 O0, 3 O1 (R370). -/
def bankAt (b bank off : Nat) : Nat := 2 ^ 43 + b * 0x4000 + bank * 0x1000 + off

/-- Field f of port k within a bank (R370). -/
def planeOff (f k : Nat) : Nat := 64 * f + 4 * k

/-- The area of port k within a bank (R370). -/
def areaOff (k : Nat) : Nat := 32 * (32 + 6 * k)

def State.port1 (s : State) (b k : Nat) : PortS := SMap.get (fun _ => PortS.idle) s.fld.ports (16 * b + k)
def State.putPort (s : State) (b k : Nat) (p : PortS) : State :=
  { s with fld.ports := SMap.set (fun _ => PortS.idle) s.fld.ports (16 * b + k) p }

/-- A configuration register as in force (R369). -/
def State.eff (s : State) (f : Fld) : Nat := bits (SMap.get regReset s.fld.eff f.addr).toNat f.hi f.lo

abbrev roleDrive : Nat := 1
abbrev roleSsi : Nat := 2
abbrev roleHub : Nat := 3
abbrev roleCapture : Nat := 4
abbrev rolePulse : Nat := 5
abbrev roleUart : Nat := 6

/-- The role in force of a port. -/
def State.role (s : State) (b k : Nat) : Nat := s.eff (FLD_PCFG_A.ROLE b k)
def State.opt (s : State) (b k : Nat) : Nat := s.eff (FLD_PCFG_A.OPT b k)
def State.txOff (s : State) (b k : Nat) : Nat := s.eff (FLD_PCFG_B.TXOFF b k)

/-- The filling and the settled inbound bank, the current and the next outbound bank (R371, R372). -/
def State.filling (s : State) (b : Nat) : Nat := 1 - s.rd (FLD_STAT.ISET b)
def State.settled (s : State) (b : Nat) : Nat := s.rd (FLD_STAT.ISET b)
def State.outCur (s : State) (b : Nat) : Nat := 2 + s.rd (FLD_STAT.OCUR b)
def State.outNext (s : State) (b : Nat) : Nat := 3 - s.rd (FLD_STAT.OCUR b)

/-- Fields of the current outbound bank, and of the filling bank. -/
def State.outPlane (s : State) (b f k : Nat) : Nat := s.num (bankAt b (s.outCur b) (planeOff f k)) 4
def State.putPlane (s : State) (b f k v : Nat) : State := s.setNum (bankAt b (s.filling b) (planeOff f k)) 4 v
def State.putArea (s : State) (b k off : Nat) (bs : List Byte) : State :=
  s.setBytes (bankAt b (s.filling b) (areaOff k + off)) bs

/-- An error of a port is counted, and raises FLD_IRQ.PORT where IE is set (R399). -/
def State.portErr (s : State) (b k : Nat) : State :=
  (s.bump (FLD_PERR.COUNT b k)).when (s.eff (FLD_PCFG_A.IE b k) != 0) (fun t => t.on (FLD_IRQ.PORT b))

/-! Configuration (R368, R369). -/

/-- Is a value of FLD_PCFGk_A accepted (R368)? -/
def State.pcfgOk (s : State) (b k v : Nat) : Bool :=
  let role := bits v 3 0
  let rate := bits v 7 4
  match role with
  | 0 => true
  | 1 => decide (rate < 5)
  | 2 => decide (rate < 8) && k % 2 == 0 && s.rd (FLD_PCFG_A.ROLE b (k + 1)) == 0
  | 3 => decide (rate < 5)
  | 4 => rate == 0
  | 5 => rate == 0
  | 6 => decide (rate < 8)
  | _ => false

/-- A write to FLD_PCFGk_A or _B, FLD_XIN, FLD_XOUT or FLD_APPLY, the reserved bits of v being 0: refused with CFGERR, or
in force from the next round boundary (R368, R369). -/
def State.fldConfig (s : State) (addr v : Nat) : State :=
  let b := (addr - 0x50000000) / 0x1000
  let off := addr % 0x1000
  let ok := if 0x100 ≤ off ∧ off < 0x180 then
      (if off % 8 = 0 then s.pcfgOk b ((off - 0x100) / 8) v else decide (16 * bits v 20 0 < s.roundLen))
    else true
  if ok then (s.wrReg addr v).on (FLD_STAT.CFGPEND b) else s.on (FLD_STAT.CFGERR b)

/-- Does an address hold a configuration register of a field block (R369)? -/
def fldIsConfig (a : Nat) : Bool :=
  let off := a % 0x1000
  decide (0x50000000 ≤ a) && decide (a < 0x50040000) &&
  (off == 0x10 || (decide (0x40 ≤ off) && decide (off < 0xC0)) || (decide (0x100 ≤ off) && decide (off < 0x180)))

/-- A PULSE port drives a level. -/
def State.drivePin (s : State) (b k : Nat) (l : Bool) : State :=
  (((s.send .pin (16 * b + k) [BitVec.ofNat 8 (b2n l)]).putPort b k { s.port1 b k with level := l }).wr
    (FLD_PSTAT.PEER b k) (b2n l))

/-- A port whose settings change starts afresh; a PULSE port drives INIT (R387). -/
def State.freshPort (s : State) (b k : Nat) : State :=
  let t := s.putPort b k { PortS.idle with seq := (s.port1 b k).seq }
  if s.role b k = rolePulse then t.drivePin b k (bitb (s.opt b k) 0) else t

/-- The settings of every block with CFGPEND take force (R369). -/
def State.fldApply (s : State) : State :=
  let blocks := (upto 64).filter (fun b => s.isOn (FLD_STAT.CFGPEND b))
  let t := { s with fld.eff := s.fld.eff.filter (fun c => !(blocks.elem ((c.1 - 0x50000000) / 0x1000))) }
  let t := blocks.foldl (fun t b =>
    let new := s.regs.filter (fun c => fldIsConfig c.1 && (c.1 - 0x50000000) / 0x1000 == b)
    let t := { t with fld.eff := new.foldl (fun m (c : Nat × Reg32) => SMap.set regReset m c.1 c.2) t.fld.eff }
    t.off (FLD_STAT.CFGPEND b)) t
  blocks.foldl (fun t b => (upto 16).foldl (fun t k =>
    if t.eff ⟨FLD_PCFG_A.addr b k, 31, 0⟩ != s.eff ⟨FLD_PCFG_A.addr b k, 31, 0⟩ then t.freshPort b k else t) t) t

/-- The entries of a PULSE port in a bank (R387). -/
def State.pulseEntries (s : State) (b k : Nat) : List (Bool × Nat) :=
  let n := min (s.outPlane b 0 k) 24
  (upto n).map (fun i =>
    let e := s.num (bankAt b (s.outCur b) (areaOff k + 8 * i)) 8
    (bitb e 63, e % 2 ^ 63))

/-- One port at a round boundary at chain time t (ns), with or without a new current bank (R372, R387). -/
def State.portBoundary (s : State) (t : Nat) (b k : Nat) (new : Bool) : State :=
  let r := s.role b k
  let p := s.port1 b k
  let s := s.when (!p.got) (fun u => u.off (FLD_PSTAT.RXOK b k))
  let p := { p with got := false, due := false }
  if r = roleDrive ∨ r = roleHub ∨ r = roleSsi ∨ r = roleUart then
    if new then s.putPort b k { p with due := true, bound := t } else (s.putPort b k p).portErr b k
  else if r = rolePulse ∧ new then s.putPort b k { p with entries := s.pulseEntries b k, lastAt := 0, bound := t }
  else s.putPort b k p

/-- The field blocks at a round boundary (R369, R372). -/
def State.fldBoundary (s : State) : State :=
  let t := s.fldApply
  ((upto 64).filter (fun b => t.isOn (FLD_CTL.EN b))).foldl (fun u b =>
    let new := u.isOn (FLD_STAT.OPEND b) && decide (SMap.get (fun _ => 0) u.fld.pendAt b + 1000 ≤ u.now)
    let u := if new then (u.wr (FLD_STAT.OCUR b) (1 - u.rd (FLD_STAT.OCUR b))).off (FLD_STAT.OPEND b) else u
    (upto 16).foldl (fun u k => if u.role b k = 0 then u else u.portBoundary u.now b k new) u) t

/-! The exchange (R373, R374). -/

/-- The exchange in progress at a block. -/
def State.fldX (s : State) (b : Nat) : Option FldX := s.fld.xfers.find? (fun x => x.block == b)

def State.putX (s : State) (x : FldX) : State :=
  { s with fld.xfers := s.fld.xfers.map (fun y => if y.block == x.block then x else y) }

/-- The start of an exchange reaches a block (R172, R373): DIR 1 inbound, 2 outbound, 3 both. The answer says whether the
block recorded that it starts nothing. -/
def State.fldStart (s : State) (b dir : Nat) : Bool × State :=
  if bitb (s.rd PWR_DOWN.FGRP) (b / 8) then (true, s)
  else if !s.isOn (FLD_CTL.EN b) then (false, s)
  else if (s.fldX b).isSome then (true, s.on (FLD_STAT.XLATE b))
  else
    let maps := (upto 8).map (fun i =>
        (true, s.eff ⟨FLD_XIN_A.addr b i, 31, 0⟩, s.eff ⟨FLD_XIN_B.addr b i, 31, 0⟩)) ++
      (upto 8).map (fun i => (false, s.eff ⟨FLD_XOUT_A.addr b i, 31, 0⟩, s.eff ⟨FLD_XOUT_B.addr b i, 31, 0⟩))
    let x : FldX := ⟨b, s.time, dir == 3, bitb dir 1, if bitb dir 0 then .inbound else .outbound, false, maps⟩
    (false, ({ s with fld.xfers := s.fld.xfers ++ [x] }).on (FLD_STAT.XBUSY b))

/-- Is a map entry in use and accepted (R373)? -/
def mapOk (m : Nat × Nat) : Bool :=
  let w := bits m.2 21 0
  let n := bits m.1 15 8
  decide (0x8000 ≤ w) && decide (w + n ≤ latWords) && decide (bits m.1 6 0 + n ≤ 128)

/-- The entries of one direction that are in use: those accepted, and whether one is refused. -/
def FldX.entries (x : FldX) (inbound : Bool) : List (Nat × Nat) × Bool :=
  let used := (x.maps.filter (fun m => m.1 == inbound && bitb m.2.1 31)).map (·.2)
  (used.filter mapOk, used.any (fun m => !mapOk m))

/-- The words an entry covers: (bank word, Lattice word). -/
def mapWords (m : Nat × Nat) : List (Nat × Nat) :=
  (upto (bits m.1 15 8)).map (fun i => (bits m.1 6 0 + i, bits m.2 21 0 + i))

/-- The bank swap (R371): what a port does not write in the new filling bank reads as before, FRESH reads 0, and CAPTURE
and UART ports count afresh; the settled bank holds the CAPTURE pins' levels (R386). -/
def State.bankSwap (s : State) (b : Nat) : State :=
  let f := s.filling b
  let s := (upto 16).foldl (fun t k =>
    if t.role b k = roleCapture then t.putPlane b 1 k (b2n (t.port1 b k).level) else t) s
  let s := { s with mem := copyRegion s.mem (bankAt b f 0) (bankAt b (1 - f) 0) 0x1000 }
  let s := s.wr (FLD_STAT.ISET b) f
  (upto 16).foldl (fun t k =>
    let t := t.putPlane b 2 k (t.num (bankAt b (t.filling b) (planeOff 2 k)) 4 % 2 ^ 31)
    if t.role b k = roleCapture then (t.putPlane b 0 k 0).putPort b k { t.port1 b k with edges := 0 }
    else if t.role b k = roleUart then (t.putArea b k 0 [0, 0]).putPort b k { t.port1 b k with rx := 0 }
    else t) s

/-- INBOUND_EXCHANGE (R373): the swap, then the mapped words of the settled bank go to the Lattice. -/
def execInboundExchange (b : Fin 64) (s : State) : Res := s.whileLive fun s =>
  match s.fldX b with
  | some x =>
    if x.stage != .inbound then next s
    else
      let s := s.bankSwap b
      let (es, bad) := x.entries true
      let s := s.when bad (fun t => t.on (FLD_STAT.CFGERR b))
      let s := (es.flatMap mapWords).foldl (fun t p =>
        (t.latWrite (0x40 + b) 5 p.2 (2 ^ 256 - 1) (t.num (bankAt b (t.settled b) (32 * p.1)) 32)).2) s
      next (s.putX { x with stage := if x.both then .outbound else .moved })
  | none => next s

/-- OUTBOUND_EXCHANGE (R372 to R374): the mapped Lattice words go to the next bank; an uncorrectable word discards the bank. -/
def execOutboundExchange (b : Fin 64) (s : State) : Res := s.whileLive fun s =>
  match s.fldX b with
  | some x =>
    if x.stage != .outbound then next s
    else
      let s := if s.isOn (FLD_STAT.OPEND b) then (s.off (FLD_STAT.OPEND b)).on (FLD_STAT.OVWR b) else s
      let (es, bad) := x.entries false
      let s := s.when bad (fun t => t.on (FLD_STAT.CFGERR b))
      let ws := es.flatMap mapWords
      let (got, s) := s.latReadSet (0x40 + b) (ws.map (·.2))
      let ue := got.any (fun x => x.2.2 != 0)
      let s := if ue then (s.on (FLD_STAT.UE b)).on (FLD_IRQ.UE b)
        else ws.foldl (fun t p => t.setNum (bankAt b (t.outNext b) (32 * p.1)) 32 (wordOf got p.2).1) s
      next (s.putX { x with stage := .moved, ue := ue })
  | none => next s

/-- EXCHANGE_COMPLETE (R374): the block has finished; a good outbound bank is pending. -/
def execExchangeComplete (b : Fin 64) (s : State) : Res := s.whileLive fun s =>
  match s.fldX b with
  | some x =>
    if x.stage != .moved then next s
    else
      let s := { s with fld.xfers := s.fld.xfers.filter (fun y => y.block != b.val) }
      let s := (s.off (FLD_STAT.XBUSY b)).on (FLD_IRQ.XDONE b)
      if x.out && !x.ue then
        next (({ s with fld.pendAt := SMap.set (fun _ => 0) s.fld.pendAt b.val s.now }).on (FLD_STAT.OPEND b))
      else next s
  | none => next s

/-! The Xagrim link. -/

/-- Nanoseconds per bit of a DRIVE or HUB port (R368). -/
def bitTime (rate : Nat) : Nat := 5 * 2 ^ rate

/-- The bytes of a frame: header, payload, CRC (R375, R376). -/
def xagFrame (type seq : Nat) (payload : List Byte) : List Byte :=
  let h := toBytes 4 (type + 0x10 + seq % 256 * 2 ^ 8 + payload.length * 2 ^ 16)
  h ++ payload ++ toBytes 4 (crc32 (h ++ payload))

/-- A received frame that passes R375: its TYPE and payload. -/
def xagParse (bs : List Byte) (codeErr : Bool) : Option (Nat × List Byte) :=
  let n := bs.length
  let h := ofBytes (bs.take 4)
  let type := bits h 3 0
  if codeErr || decide (n < 8) || ofBytes (bs.drop (n - 4)) != crc32 (bs.take (n - 4)) || bits h 23 16 + 8 != n ||
    type == 0 || decide (6 < type) || bits h 7 4 != 1 || bits h 31 24 != 0 then none
  else some (type, (bs.take (n - 4)).drop 4)

/-- The one-way cable delay in sixteenths of a nanosecond: half the mean of the last 8 round trips, rounded down (R380; log
entry 41). -/
def PortS.cdly (p : PortS) : Nat :=
  if p.trips = [] then 0 else p.trips.foldl (· + ·) 0 * 8 / p.trips.length

/-- A DRIVE or HUB port transmits a frame whose payload depends on TX_T, in the round of its current bank (R377, R380); an
IDENT_REQ replaces it when asked for (R384). -/
def State.xagSend (s : State) (b k type : Nat) (payload : Nat → List Byte) : State :=
  let p := s.port1 b k
  let bt := bitTime (s.eff (FLD_PCFG_A.RATE b k))
  let start := p.bound + s.txOff b k
  let s := s.until (16 * start)
  let fr := if p.ident then xagFrame 5 p.seq [] else xagFrame type p.seq (payload (start + 40 * bt))
  let s := s.send .field (16 * b + k) fr
  s.putPort b k { p with
    seq := (p.seq + 1) % 256, due := false, ident := false, waiting := true, eof := start + (fr.length + 6) * 10 * bt }

/-- May a port of a role transmit now? -/
def State.portDue (s : State) (b k role : Nat) : Bool :=
  s.isOn (FLD_CTL.EN b) && s.role b k == role && (s.port1 b k).due

/-- APPLY_T of the current bank (R377). -/
def State.applyT (s : State) (b k : Nat) : Nat := (s.port1 b k).bound + s.eff (FLD_APPLY.APPLY b)

/-- The DOWN payload (R377). -/
def State.downPayload (s : State) (b k txT : Nat) : List Byte :=
  let cmd := s.outPlane b 2 k
  let nseg := min (bits cmd 3 2) 2
  let cmd := setBits (cmd % 16) 3 2 nseg
  toBytes 8 txT ++ toBytes 8 (s.applyT b k) ++ toBytes 4 (s.outPlane b 0 k) ++ toBytes 4 (s.outPlane b 1 k) ++
  toBytes 4 cmd ++ toBytes 4 (s.roundLen / 16) ++ toBytes 4 (s.port1 b k).cdly ++ toBytes 4 0 ++
  s.bytes (bankAt b (s.outCur b) (areaOff k)) (32 * nseg)

/-- DOWN (R377). -/
def execDown (b : Fin 64) (k : Fin 16) (s : State) : Res := s.whileLive fun s =>
  if s.portDue b k roleDrive then next (s.xagSend b k 1 (s.downPayload b k)) else next s

/-- HUB_DOWN (R383). -/
def execHubDown (b : Fin 64) (k : Fin 16) (s : State) : Res := s.whileLive fun s =>
  if s.portDue b k roleHub then
    next (s.xagSend b k 3 (fun txT =>
      toBytes 8 txT ++ toBytes 8 (s.applyT b k) ++ toBytes 4 (s.roundLen / 16) ++ toBytes 4 (s.port1 b k).cdly ++
      toBytes 4 (s.outPlane b 0 k) ++ toBytes 4 (s.outPlane b 1 k)))
  else next s

/-- A port's answer of this round is in: a bad one (R379). -/
def State.portBad (s : State) (b k : Nat) : State :=
  (((s.putPort b k { s.port1 b k with waiting := false }).on (FLD_PSTAT.BAD b k)).off (FLD_PSTAT.RXOK b k)).portErr b k

/-- A port's answer of this round is in: a good one. -/
def State.portGood (s : State) (b k : Nat) : State :=
  (((((s.putPort b k { s.port1 b k with waiting := false, got := true }).on (FLD_PSTAT.RXOK b k)).off
    (FLD_PSTAT.BAD b k)).off (FLD_PSTAT.TIMEOUT b k)).bump (FLD_PCNT.COUNT b k))

/-- The round trip of an answer whose SOF arrived `delay` ns after the port's EOF (R380). -/
def State.addTrip (s : State) (b k delay turn : Nat) : State :=
  let p := s.port1 b k
  s.putPort b k { p with trips := ((delay - turn) :: p.trips).take 8 }

/-- Is an answer awaited, and has it arrived in time (R380)? -/
def State.portAwaits (s : State) (b k role delay : Nat) : Bool :=
  s.isOn (FLD_CTL.EN b) && s.role b k == role && (s.port1 b k).waiting && decide (delay ≤ 2500)

/-- UP (R375, R379): the frame bytes received, whether a code error hit them, and when their SOF arrived after the DOWN EOF. -/
def execUp (b : Fin 64) (k : Fin 16) (frame : List Byte) (codeErr : Bool) (delay : BitVec 12) (s : State) : Res := s.whileLive fun s =>
  if !s.portAwaits b k roleDrive delay.toNat then next s
  else
    let at_ := (s.port1 b k).eof + delay.toNat
    let s := s.until (16 * at_)
    match xagParse frame codeErr with
    | some (2, pl) =>
      if pl.length ≠ 28 then next (s.portBad b k)
      else
        let f := fun o n => ofBytes ((pl.drop o).take n)
        let st := f 20 4
        let s := (((s.putPlane b 0 k (f 8 4)).putPlane b 1 k (f 12 4)).putPlane b 2 k (2 ^ 31 + st % 2 ^ 16)).putPlane b 3 k
          (f 16 4)
        let s := s.putArea b k 0 (pl.take 8 ++ toBytes 8 at_)
        next (((s.addTrip b k delay.toNat (f 24 4)).portGood b k).wr (FLD_PSTAT.PEER b k) st)
    | _ => next (s.portBad b k)

/-- HUB_UP (R383). -/
def execHubUp (b : Fin 64) (k : Fin 16) (frame : List Byte) (codeErr : Bool) (delay : BitVec 12) (s : State) : Res := s.whileLive fun s =>
  if !s.portAwaits b k roleHub delay.toNat then next s
  else
    let s := s.until (16 * ((s.port1 b k).eof + delay.toNat))
    match xagParse frame codeErr with
    | some (4, pl) =>
      if pl.length ≠ 24 then next (s.portBad b k)
      else
        let f := fun o n => ofBytes ((pl.drop o).take n)
        let st := f 16 4
        let s := ((s.putPlane b 0 k (f 8 4)).putPlane b 1 k (f 12 4)).putPlane b 2 k (2 ^ 31 + st % 2 ^ 16)
        let s := s.putArea b k 0 (pl.take 8)
        next (((s.addTrip b k delay.toNat (f 20 4)).portGood b k).wr (FLD_PSTAT.PEER b k) st)
    | _ => next (s.portBad b k)

/-- UP_TIMEOUT (R380). -/
def execUpTimeout (b : Fin 64) (k : Fin 16) (s : State) : Res := s.whileLive fun s =>
  let p := s.port1 b k
  if p.waiting then
    let s := (s.until (16 * (p.eof + 2500))).putPort b k { p with waiting := false }
    next (((s.on (FLD_PSTAT.TIMEOUT b k)).off (FLD_PSTAT.RXOK b k)).portErr b k)
  else next s

/-- IDENT_FRAME (R384): the payload goes to port area words 1 and 2. -/
def execIdentFrame (b : Fin 64) (k : Fin 16) (frame : List Byte) (codeErr : Bool) (delay : BitVec 12) (s : State) : Res := s.whileLive fun s =>
  if !(s.portAwaits b k roleDrive delay.toNat || s.portAwaits b k roleHub delay.toNat) then next s
  else
    let s := s.until (16 * ((s.port1 b k).eof + delay.toNat))
    match xagParse frame codeErr with
    | some (6, pl) => if pl.length ≠ 16 then next (s.portBad b k) else next ((s.putArea b k 32 pl).portGood b k)
    | _ => next (s.portBad b k)

/-! Other roles. -/

/-- Gray decoding of an n-bit value. -/
def grayDecode : Nat → Nat → Nat
  | 0, _ => 0
  | n + 1, v => Nat.xor v (grayDecode n (v / 2))

/-- SSI_TRANSFER (R385): the bits the encoder gives, the first one most significant. -/
def execSsiTransfer (b : Fin 64) (k : Fin 16) (value : BitVec 64) (s : State) : Res := s.whileLive fun s =>
  if !s.portDue b k roleSsi then next s
  else
    let p := s.port1 b k
    let due := p.bound + s.txOff b k
    let start := max due p.busyUntil
    let s := (s.when (decide (due < p.busyUntil)) (fun t => t.portErr b k)).until (16 * start)
    let nb := s.opt b k % 128
    let (v, s) := if nb = 0 ∨ 64 < nb then s.fresh 64 else (value.toNat % 2 ^ nb, s)
    let v := if bitb (s.opt b k) 7 then grayDecode 64 v else v
    let s := (s.send .ssi (16 * b + k) []).putPort b k { p with
      due := false, busyUntil := start + (nb + 1) * 100 * 2 ^ s.eff (FLD_PCFG_A.RATE b k) }
    let s := ((s.putPlane b 0 k v).putPlane b 1 k (v / 2 ^ 32)).putArea b k 0 (toBytes 8 start)
    next (s.portGood b k)

/-- A stamp reaches the cameras whose trigger source is (TSRC, TSEL); a trigger whose instant has passed sets TLATE (R395). -/
def State.camOffer (s : State) (tsrc tsel t : Nat) : State :=
  (upto 8).foldl (fun u n =>
    if u.rd (CAM_CTL.TSRC n) = tsrc ∧ u.rd (CAM_CTL.TSEL n) = tsel then
      let c := u.cam1 n
      let at_ := t + u.rd (CAM_TRGDLY.TRGDLY n)
      let u := if at_ < u.now then u.on (CAM_STAT.TLATE n) else u
      { u with cam.ports := SMap.set (fun _ => CamPort.idle) u.cam.ports n { c with trig := c.trig ++ [at_] } }
    else u) s

/-- CAPTURE_EDGE (R386), stamped without the error that R367 and R386 allow (log entry 81). -/
def execCaptureEdge (b : Fin 64) (k : Fin 16) (rising : Bool) (s : State) : Res := s.whileLive fun s =>
  if !(s.isOn (FLD_CTL.EN b) && s.role b k == roleCapture) then next s
  else
    let p := s.port1 b k
    let s := (s.putPort b k { p with level := rising }).wr (FLD_PSTAT.PEER b k) (b2n rising)
    if !bitb (s.opt b k) (if rising then 0 else 1) then next s
    else
      let t := s.now
      let s := s.putPort b k { p with level := rising, edges := p.edges + 1, got := true }
      let s := s.putPlane b 0 k (p.edges + 1)
      let s := if p.edges < 24 then s.putArea b k (8 * p.edges) (toBytes 8 (t % 2 ^ 63 + b2n rising * 2 ^ 63))
        else s.portErr b k
      let s := s.when (bitb (s.opt b k) 2) (fun u => u.on (FLD_IRQ.CAPT b))
      next ((s.bump (FLD_PCNT.COUNT b k)).camOffer 1 (16 * b + k) t)

/-- PULSE_ENTRY (R387): the next unplaced entry of a PULSE port. -/
def execPulseEntry (b : Fin 64) (k : Fin 16) (s : State) : Res := s.whileLive fun s =>
  let p := s.port1 b k
  if !(s.isOn (FLD_CTL.EN b) && s.role b k == rolePulse) || bitb (s.opt b k) 1 then next s
  else match p.entries with
  | [] => next s
  | (l, t) :: rest =>
    let late := decide (t < p.bound + 100) || decide (t ≤ p.lastAt)
    let s := if late then (s.on (FLD_PSTAT.LATE b k)).portErr b k else s.until (16 * t)
    let s := s.putPort b k { p with entries := rest, lastAt := t }
    next ((s.drivePin b k l).bump (FLD_PCNT.COUNT b k))

/-- A mark's stamp reaches the PULSE ports that follow it; one whose instant has passed places no pulse (R387). -/
def State.pulseOffer (s : State) (mark t : Nat) : State :=
  ((upto 64).filter (fun b => s.isOn (FLD_CTL.EN b))).foldl (fun u b => (upto 16).foldl (fun u k =>
    if u.role b k = rolePulse ∧ bitb (u.opt b k) 1 ∧ bits (u.opt b k) 5 2 = mark then
      let p := u.port1 b k
      if t + u.txOff b k < u.now then (u.on (FLD_PSTAT.LATE b k)).portErr b k
      else u.putPort b k { p with stamps := p.stamps ++ [t] }
    else u) u) s

/-- MARK_PULSE (R387): the oldest stamp not yet placed. -/
def execMarkPulse (b : Fin 64) (k : Fin 16) (s : State) : Res := s.whileLive fun s =>
  let p := s.port1 b k
  if !(s.isOn (FLD_CTL.EN b) && s.role b k == rolePulse && bitb (s.opt b k) 1) then next s
  else match p.stamps with
  | [] => next s
  | t :: rest =>
    let at_ := t + s.txOff b k
    let s := s.putPort b k { p with stamps := rest }
    let s := ((s.until (16 * at_)).drivePin b k (!p.level)).bump (FLD_PCNT.COUNT b k)
    let s := s.until (16 * (at_ + 16 * s.eff (FLD_PCFG_B.WIDTH b k)))
    next (s.drivePin b k p.level)

/-- Baud rates of a UART port (R368). -/
def uartBaud (rate : Nat) : Nat := nth [9600, 19200, 38400, 57600, 115200, 1000000, 3125000, 12500000] rate

/-- UART_TRANSMIT (R388). -/
def execUartTransmit (b : Fin 64) (k : Fin 16) (s : State) : Res := s.whileLive fun s =>
  if !s.portDue b k roleUart then next s
  else
    let p := s.port1 b k
    let area := bankAt b (s.outCur b) (areaOff k)
    let n := min (s.num area 2) 190
    let busy := decide (p.bound < p.busyUntil)
    let start := if busy then p.busyUntil else p.bound + s.txOff b k
    let s := (s.when busy (fun t => t.portErr b k)).until (16 * start)
    let opt := s.opt b k
    let nb := 10 + b2n (bitb opt 0) + b2n (bits opt 2 1 != 0)
    let s := s.send .uart (16 * b + k) (s.bytes (area + 2) n)
    next (s.putPort b k { p with
      due := false, busyUntil := start + n * nb * 1000000000 / uartBaud (s.eff (FLD_PCFG_A.RATE b k)) })

/-- UART_RECEIVE (R388): a character, and whether its framing or parity is wrong. -/
def execUartReceive (b : Fin 64) (k : Fin 16) (char : BitVec 8) (bad : Bool) (s : State) : Res := s.whileLive fun s =>
  let p := s.port1 b k
  if !(s.isOn (FLD_CTL.EN b) && s.role b k == roleUart) || decide (s.now < p.busyUntil) then next s
  else if bad || decide (190 ≤ p.rx) then next (s.portErr b k)
  else
    let s := (s.putArea b k (2 + p.rx) [char]).putArea b k 0 (toBytes 2 (p.rx + 1))
    let s := s.putPort b k { p with rx := p.rx + 1, got := true }
    next (s.bump (FLD_PCNT.COUNT b k))

/-! Field-port requests (R389), by module port number; false where the request is refused. -/

def State.fldIdent (s : State) (p : Nat) : Bool × State :=
  let b := p / 16
  let k := p % 16
  if p < 1024 ∧ (s.role b k = roleDrive ∨ s.role b k = roleHub) then
    (true, s.putPort b k { s.port1 b k with ident := true })
  else (false, s)

def State.fldClear (s : State) (p : Nat) : Bool × State :=
  if p < 1024 then (true, (s.wr (FLD_PCNT.COUNT (p / 16) (p % 16)) 0).wr (FLD_PERR.COUNT (p / 16) (p % 16)) 0) else (false, s)

/-- SETCFG writes FLD_PCFGk_A; a value that R368 refuses sets CFGERR as a write does. -/
def State.fldSetCfg (s : State) (p v : Nat) : Bool × State :=
  if p < 1024 then (true, s.fldConfig (FLD_PCFG_A.addr (p / 16) (p % 16)) (v % 2 ^ 17)) else (false, s)

/-- What a cold or warm reset leaves of the field blocks beyond their registers (R397). -/
def State.fldReset (s : State) : State := ({ s with fld := FldS.reset }).wipeMem (2 ^ 43) (2 ^ 44)

end Sys2Proof.Machine
end

