-- ==== Sys2Proof/Machine/Camera.lean ====
section
/-! DEFINITION. Machine/Camera.lean: the camera ports (R393 to R396, R400). -/

namespace Sys2Proof.Machine

def State.putCam (s : State) (n : Nat) (c : CamPort) : State :=
  { s with cam.ports := SMap.set (fun _ => CamPort.idle) s.cam.ports n c }

/-- Bytes per pixel of a format, none for a format the port drops (R393). -/
def camWide : CamFmt → Option Bool
  | .mono8 => some false
  | .bayer8 => some false
  | .mono10 => some true
  | .mono12 => some true
  | .mono14 => some true
  | .mono16 => some true
  | .bayer16 => some true
  | .other => none

/-- Are cameras powered (R444)? -/
def State.camOn (s : State) (n : Nat) : Bool := s.isOn (CAM_CTL.EN n) && s.isOn (CAM_STAT.LINK n) && !s.isOn PWR_DOWN.CAM

/-- The next FREE slot in ascending order after the last one taken (R394). -/
def State.camFree (s : State) (n : Nat) : Option Nat :=
  let c := s.cam1 n
  let m := s.rd (CAM_GEOM.NSLOT n) + 1
  ((upto m).map (fun i => ((if c.last + 1 < m then c.last + 1 else 0) + i) % m)).find? (fun k => !bitb c.filling k && !bitb c.held k)

/-- FRAME_START (R394): stream 0 of a frame of stream ID 0 begins; other streams are discarded and counted (R393). Its stamp
has no error (log entry 81). -/
def execFrameStart (n : Fin 8) (stream0 : Bool) (fmt : CamFmt) (s : State) : Res := s.whileLive fun s =>
  let c := s.cam1 n
  if !s.camOn n then next s
  else if !stream0 then next (s.bump (CAM_DROP_CNT.COUNT n))
  else if c.frame.isSome then next s
  else match camWide fmt with
  | none => next ((s.on (CAM_STAT.FMTERR n)).bump (CAM_DROP_CNT.COUNT n))
  | some wide =>
    match s.camFree n with
    | none => next ((s.on (CAM_STAT.OVR n)).bump (CAM_DROP_CNT.COUNT n))
    | some k => next (s.putCam n { c with filling := Nat.lor c.filling (2 ^ k), last := k, frame := some (k, s.now, wide) })

/-- The bytes of a pixel as stored. -/
def pixelBytes (wide : Bool) (p : BitVec 16) : List Byte := toBytes (if wide then 2 else 1) p.toNat

/-- A row cut into runs of received pixels: (first byte, bytes); a pixel lost to the buffer is not written (R394). -/
def rowRuns (wide : Bool) (off : Nat) : List (Option (BitVec 16)) → List (Nat × List Byte)
  | [] => []
  | none :: t => rowRuns wide (off + (if wide then 2 else 1)) t
  | some p :: t =>
    let b := pixelBytes wide p
    match rowRuns wide (off + b.length) t with
    | (o, bs) :: rest => if o = off + b.length then (off, b ++ bs) :: rest else (off, b) :: (o, bs) :: rest
    | [] => [(off, b)]

/-- FRAME_END (R394): the frame's rows of pixels go to its slot, the slot is HELD, an entry is pushed. -/
def execFrameEnd (n : Fin 8) (rows : List (List (Option (BitVec 16)))) (s : State) : Res := s.whileLive fun s =>
  let c := s.cam1 n
  match c.frame with
  | none => next s
  | some (k, stamp, wide) =>
    let size := s.rd (CAM_SLOTSZ.SIZE n) * 32
    let base := s.rd (CAM_RBASE.BASE n) * 32 + k * size
    let pitch := s.rd (CAM_GEOM.PITCH n) * 32
    let px := if wide then 2 else 1
    let fit := (upto rows.length).filter (fun r => decide (r * pitch + min pitch ((rows.getD r []).length * px) ≤ size))
    let kept := fit.map (fun r => (r, (rows.getD r []).take (pitch / px)))
    let s := kept.foldl (fun t r => (rowRuns wide 0 r.2).foldl (fun t w =>
      (t.latWriteBytes (0x30 + n) 5 (base + r.1 * pitch + w.1) w.2).2) t) s
    let trunc := decide (fit.length < rows.length) || rows.any (fun r => decide (pitch < r.length * px) || r.any Option.isNone)
    let s := (s.when trunc (fun t => t.on (CAM_STAT.TRUNC n))).bump (CAM_FCNT.COUNT n)
    let e : CamDoneE := ⟨trunc, wide, k, s.rd (CAM_FCNT.COUNT n) % 2 ^ 16, fit.length, (rows.headD []).length, stamp⟩
    let c := { c with frame := none, filling := setBits c.filling k k 0, held := Nat.lor c.held (2 ^ k) }
    next (s.putCam n (if c.fifo.length < 16 then { c with fifo := c.fifo ++ [e] } else { c with ovf := true }))

/-- What a read of CAM_DONE gives, and the state after it (R400). -/
def State.camDonePop (s : State) (n : Nat) : Nat × State :=
  let c := s.cam1 n
  match c.fifo with
  | [] => (b2n c.ovf * 2 ^ 30, s.putCam n { c with ovf := false })
  | e :: rest =>
    let v := e.frame + e.slot * 2 ^ 16 + b2n e.wide * 2 ^ 28 + b2n e.trunc * 2 ^ 29 + b2n c.ovf * 2 ^ 30 + 2 ^ 31
    let s := s.putCam n { c with fifo := rest }
    let s := (s.wr (CAM_DINFO.ROWS n) e.rows).wr (CAM_DINFO.COLS n) e.cols
    (v, s.wr2 (CAM_DSTAMP_LO.STAMP n) (CAM_DSTAMP_HI.STAMP n) e.stamp)

/-- CAM_DONE (R400): a read of CAM_DONE. -/
def execCamDone (n : Fin 8) (s : State) : Res :=
  let (v, t) := s.camDonePop n
  next (t.answer (.data (toBytes 4 v)))

/-- CAM_REL (R394, R400): a write of CAM_REL. -/
def execCamRel (n : Fin 8) (go : Bool) (slot : Fin 16) (s : State) : Res :=
  let c := s.cam1 n
  if go then next (s.putCam n { c with held := setBits c.held slot slot 0 }) else next s

/-- The least of a list, and the list without it. -/
def takeLeast : List Nat → Option (Nat × List Nat)
  | [] => none
  | a :: t => let m := t.foldl min a; some (m, (a :: t).erase m)

/-- TRIGGER (R395): the earliest trigger that waits is sent at its instant, or at once when that has passed. -/
def execTrigger (n : Fin 8) (s : State) : Res := s.whileLive fun s =>
  let c := s.cam1 n
  match takeLeast c.trig with
  | none => next s
  | some (t, rest) =>
    next (((s.putCam n { c with trig := rest }).until (16 * t)).send .camera n [1])

/-- CAM_CCMD (R396): a write of CAM_CCMD; with GO and not BUSY, the access starts with the WRITE and LEN written. A GO while BUSY
is ignored. -/
def execCamCcmd (n : Fin 8) (value : BitVec 32) (s : State) : Res :=
  let v := value.toNat
  let s := s.when (bitb v 30) (fun t => t.off (CAM_CCMD.ERR n))
  let s := (s.wr (CAM_CCMD.WRITE n) (bit v 29)).wr (CAM_CCMD.LEN n) (bits v 5 0)
  if !bitb v 31 || s.isOn (CAM_CCMD.BUSY n) then next s
  else
    let len := s.rd (CAM_CCMD.LEN n)
    let data := if bitb v 29 then (upto (len / 4)).flatMap (fun w => toBytes 4 (s.rd (CAM_CDATA.DATA n w))) else []
    let s := s.send .camera n (2 :: BitVec.ofNat 8 (bit v 29) :: BitVec.ofNat 8 len ::
      (toBytes 4 (s.rd (CAM_CADDR.ADDR n)) ++ data))
    next ((s.on (CAM_CCMD.BUSY n)).putCam n { s.cam1 n with
      ackBy := s.now + 200000000, accWrite := bitb v 29, accLen := len })

/-- CONTROL_ACK (R396): the acknowledgement, an error or data words for a read. -/
def execControlAck (n : Fin 8) (error : Bool) (data : List (BitVec 32)) (s : State) : Res := s.whileLive fun s =>
  if !s.isOn (CAM_CCMD.BUSY n) then next s
  else
    let s := s.off (CAM_CCMD.BUSY n)
    if error then next (s.on (CAM_CCMD.ERR n))
    else if (s.cam1 n).accWrite then next s
    else
      let k := min (min data.length 8) ((s.cam1 n).accLen / 4)
      next ((upto k).foldl (fun t w => t.wr (CAM_CDATA.DATA n w) (data.getD w 0).toNat) s)

/-- CONTROL_TIMEOUT (R396): 200 ms without an acknowledgement. -/
def execControlTimeout (n : Fin 8) (s : State) : Res := s.whileLive fun s =>
  if s.isOn (CAM_CCMD.BUSY n) then
    next (((s.until (16 * (s.cam1 n).ackBy)).off (CAM_CCMD.BUSY n)).on (CAM_CCMD.ERR n))
  else next s

/-- CAMERA_LINK_UP (R393): discovery ends at a bit rate, SPEED 1 to 7. -/
def execCameraLinkUp (n : Fin 8) (speed : Fin 8) (s : State) : Res := s.whileLive fun s =>
  if speed.val = 0 ∨ s.isOn PWR_DOWN.CAM then next s
  else next ((s.on (CAM_STAT.LINK n)).wr (CAM_STAT.SPEED n) speed)

/-- The running frame of a camera ends, and its slot is FREE again (log entry 28). -/
def State.camDropFrame (s : State) (n : Nat) : State :=
  let c := s.cam1 n
  match c.frame with
  | some (k, _, _) => s.putCam n { c with frame := none, filling := setBits c.filling k k 0 }
  | none => s

/-- CAMERA_LINK_LOSS (R400): the link is lost or has a coding error; the running frame ends with it (its slot is FREE
again: log entry 28). -/
def execCameraLinkLoss (n : Fin 8) (s : State) : Res := s.whileLive fun s =>
  next ((((s.on (CAM_STAT.LINKERR n)).off (CAM_STAT.LINK n)).wr (CAM_STAT.SPEED n) 0).camDropFrame n)

/-- Can EN be set: does the ring lie above the control area and within the Lattice (R400)? -/
def State.camRingOk (s : State) (n : Nat) : Bool :=
  let base := s.rd (CAM_RBASE.BASE n) * 32
  decide (0x100000 ≤ base) && decide (base + (s.rd (CAM_GEOM.NSLOT n) + 1) * (s.rd (CAM_SLOTSZ.SIZE n) * 32) ≤ latWords * 32)

/-- A write to CAM_CTL, CAM_RBASE, CAM_SLOTSZ or CAM_GEOM (R400), the reserved bits of v being 0. -/
def State.camConfig (s : State) (n off v : Nat) : State :=
  if off = 0 then
    let ctl := if bitb v 0 && !s.isOn (CAM_CTL.EN n) && !s.camRingOk n then v - 1 else v
    (s.wrReg (CAM_CTL.addr n) ctl).when (ctl != v) (fun t => t.on (CAM_STAT.CFGERR n))
  else if s.isOn (CAM_CTL.EN n) then s.on (CAM_STAT.CFGERR n)
  else s.wrReg (CAM_CTL.addr n + off) v

end Sys2Proof.Machine
end

