-- ==== Sys2Proof/Machine/Cap.lean ====
section
/-! DEFINITION. Machine/Cap.lean: the capability (R271 to R273), its currency (R277, R278) and device checks (R279). -/

namespace Sys2Proof.Machine

/-- The null capability (R271). -/
def Cap.null : Cap := ⟨0, false⟩

def Cap.base (c : Cap) : Nat := bits c.v.toNat 39 0
def Cap.len (c : Cap) : Nat := bits c.v.toNat 79 40
def Cap.perm (c : Cap) : Nat := bits c.v.toNat 95 80
def Cap.otype (c : Cap) : Nat := bits c.v.toNat 99 96
def Cap.sealv (c : Cap) : Nat := bits c.v.toNat 111 100
def Cap.epoch (c : Cap) : Nat := bits c.v.toNat 127 112
def Cap.slot (c : Cap) : Nat := bits c.v.toNat 127 124
def Cap.gen (c : Cap) : Nat := bits c.v.toNat 123 112

/-- Does a capability grant permission bit i (R273)? -/
def Cap.has (c : Cap) (i : Nat) : Bool := bitb c.perm i

abbrev permR : Nat := 0
abbrev permW : Nat := 1
abbrev permX : Nat := 2
abbrev permTL : Nat := 3
abbrev permTS : Nat := 4
abbrev permSEC : Nat := 5
abbrev permENQ : Nat := 6
abbrev permDEQ : Nat := 7
abbrev permUSE : Nat := 8
abbrev permCFG : Nat := 9
abbrev permSEAL : Nat := 10
abbrev permUNSEAL : Nat := 11
abbrev permMASK : Nat := 12
abbrev permSYS : Nat := 13

/-- A capability from its fields. -/
def Cap.make (base len perm otype sealv epoch : Nat) (tag : Bool) : Cap :=
  ⟨BitVec.ofNat 128 (base % 2 ^ 40 + len % 2 ^ 40 * 2 ^ 40 + perm % 2 ^ 16 * 2 ^ 80 + otype % 16 * 2 ^ 96 +
    sealv % 4096 * 2 ^ 100 + epoch % 2 ^ 16 * 2 ^ 112), tag⟩

/-- Do n bytes or objects from a lie in the capability's range, computed exactly (R271)? -/
def Cap.covers (c : Cap) (a n : Nat) : Bool := decide (c.base ≤ a) && decide (a + n ≤ c.base + c.len)

/-- Is a capability current against epoch registers (R277)? -/
def Cap.current (c : Cap) (epr : List (Nat × Nat)) : Bool := c.gen == SMap.get (fun _ => 0) epr c.slot

/-- The checks of a device capability in order (R279): the handler entry of the failing check (R290: 5 CAP_TAG, 8
CAP_SEAL, 7 CAP_PERM, 6 CAP_BOUNDS), or none. -/
def Cap.deviceCheck (c : Cap) (epr : List (Nat × Nat)) (otype perm obj n : Nat) : Option Nat :=
  if !(c.tag && c.current epr) then some 5
  else if !(c.sealv == 0 && c.otype == otype) then some 8
  else if !c.has perm then some 7
  else if !c.covers obj n then some 6
  else none

end Sys2Proof.Machine
end

