-- ==== Sys2Proof/Machine/Operands.lean ====
section
/-! DEFINITION. Machine/Operands.lean: Trifle's registers as its instructions read and write them: G, F, V, P, C and the
gate entry registers, the special registers and the system registers (R217, R218, R245, R253, R265, R271, R304), Trifle's
clock and CT (R21, R218). -/

namespace Sys2Proof.Machine

/-! General, floating-point, vector and predicate registers. -/

/-- G[r]: G0 reads zero (R217). -/
def State.g (s : State) (r : Nat) : Word := if r = 0 then 0 else SMap.get (fun _ => (0 : Word)) s.tri.g r

/-- G[r] takes a value; a write to G0 is discarded (R217). -/
def State.setG (s : State) (r : Nat) (v : Word) : State :=
  if r = 0 then s else { s with tri.g := SMap.set (fun _ => (0 : Word)) s.tri.g r v }

/-- G[r] takes the low 64 bits of a number. -/
def State.setGN (s : State) (r v : Nat) : State := s.setG r (BitVec.ofNat 64 v)

/-- F[r] (R245). -/
def State.f (s : State) (r : Nat) : Word := SMap.get (fun _ => (0 : Word)) s.tri.f r

/-- F[r] takes a value. -/
def State.setF (s : State) (r v : Nat) : State :=
  { s with tri.f := SMap.set (fun _ => (0 : Word)) s.tri.f r (BitVec.ofNat 64 v) }

/-- V[r] (R245). -/
def State.v (s : State) (r : Nat) : VWord := SMap.get (fun _ => (0 : VWord)) s.tri.v r

/-- V[r] takes a value. -/
def State.setV (s : State) (r v : Nat) : State :=
  { s with tri.v := SMap.set (fun _ => (0 : VWord)) s.tri.v r (BitVec.ofNat 128 v) }

/-- P[r]: P0 reads all ones (R245). -/
def State.p (s : State) (r : Nat) : Word :=
  if r = 0 then BitVec.allOnes 64 else SMap.get (fun _ => (0 : Word)) s.tri.p r

/-- P[r] takes a value; a write to P0 is discarded (R245). -/
def State.setP (s : State) (r : Nat) (v : Word) : State :=
  if r = 0 then s else { s with tri.p := SMap.set (fun _ => (0 : Word)) s.tri.p r v }

/-! Vector groups (R253): `grp` codes 1, 2 or 4 registers as 0, 1, 2, and `es` elements of 1, 2, 4 or 8 bytes as 0 to 3. -/

/-- Registers of a group. -/
def grpRegs (grp : Nat) : Nat := 2 ^ grp
/-- Bytes of an element. -/
def elemBytes (es : Nat) : Nat := 2 ^ es
/-- Elements of a group. -/
def grpElems (grp es : Nat) : Nat := 16 * grpRegs grp / elemBytes es
/-- Does a register number name a group? -/
def grpOk (grp r : Nat) : Bool := r % grpRegs grp == 0

/-- The group of V registers named r, as one value. -/
def State.vgroup (s : State) (grp r : Nat) : Nat :=
  (upto (grpRegs grp)).foldl (fun acc i => acc + (s.v (r + i)).toNat * 2 ^ (128 * i)) 0

/-- The group of V registers named r takes a value. -/
def State.setVgroup (s : State) (grp r v : Nat) : State :=
  (upto (grpRegs grp)).foldl (fun t i => t.setV (r + i) (v / 2 ^ (128 * i))) s

/-- Element k of a group value. -/
def velem (es v k : Nat) : Nat := bits v (8 * elemBytes es * (k + 1) - 1) (8 * elemBytes es * k)

/-- A group value with element k replaced. -/
def setVelem (es v k x : Nat) : Nat := setBits v (8 * elemBytes es * (k + 1) - 1) (8 * elemBytes es * k) x

/-- Is element k active under P[pr] (R254)? -/
def State.active (s : State) (pr k : Nat) : Bool := (s.p pr).getLsbD k

/-! Capability registers. -/

/-- C[r]. -/
def State.c (s : State) (r : Nat) : Cap := SMap.get (fun _ => Cap.null) s.tri.c r

/-- C[r] takes a capability. -/
def State.setC (s : State) (r : Nat) (c : Cap) : State := { s with tri.c := SMap.set (fun _ => Cap.null) s.tri.c r c }

/-- A gate entry register as written (2n CODE, 2n + 1 DATA), and as in force (R244, R286). -/
def State.geRead (s : State) (i : Nat) : Cap := SMap.get (fun _ => Cap.null) s.tri.ge i
def State.geIn (s : State) (i : Nat) : Cap := SMap.get (fun _ => Cap.null) s.tri.geUsed i

/-- Is a capability current for Trifle (R277)? -/
def State.currentCap (s : State) (c : Cap) : Bool := c.current s.tri.epr

/-! Trifle's clock, and CT. -/

/-- tc since the reset, in sixteenths (R218). -/
def State.clk (s : State) : Nat := s.tri.clk

/-- n tc pass. -/
def State.tick (s : State) (n : Nat) : State := s.clkPass (16 * n)

/-- Time passes until Trifle's clock reads t. -/
def State.clkUntil (s : State) (t : Nat) : State := s.clkPass (t - s.clk)

/-- A read of CT: 2 to 6 ns behind the master, never less than the last one (R21); how far is a free value. -/
def State.readCt (s : State) : Nat × State :=
  let (x, t) := s.ctNow
  let v := max s.tri.ctLast x
  (v, { t with tri.ctLast := v })

/-- The least chain time in ns at which CT has surely reached a limit. -/
def ctSure (limit : Nat) : Nat := limit + 6

/-! Special registers (R218, R265). -/

/-- The bits that MTSR writes; none for a number that is not RW. -/
def spMask (n : Nat) : Option Nat :=
  if n < 2 ∨ (0x10 ≤ n ∧ n ≤ 0x12) then some (2 ^ 64 - 1) else if n = 0x13 then some 0xFF else if n = 0x18 then some 0x3F
  else none

/-- A special register that State holds. -/
def State.sp (s : State) (n : Nat) : Word := SMap.get (fun _ => (0 : Word)) s.tri.sp n

/-- It takes a value. -/
def State.setSp (s : State) (n v : Nat) : State :=
  { s with tri.sp := SMap.set (fun _ => (0 : Word)) s.tri.sp n (BitVec.ofNat 64 v) }

abbrev spPL : Nat := 0
abbrev spPH : Nat := 1
abbrev spCnt : Nat := 0x10
abbrev spSrc : Nat := 0x11
abbrev spDst : Nat := 0x12
abbrev spSt : Nat := 0x13
abbrev spVx : Nat := 0x18

/-- The product register {PH, PL} (R234). -/
def State.product (s : State) : Nat := (s.sp spPL).toNat + (s.sp spPH).toNat * 2 ^ 64

/-- A write of the product register (R235). -/
def State.applyMul (s : State) (m : MulOp) : State :=
  match m with
  | .set v => (s.setSp spPL v.toNat).setSp spPH (v.toNat / 2 ^ 64)
  | .add v => let x := s.product + v.toNat; (s.setSp spPL x).setSp spPH (x / 2 ^ 64)
  | .low v => s.setSp spPL v.toNat
  | .high v => s.setSp spPH v.toNat

/-- A write of the product register starts in X: it takes place three tc later (R235). -/
def State.startMul (s : State) (m : MulOp) : State := { s with tri.mul := s.tri.mul ++ [(s.clk + 48, m)] }

/-- The writes that are due take place, in order (R235). -/
def State.mulDue (s : State) : State :=
  let t := (s.tri.mul.filter (fun w => decide (w.1 ≤ s.clk))).foldl (fun t w => t.applyMul w.2) s
  { t with tri.mul := s.tri.mul.filter (fun w => decide (s.clk < w.1)) }

/-! Entry state. -/

/-- The kind of the top frame, as TSTAT.TOPKIND codes it (R304). -/
def State.topKind (s : State) : Nat :=
  match s.tri.stack with
  | [] => 0
  | f :: _ => match f.kind with | .gate => 1 | .handler => 2 | .escalation => 3

/-- Is an escalation frame on the entry stack (R292)? -/
def State.escalated (s : State) : Bool := s.tri.stack.any (fun f => f.kind == .escalation)

/-- Does a window end still lie ahead? -/
def State.windowOpen (s : State) (w : Option Nat) : Bool := w.any (fun e => decide (s.clk < e))

/-- Is a hold window in force: the current handler's, or one that a fault entry interrupted (R300)? -/
def State.held (s : State) : Bool := s.windowOpen s.tri.hold || s.tri.stack.any (fun f => s.windowOpen f.hold)

/-- Hold windows whose count has ended are over, and HOLD_OVR shows it (R300). -/
def State.holdTick (s : State) : State :=
  let past (w : Option Nat) : Bool := w.any (fun e => decide (e ≤ s.clk))
  if past s.tri.hold || s.tri.stack.any (fun f => past f.hold) then
    { s with tri.holdOvr := true
             tri.hold := if past s.tri.hold then none else s.tri.hold
             tri.stack := s.tri.stack.map (fun f => { f with hold := if past f.hold then none else f.hold }) }
  else s

/-- TSTAT (R304). -/
def State.tstat (s : State) : Nat :=
  s.tri.actl + s.tri.comp * 2 ^ 9 + s.topKind * 2 ^ 14 + s.tri.stack.length * 2 ^ 16 + b2n s.tri.epx * 2 ^ 28 +
    b2n s.held * 2 ^ 29 + b2n s.escalated * 2 ^ 30 + b2n s.tri.holdOvr * 2 ^ 31

/-! The event register (R266 to R268). -/

/-- Trifle goes on at the instruction after a wait, whose result G[rd] takes. -/
def State.endWait (s : State) (rd v : Nat) : State :=
  let t := s.setGN rd v
  { t with tri.wait := none, tri.pc := s.tri.pc + 4, tri.insn := s.tri.insn + 1, dbg.step := false }

/-- Do Trifle's slices issue: in Run, with no reset called for or asserted and no resynchronisation pause (R414, R197), and with
no halt or Frost, nor a resynchronisation that a halt still owes (R203), unless the debug logic steps one instruction (R469, R471)? -/
def State.triClocked (s : State) : Bool :=
  s.pwr.state == .run && s.pwr.asserted == 0 && s.pwr.req == 0 && s.rcv.paused.isNone &&
    ((!s.isOn DBG_STAT.HALTED && !s.isOn DBG_STAT.FROST && !s.isOn RCV_STAT.LOCKSTEP_BROKEN) || s.dbg.step)

/-- A WAITEV that finds EV set ends (R268). -/
def State.waitCheck (s : State) : State :=
  match s.tri.wait with
  | some (.event rd _) => if s.tri.ev && s.triClocked then { s.endWait rd 0 with tri.ev := false } else s
  | _ => s

/-- An event reaches Trifle: it sets EV, which ends a WAITEV (R267, R268). -/
def State.event (s : State) : State := ({ s with tri.ev := true }).waitCheck

end Sys2Proof.Machine
end

