-- ==== Sys2Proof/Machine/Security.lean ====
section
/-! DEFINITION. Machine/Security.lean: lifecycle, key slots, signed authorisations, the wipe and tamper (R446 to R456). -/

namespace Sys2Proof.Machine

/-- The n-th free value as 32 bytes: SEC_NONCE and DBG_NONCE are held as such numbers. -/
def nonceBytes (n : Nat) : List Byte := toBytes 32 (Config.freeBits n).toNat

/-- The public key of a slot (R447). -/
def State.slotKey (s : State) (k : Nat) : List Byte := (s.sec.keys.find? (fun x => x.1 == k)).elim (List.replicate 64 0) (·.2)

/-- Is a slot programmed and not revoked (R447)? -/
def State.slotUsable (s : State) (k : Nat) : Bool := bitb s.sec.prog k && !bitb s.sec.revoked k

/-- Sixteen registers as 64 bytes. -/
def State.words16 (s : State) (f : Nat → Fld) : List Byte := (upto 16).flatMap (fun w => toBytes 4 (s.rd (f w)))

/-- Does a signature verify over a message under a usable slot that a test allows (R447, R448)? -/
def State.slotSigned (s : State) (allow : Nat → Bool) (msg sig : List Byte) : Bool :=
  (upto 4).any (fun k => s.slotUsable k && allow k && Config.ecdsaVerify (s.slotKey k) msg sig)

/-- A signed authorisation (R448) for OP and ARG, by a slot that a test allows. -/
def State.authorised (s : State) (allow : Nat → Bool) (op arg : Nat) : Bool :=
  s.slotSigned allow (nonceBytes s.sec.nonce ++ toBytes 8 s.sec.serial.toNat ++ toBytes 1 op ++ toBytes 1 arg) (s.words16 SEC_AUTH.AUTH)

/-- A fresh SEC_NONCE is drawn at every write of SEC_LCCMD (R448). -/
def State.newNonce (s : State) : State := { s with sec.nonce := s.free, free := s.free + 1 }

/-- The command is refused (R453). -/
def State.secRefuse (s : State) : State := s.on SEC_STAT.REFUSED

/-- The size of the Secure Store (R23). -/
abbrev secureSize : Nat := 0x10000

/-- The granules of the Secure Store with lasting faults. -/
def State.secureStuck (s : State) : List (Nat × BitVec 72) :=
  s.stuck.filter (fun c => decide (secureBase / 8 ≤ c.1) && decide (c.1 < (secureBase + secureSize) / 8))

/-- Does a read-back of the wiped Secure Store fail (R456)? -/
def State.wipeFails (s : State) : Bool :=
  s.secureStuck.any (fun c => let (d, y) := s.gran c.1; d != 0 || eccClass y == .uncorrectable)

/-- A wipe (R456): all of the Secure Store is zero with valid check bits; lasting faults invert their bits again, and where
a read-back then fails, WIPEFAIL is set. -/
def State.wipeSecure (s : State) : State :=
  let t := { s.wipeMem secureBase (secureBase + secureSize) with
    syn := SMap.clear s.syn (secureBase / 8) ((secureBase + secureSize) / 8) }
  let t := s.secureStuck.foldl (fun u c => u.flipGran c.1 c.2) t
  t.when t.wipeFails (fun u => u.on SEC_STAT.WIPEFAIL)

/-- Is the Secure Store usable (R454, R456)? -/
def State.secureOpen (s : State) : Bool :=
  s.lifecycle != 0 && s.lifecycle != 4 && !s.isOn SEC_STAT.WIPEFAIL && !s.isOn SEC_STAT.WIPING

/-- The session keys and exchanges are erased (R451). -/
def State.eraseKeys (s : State) : State := { s with chn.keys := [], chn.sess := [] }

/-- The debug unlock ends (R468). -/
def State.endUnlock (s : State) : State := { (s.off DBG_STAT.UNLOCKED).off DBG_STAT.SCOPESEC with dbg.run := false }

/-- An accepted transition (R453): its fuse has blown; wipe, keys erased, cold reset. -/
def State.transition (s : State) : State := (((s.wipeSecure).eraseKeys).endUnlock).callReset 3 11

/-- Blow the next lifecycle fuse. -/
def State.blow (s : State) : State := { s with sec.n := s.sec.n + 1 }

/-- PROVISION (R453): needs debug access. -/
def execProvision (debug : Bool) (s : State) : Res :=
  if s.lifecycle = 0 ∧ debug then next ((s.newNonce.blow).transition) else next s.newNonce.secRefuse

/-- DEPLOY (R453): needs a programmed slot. -/
def execDeploy (s : State) : Res :=
  if s.lifecycle = 1 ∧ s.sec.prog % 16 ≠ 0 then next ((s.newNonce.blow).transition) else next s.newNonce.secRefuse

/-- SERVICE (R453): needs a signed authorisation, and n ≤ 126. -/
def execService (arg : Fin 4) (s : State) : Res :=
  if s.lifecycle = 2 ∧ s.sec.n ≤ 126 ∧ s.authorised (fun _ => true) 3 arg then next ((s.newNonce.blow).transition)
  else next s.newNonce.secRefuse

/-- LIFECYCLE_RESUME (R453): SEC_LCCMD with OP RESUME. -/
def execLifecycleResume (s : State) : Res :=
  if s.lifecycle = 3 then next ((s.newNonce.blow).transition) else next s.newNonce.secRefuse

/-- RETIRE (R453): from DEPLOYED it needs a signed authorisation. -/
def execRetire (arg : Fin 4) (s : State) : Res :=
  if s.lifecycle = 1 ∨ s.lifecycle = 3 ∨ (s.lifecycle = 2 ∧ s.authorised (fun _ => true) 5 arg) then
    next ({ s.newNonce with sec.retired := true }.transition)
  else next s.newNonce.secRefuse

/-- KEYPROG (R453): in PROVISIONED, a slot is programmed from SEC_KBUF, once only. -/
def execKeyprog (slot : Fin 4) (s : State) : Res :=
  let k := slot.val
  if s.lifecycle = 1 ∧ !bitb s.sec.prog k then
    next { s.newNonce with
      sec.prog := Nat.lor s.sec.prog (2 ^ k)
      sec.keys := (k, s.words16 SEC_KBUF.KBUF) :: s.sec.keys.filter (fun x => x.1 != k) }
  else next s.newNonce.secRefuse

/-- REVOKE (R453, R448): signed by another slot; refused if no unrevoked slot would be left. -/
def execRevoke (slot : Fin 4) (s : State) : Res :=
  let k := slot.val
  if s.authorised (fun j => j != k) 7 k ∧ (upto 4).any (fun j => j != k && s.slotUsable j) then
    next { s.newNonce with sec.revoked := Nat.lor s.sec.revoked (2 ^ k) }
  else next s.newNonce.secRefuse

/-- WIPE (R456): SEC_CMD.WIPE. -/
def execWipe (s : State) : Res := next s.wipeSecure

/-- Mailbox channels 32 to 63 are cleared, with their messages, doorbells, flags and staging areas (R455). -/
def State.mbxSecureClear (s : State) : State :=
  (segRange 32 64).foldl (fun t n =>
    let t := (upto 16).foldl (fun u w => u.wr (MBX_RX.DATA n w) 0) t
    ((((t.wr (MBX_DB.DB n) 0).off (MBX_STAT.FULL n)).off (MBX_STAT.EMPTY n)).off (MBX_STAT.COLLIDE n)).mbxClearTx n) s

/-- TAMPER (R455): the sources that fire: 0 MESH, 1 VOLT, 2 CLK, 3 TEMP; none in BLANK, and VOLT and CLK not while power
fails (R481). -/
def execTamper (sources : BitVec 4) (s : State) : Res :=
  let m := if s.pwr.fail then Nat.land sources.toNat 9 else sources.toNat
  if m = 0 ∨ s.lifecycle = 0 ∨ !s.chnPowered then next s
  else
    let s := (s.orBits SEC_TAMPER.CAUSE m).bump SEC_TAMPER_CNT.COUNT
    next (((((s.wipeSecure).eraseKeys).endUnlock).mbxSecureClear).callReset 3 10)

end Sys2Proof.Machine
end

