-- ==== Sys2Proof/Machine/Boot.lean ====
section
/-! DEFINITION. Machine/Boot.lean: the boot ROM's paths (R428 to R434), the recipe header (R438, R439), the firmware image
(R442) and the boot record (R430). -/

namespace Sys2Proof.Machine

/-- A firmware image: its LEN, LOAD, ENTRY and body. -/
structure FwImage where
  len : Nat
  load : Nat
  entry : Nat
  body : List Byte
deriving DecidableEq, Repr

/-- The firmware image in bytes that begin with its header, if the header is valid (R442). -/
def fwImage (bs : List Byte) : Option FwImage :=
  let len := fieldOf bs 8 4
  let load := fieldOf bs 12 4
  let entry := fieldOf bs 16 4
  let body := (bs.take len).drop 64
  if fieldOf bs 0 4 == 0x57465254 && fieldOf bs 4 2 == 1 && fieldOf bs 6 2 == 0 && zeroAt bs 20 12 &&
      len % 4 == 0 && decide (64 ≤ len) && decide (len ≤ 0x200000) && decide (len ≤ bs.length) &&
      load % 4 == 0 && entry % 4 == 0 && decide (load + len - 64 ≤ 0x200000) &&
      decide (load ≤ entry) && decide (entry < load + len - 64) &&
      (bs.drop 32).take 32 == Config.sha256 body then
    some ⟨len, load, entry, body⟩
  else none

/-- The number of sections of a type. -/
def dirCount (l : List DirEnt) (t : Nat) : Nat := (l.filter (fun e => e.type == t)).length

/-- Do two sections overlap? -/
def DirEnt.overlaps (a b : DirEnt) : Bool := decide (a.off < b.off + b.len) && decide (b.off < a.off + a.len)

/-- Is no pair of a list related by a test? -/
def noPair {α : Type} (f : α → α → Bool) : List α → Bool
  | [] => true
  | a :: t => !(t.any (f a)) && noPair f t

/-- Does the directory obey R439? -/
def dirOk (h : List Byte) : Bool :=
  let l := recipeDir h
  let ilen := fieldOf h 0x10 4
  decide (1 ≤ fieldOf h 6 2) && decide (fieldOf h 6 2 ≤ 64) &&
  zeroAt h (0x60 + 48 * fieldOf h 6 2) (48 * (64 - fieldOf h 6 2)) &&
  (upto (fieldOf h 6 2)).all (fun i => fieldOf h (0x62 + 48 * i) 2 == 0 && fieldOf h (0x6C + 48 * i) 4 == 0) &&
  l.all (fun e => decide (1 ≤ e.type) && decide (e.type ≤ 8) && e.off % 4096 == 0 && decide (4096 ≤ e.off) &&
    decide (e.off + e.len ≤ ilen)) &&
  noPair DirEnt.overlaps l &&
  dirCount l 1 == 1 && dirCount l 5 == 1 && decide (dirCount l 2 ≤ 1) && decide (dirCount l 3 ≤ 1) && decide (dirCount l 7 ≤ 1) &&
  l.all (fun e => (e.type != 2 || decide (e.len ≤ 0x200000)) && (e.type != 3 || e.len == 16384) &&
    (e.type != 7 || decide (e.len ≤ 0x80000)))

/-- Does SIG verify under the key that R447 names? -/
def State.recipeSigOk (s : State) (h : List Byte) : Bool :=
  let keyid := (h.drop 0xF40).take 32
  let sig := (h.drop 0xF00).take 64
  (s.lifecycle == 1 && s.sec.prog % 16 == 0 && keyid.all (· == 0)) ||
  (upto 4).any (fun k => s.slotUsable k && keyid == Config.sha256 (s.slotKey k) &&
    Config.ecdsaVerify (s.slotKey k) (h.take 0xF00) sig)

/-- Is a recipe header valid but for its signature (R431, R438, R439)? -/
def recipeFormOk (h : List Byte) : Bool :=
  h.length == 4096 && (upto 4).all (fun i => zeroAt h (0x1B + 8 * i) 1) && fieldOf h 0 4 == 0x50564352 && fieldOf h 4 2 == 1 &&
  fieldOf h 0xFFC 4 == crc32c (h.take 0xFFC) &&
  zeroAt h 0x38 40 && zeroAt h 0xC60 672 && zeroAt h 0xF60 156 &&
  fieldOf h 0x10 4 % 4096 == 0 && decide (4096 ≤ fieldOf h 0x10 4) && decide (fieldOf h 0x10 4 ≤ 0x8000000) &&
  decide (50 ≤ fieldOf h 0x14 2) && decide (fieldOf h 0x14 2 ≤ 200) && decide (4 ≤ fieldOf h 0x16 1) &&
  decide (fieldOf h 0x16 1 ≤ 31) && decide (fieldOf h 0x17 1 ≤ 4) && dirOk h

/-- Is a recipe header valid (R431)? -/
def State.recipeOk (s : State) (h : List Byte) : Bool := recipeFormOk h && s.recipeSigOk h

/-! The boot record (R430). -/

/-- Is the boot record valid? One that cannot be read is not (log entry 98). -/
def State.bootRecOk (s : State) : Bool :=
  !((s.eccRead bootRecAt 128).2.any GEv.ue) && fieldOf s.bootRec 0 4 == 0x54425243 &&
  fieldOf s.bootRec 0x78 4 == crc32c (s.bootRec.take 0x78)

/-- Write the boot record's first 120 bytes, with its CRC. -/
def State.putBootRec (s : State) (bs : List Byte) : State :=
  (s.eccWrite bootRecAt (bs.take 0x78 ++ toBytes 4 (crc32c (bs.take 0x78)) ++ [0, 0, 0, 0])).1

/-- Slot k of a boot record: FW_BASE, FW_LEN, FW_HASH. -/
def recSlot (bs : List Byte) (k : Nat) : Nat × Nat × List Byte :=
  (fieldOf bs (0x18 + 0x30 * k) 8, fieldOf bs (0x20 + 0x30 * k) 4, (bs.drop (0x28 + 0x30 * k)).take 32)

/-- The bytes of a slot. -/
def slotBytes (base len : Nat) (hash : List Byte) : List Byte :=
  toBytes 8 base ++ toBytes 4 len ++ [0, 0, 0, 0] ++ (hash ++ List.replicate (32 - hash.length) 0).take 32

/-- A boot record of FLAGS, recipe base and length, and two slots. -/
def recOf (flags base len : Nat) (s0 s1 : List Byte) : List Byte :=
  toBytes 4 0x54425243 ++ toBytes 4 flags ++ toBytes 8 base ++ toBytes 8 len ++ s0 ++ s1

/-- The bytes of slot k as they stand. -/
def recSlotBytes (bs : List Byte) (k : Nat) : List Byte := (bs.drop (0x18 + 0x30 * k)).take 0x30

/-! Handover. -/

/-- The body of an image goes to Trifle Local with fresh check bits (log entry 98), and Trifle goes on at its entry with the
path code (R429). -/
def State.handover (s : State) (img : FwImage) (path : Nat) : State :=
  let s := (s.eccWrite (tLocalBase + img.load) img.body).1.clearTags (tLocalBase + img.load) img.body.length
  let s := (((s.setGN 1 path).setGN 2 (fieldOf s.bootRec 8 8)).setGN 3 (fieldOf s.bootRec 0x10 8)).setGN 4 (s.rdReg RST_CAUSE.addr)
  { s with pwr.path := path, tri.pc := BitVec.ofNat 40 (tLocalBase + img.entry) }

/-- The image at a Bulk address, of a stated length (R432): none for a bus error or an invalid header. -/
def State.readImage (s : State) (base len : Nat) : Option FwImage × State :=
  match s.dataReads 0 base (min len 0x200000) with
  | (none, t) => (none, t)
  | (some bs, t) => (fwImage bs, t)

/-- The boot ROM waits (R431, R454). -/
def State.bootWait (s : State) : State := { s with pwr.path := 0xFF }

/-! Paths. -/

/-- From step 4 of R431: the image whose header is h lies in Bulk at base; false if a check fails. -/
def State.bootImage (s : State) (base : Nat) (h : List Byte) (path : Nat) : Bool × State :=
  match (recipeDir h).find? (fun e => e.type == 1) with
  | none => (false, s)
  | some e =>
    match s.dataReads 0 (base + e.off) e.len with
    | (none, t) => (false, t)
    | (some bs, t) =>
      match fwImage bs with
      | none => (false, t)
      | some img =>
        if Config.sha256 bs = e.hash then
          let rec_ := recOf 0 base (fieldOf h 0x10 4) (slotBytes (base + e.off) img.len (Config.sha256 img.body)) (slotBytes 0 0 [])
          (true, (t.putBootRec rec_).handover img path)
        else (false, t)

/-- Where the bytes of a flash device are stored. -/
def flashAt (dev a : Nat) : Nat := flashBase + dev * 2 ^ 27 + a

/-- Configuration command i of a recipe header goes to a flash device (R431, R438). -/
def State.flashConfig (s : State) (dev : Nat) (h : List Byte) (i : Nat) : State :=
  let at_ := 0x18 + 8 * i
  let flags := fieldOf h (at_ + 2) 1
  s.sendFlash dev (fieldOf h at_ 1) (if bitb flags 0 then some (fieldOf h (at_ + 4) 4) else none)
    (if bitb flags 1 then some (fieldOf h (at_ + 1) 1) else none)

/-- Steps 3 to 5 of R431 with one device. -/
def State.bootDevice (s : State) (dev : Nat) (h : List Byte) : Bool × State :=
  let s := (upto (fieldOf h 0x17 1)).foldl (fun t i => t.flashConfig dev h i) s
  match s.dataWrites 0 bulkBase (s.bytes (flashAt dev 0) (fieldOf h 0x10 4)) with
  | (false, t) => (false, t)
  | (true, t) => t.bootImage bulkBase h 0

/-- The flash path (R431): the devices' reset contacts are pulsed, and their headers read. -/
def State.flashPath (s : State) : State :=
  let s := (s.send .flash 2 [0]).send .flash 3 [0]
  let ha := s.bytes (flashAt 0 0) 4096
  let hb := s.bytes (flashAt 1 0) 4096
  let okA := s.recipeOk ha
  let okB := s.recipeOk hb
  let first := if okA && (!okB || decide (fieldOf hb 8 8 ≤ fieldOf ha 8 8)) then 0 else 1
  let hdr := fun d => if d = 0 then ha else hb
  let ok := fun d => if d = 0 then okA else okB
  if !okA && !okB then s.bootWait
  else match s.bootDevice first (hdr first) with
  | (true, t) => t
  | (false, t) =>
    if ok (1 - first) then
      match t.bootDevice (1 - first) (hdr (1 - first)) with
      | (true, u) => u
      | (false, u) => u.bootWait
    else t.bootWait

/-- The cache path (R432), with the roll-back of a provisional start; the flash path if it fails. -/
def State.cachePath (s : State) : State :=
  let r := s.bootRec
  let flags := fieldOf r 4 4
  let act := bit flags 0
  let roll := bitb flags 1 && decide (1 ≤ s.rd RST_STARTS.COUNT)
  if roll && (recSlot r (1 - act)).2.1 == 0 then s.flashPath
  else
    let slot := if roll then 1 - act else act
    let s := if roll then s.putBootRec (r.take 4 ++ toBytes 4 slot ++ r.drop 8) else s
    let (base, len, hash) := recSlot r slot
    match s.readImage base len with
    | (some img, t) =>
      if img.len = len ∧ Config.sha256 img.body = hash then
        t.handover img (if roll then 5 else if s.pwr.last = 1 then 2 else 1)
      else t.flashPath
    | (none, t) => t.flashPath

/-- The swap path (R433): FWSWAP is cleared first; on success the other slot becomes active and provisional. -/
def State.swapPath (s : State) : State :=
  let s := s.off SCH_SWAP_STAT.FWSWAP
  let base := s.rd SCH_FW_BASE_LO.ADDR_LO * 4096 + s.rd SCH_FW_BASE_HI.ADDR_HI * 2 ^ 32
  let len := s.rd SCH_FW_LEN.LEN
  let fall := fun (t : State) => if t.bootRecOk then t.cachePath else t.flashPath
  match s.readImage base len with
  | (some img, t) =>
    if img.len = len ∧ t.bootRecOk then
      let r := t.bootRec
      let k := 1 - bit (fieldOf r 4 4) 0
      let new := slotBytes base len (Config.sha256 img.body)
      let s0 := if k = 0 then new else recSlotBytes r 0
      let s1 := if k = 1 then new else recSlotBytes r 1
      (t.putBootRec (recOf (k + 2) (fieldOf r 8 8) (fieldOf r 0x10 8) s0 s1)).handover img 3
    else fall t
  | (none, t) => fall t

/-- The boot ROM at a start (R428): the first path whose condition holds. -/
def State.bootStart (s : State) : State :=
  if s.lifecycle = 0 ∨ s.lifecycle = 4 then s.bootWait
  else if 3 ≤ s.rd RST_STARTS.COUNT then
    let s := (s.on RST_STAT.LULL).bootWait
    (s.wr CHN_RSTAGE_LO.ADDR_LO (0x08000000 / 2048)).wr CHN_RSTAGE_HI.ADDR_HI 0x08
  else
    let s := { s.on RST_STAT.WIN with pwr.winLeft := 2000000000, pwr.winFrom := s.refNow }
    if s.pwr.last = 1 ∧ s.isOn SCH_SWAP_STAT.FWSWAP then s.swapPath
    else if s.pwr.last < 3 ∧ s.bootRecOk then s.cachePath
    else s.flashPath

/-- The staging address of a recipe transfer (R363). -/
def State.stageBase (s : State) : Nat := s.rd CHN_RSTAGE_LO.ADDR_LO * 2048 + s.rd CHN_RSTAGE_HI.ADDR_HI * 2 ^ 32

/-- The Lull path (R434): the staged image is booted, RST_STARTS := 0; flash is not written. An image that fails leaves the module
in Lull. -/
def State.lullPath (s : State) : State :=
  match s.dataReads 0 s.stageBase 4096 with
  | (none, t) => t
  | (some h, t) =>
    match t.bootImage t.stageBase h 4 with
    | (true, u) => (u.wr RST_STARTS.COUNT 0).off RST_STAT.LULL
    | (false, u) => u

end Sys2Proof.Machine
end

