-- ==== Sys2Proof/Machine/IEEE.lean ====
section
/-! DEFINITION. Machine/IEEE.lean: IEEE 754-2019 binary32 and binary64 arithmetic as the spec uses it: exact values,
one rounding, tininess after rounding, the canonical quiet NaN (R132 to R134 for the Ribbons, R246, R249 for Trifle).
Flags are a number: bit 0 inexact, 1 underflow, 2 overflow, 3 divide-by-zero, 4 invalid (R93). -/

namespace Sys2Proof.Machine

/-- Rounding directions (R91, R246): ties to even, toward zero, toward +∞, toward −∞. -/
inductive Rnd where
  | rne | rtz | rup | rdn
deriving DecidableEq, Repr

/-- A binary format: significand bits (hidden bit included) and exponent bits. -/
structure Fmt where
  p : Nat
  eb : Nat
deriving DecidableEq, Repr

def fmt32 : Fmt := ⟨24, 8⟩
def fmt64 : Fmt := ⟨53, 11⟩

/-- Total width. -/
def Fmt.w (f : Fmt) : Nat := f.p + f.eb
/-- The exponent field of infinities and NaNs. -/
def Fmt.emaxField (f : Fmt) : Nat := 2 ^ f.eb - 1
/-- The exponent of the least significant bit of a subnormal number. -/
def Fmt.qmin (f : Fmt) : Int := 2 - (2 ^ (f.eb - 1) : Nat) - (f.p - 1 : Nat)
/-- The sign bit in place. -/
def Fmt.sgn (f : Fmt) (neg : Bool) : Nat := if neg then 2 ^ (f.w - 1) else 0
/-- The canonical quiet NaN (R133). -/
def Fmt.nan (f : Fmt) : Nat := f.emaxField * 2 ^ (f.p - 1) + 2 ^ (f.p - 2)
/-- Infinity. -/
def Fmt.inf (f : Fmt) (neg : Bool) : Nat := f.sgn neg + f.emaxField * 2 ^ (f.p - 1)
/-- The largest finite magnitude. -/
def Fmt.maxFin (f : Fmt) (neg : Bool) : Nat := f.sgn neg + f.emaxField * 2 ^ (f.p - 1) - 1

/-- What a pattern denotes: a finite value is (−1)^neg × m × 2^e. -/
inductive FVal where
  | nan (signalling : Bool)
  | inf (neg : Bool)
  | fin (neg : Bool) (m : Nat) (e : Int)
deriving DecidableEq, Repr

/-- Read a pattern. With ftz, a subnormal reads as a zero of the same sign (R134). -/
def fdec (f : Fmt) (ftz : Bool) (x : Nat) : FVal :=
  let neg := bitb x (f.w - 1)
  let ex := bits x (f.w - 2) (f.p - 1)
  let fr := x % 2 ^ (f.p - 1)
  if ex = f.emaxField then
    if fr = 0 then .inf neg else .nan (!bitb x (f.p - 2))
  else if ex = 0 then .fin neg (if ftz then 0 else fr) f.qmin
  else .fin neg (fr + 2 ^ (f.p - 1)) (f.qmin + (ex - 1 : Nat))

def flNX : Nat := 1
def flUF : Nat := 2
def flOF : Nat := 4
def flNV : Nat := 16

/-- Does a quotient q with remainder r of 2^s round up in magnitude? -/
def roundsUp (mode : Rnd) (neg : Bool) (q r half : Nat) : Bool :=
  match mode with
  | .rne => decide (r > half) || (decide (r = half) && decide (half ≠ 0) && q % 2 == 1)
  | .rtz => false
  | .rup => decide (r ≠ 0) && !neg
  | .rdn => decide (r ≠ 0) && neg

/-- m × 2^e rounded to a multiple of 2^qe: the integer significand, and whether anything was lost. -/
def quant (mode : Rnd) (neg : Bool) (m : Nat) (e qe : Int) : Nat × Bool :=
  if qe ≤ e then (m * 2 ^ (e - qe).toNat, false)
  else
    let s := (qe - e).toNat
    let q := m / 2 ^ s
    let r := m % 2 ^ s
    (if roundsUp mode neg q r (2 ^ (s - 1)) then q + 1 else q, decide (r ≠ 0))

/-- The result of an overflow by direction (IEEE 754-2019, clause 7.4). -/
def ovfResult (f : Fmt) (mode : Rnd) (neg : Bool) : Nat :=
  match mode with
  | .rne => f.inf neg
  | .rtz => f.maxFin neg
  | .rup => if neg then f.maxFin neg else f.inf neg
  | .rdn => if neg then f.inf neg else f.maxFin neg

/-- Round a nonzero exact value (−1)^neg × m × 2^e once: pattern and flags (R132, R134). -/
def froundNZ (f : Fmt) (mode : Rnd) (ftz : Bool) (neg : Bool) (m : Nat) (e : Int) : Nat × Nat :=
  let top : Int := (Nat.log2 m : Int) + e
  let qu : Int := top - (f.p - 1 : Nat)                  -- the quantum with unbounded exponent
  let (qU, _) := quant mode neg m e qu
  -- tiny: the value rounded with unbounded exponent lies below the smallest normal magnitude
  let tiny := decide (qu < f.qmin) && !(decide (qu + 1 = f.qmin) && decide (qU = 2 ^ f.p))
  if tiny && ftz then (f.sgn neg, flUF + flNX)
  else
    let qe := if qu < f.qmin then f.qmin else qu
    let (q, inexact) := quant mode neg m e qe
    let mag := if q < 2 ^ (f.p - 1) then q
               else ((qe - f.qmin).toNat + 1) * 2 ^ (f.p - 1) + (q - 2 ^ (f.p - 1))
    if f.emaxField * 2 ^ (f.p - 1) ≤ mag then (ovfResult f mode neg, flOF + flNX)
    else (f.sgn neg + mag, (if inexact then flNX else 0) + (if tiny && inexact then flUF else 0))

/-- Round an exact value; zneg is the sign an exact zero takes. -/
def fround (f : Fmt) (mode : Rnd) (ftz zneg : Bool) (v : Int) (e : Int) : Nat × Nat :=
  if v = 0 then (f.sgn zneg, 0) else froundNZ f mode ftz (decide (v < 0)) v.natAbs e

/-- The signed significand of a finite value. -/
def sgnd (neg : Bool) (m : Nat) : Int := if neg then -(m : Int) else m

/-- The sign of an exact zero sum of terms with signs a and b (IEEE 754-2019, clause 6.3). -/
def zeroSum (mode : Rnd) (a b : Bool) : Bool := if a = b then a else mode == .rdn

/-- The exact sum of two dyadic values. -/
def dyAdd (v1 : Int) (e1 : Int) (v2 : Int) (e2 : Int) : Int × Int :=
  if e1 ≤ e2 then (v1 + v2 * 2 ^ (e2 - e1).toNat, e1) else (v1 * 2 ^ (e1 - e2).toNat + v2, e2)

def FVal.isSNaN : FVal → Bool
  | .nan s => s
  | _ => false

def FVal.isNaN : FVal → Bool
  | .nan _ => true
  | _ => false

def FVal.flip : FVal → FVal
  | .nan s => .nan s
  | .inf n => .inf (!n)
  | .fin n m e => .fin (!n) m e

/-- invalid if any operand is a signalling NaN (R133). -/
def snanFlag (l : List FVal) : Nat := if l.any FVal.isSNaN then flNV else 0

/-- a + b, rounded once. -/
def faddV (f : Fmt) (mode : Rnd) (ftz : Bool) (a b : FVal) : Nat × Nat :=
  match a, b with
  | .nan _, _ => (f.nan, snanFlag [a, b])
  | _, .nan _ => (f.nan, snanFlag [a, b])
  | .inf n, .inf k => if n = k then (f.inf n, 0) else (f.nan, flNV)
  | .inf n, _ => (f.inf n, 0)
  | _, .inf k => (f.inf k, 0)
  | .fin n m e, .fin n' m' e' =>
    let (v, x) := dyAdd (sgnd n m) e (sgnd n' m') e'
    fround f mode ftz (zeroSum mode n n') v x

def fadd (f : Fmt) (mode : Rnd) (ftz : Bool) (a b : Nat) : Nat × Nat :=
  faddV f mode ftz (fdec f ftz a) (fdec f ftz b)

def fsub (f : Fmt) (mode : Rnd) (ftz : Bool) (a b : Nat) : Nat × Nat :=
  faddV f mode ftz (fdec f ftz a) (fdec f ftz b).flip

/-- a × b + c, rounded once (R132, R133: 0 × ∞ is invalid even when the addend is a quiet NaN). -/
def ffmaV (f : Fmt) (mode : Rnd) (ftz : Bool) (a b c : FVal) : Nat × Nat :=
  let prod : FVal × Nat :=
    match a, b with
    | .nan _, _ => (.nan false, 0)
    | _, .nan _ => (.nan false, 0)
    | .inf n, .inf k => (.inf (Bool.xor n k), 0)
    | .inf n, .fin k m _ => if m = 0 then (.nan false, flNV) else (.inf (Bool.xor n k), 0)
    | .fin n m _, .inf k => if m = 0 then (.nan false, flNV) else (.inf (Bool.xor n k), 0)
    | .fin n m e, .fin k m' e' => (.fin (Bool.xor n k) (m * m') (e + e'), 0)
  let r := faddV f mode ftz prod.1 c
  (r.1, r.2 ||| prod.2 ||| snanFlag [a, b, c])

def ffma (f : Fmt) (mode : Rnd) (ftz : Bool) (a b c : Nat) : Nat × Nat :=
  ffmaV f mode ftz (fdec f ftz a) (fdec f ftz b) (fdec f ftz c)

/-- a × b, rounded once; the sign of a zero product is the product of the signs. -/
def fmul (f : Fmt) (mode : Rnd) (ftz : Bool) (a b : Nat) : Nat × Nat :=
  match fdec f ftz a, fdec f ftz b with
  | .nan s, y => (f.nan, snanFlag [.nan s, y])
  | x, .nan s => (f.nan, snanFlag [x, .nan s])
  | .inf n, .inf k => (f.inf (Bool.xor n k), 0)
  | .inf n, .fin k m _ => if m = 0 then (f.nan, flNV) else (f.inf (Bool.xor n k), 0)
  | .fin n m _, .inf k => if m = 0 then (f.nan, flNV) else (f.inf (Bool.xor n k), 0)
  | .fin n m e, .fin k m' e' =>
    fround f mode ftz (Bool.xor n k) (sgnd (Bool.xor n k) (m * m')) (e + e')

/-- A totally ordered key of a non-NaN pattern: −0 below +0. -/
def fkey (f : Fmt) (x : Nat) : Int :=
  let mag := x % 2 ^ (f.w - 1)
  if bitb x (f.w - 1) then -(mag : Int) - 1 else mag

/-- Replace a subnormal by a zero of the same sign when flushing (R134). -/
def fflush (f : Fmt) (ftz : Bool) (x : Nat) : Nat :=
  if ftz && decide (bits x (f.w - 2) (f.p - 1) = 0) then f.sgn (bitb x (f.w - 1)) else x

/-- IEEE minimum or maximum, or (num) minimumNumber or maximumNumber (R139, R249). -/
def fminmax (f : Fmt) (ftz max num : Bool) (a b : Nat) : Nat × Nat :=
  let va := fdec f ftz a
  let vb := fdec f ftz b
  let fl := snanFlag [va, vb]
  let a' := fflush f ftz a
  let b' := fflush f ftz b
  if va.isNaN && vb.isNaN then (f.nan, fl)
  else if va.isNaN then (if num then b' else f.nan, fl)
  else if vb.isNaN then (if num then a' else f.nan, fl)
  else if max then (if fkey f a' < fkey f b' then b' else a', fl)
  else (if fkey f b' < fkey f a' then b' else a', fl)

/-- The comparisons: less, equal, greater, unordered. -/
inductive FCmp where
  | lt | eq | gt | un
deriving DecidableEq, Repr

/-- Compare two values; zeros of either sign are equal. -/
def fcmpV (a b : FVal) : FCmp :=
  match a, b with
  | .nan _, _ => .un
  | _, .nan _ => .un
  | .inf n, .inf k => if n = k then .eq else if n then .lt else .gt
  | .inf n, _ => if n then .lt else .gt
  | _, .inf k => if k then .gt else .lt
  | .fin n m e, .fin n' m' e' =>
    let (v, _) := dyAdd (sgnd n m) e (-(sgnd n' m')) e'
    if v < 0 then .lt else if v = 0 then .eq else .gt

/-- An integer rounded from a dyadic value v × 2^e in a mode. -/
def intRound (mode : Rnd) (v : Int) (e : Int) : Int × Bool :=
  let (q, ix) := quant mode (decide (v < 0)) v.natAbs e 0
  (if v < 0 then -(q : Int) else q, ix)

/-- Convert to an integer in [lo, hi], the value first scaled by 2^fb: out of range or NaN is invalid (R141, R249). -/
def ftoi (f : Fmt) (mode : Rnd) (ftz : Bool) (fb : Nat) (lo hi nanv : Int) (a : Nat) : Int × Nat :=
  match fdec f ftz a with
  | .nan _ => (nanv, flNV)
  | .inf n => (if n then lo else hi, flNV)
  | .fin n m e =>
    let (v, ix) := intRound mode (sgnd n m) (e + fb)
    if v < lo then (lo, flNV) else if hi < v then (hi, flNV) else (v, if ix then flNX else 0)

/-- Convert an exact value v / 2^fb. -/
def itof (f : Fmt) (mode : Rnd) (fb : Nat) (v : Int) : Nat × Nat :=
  fround f mode false false v (-(fb : Int))

/-- Convert between the two formats (R141, R248). -/
def fcvt (src dst : Fmt) (mode : Rnd) (ftz : Bool) (a : Nat) : Nat × Nat :=
  match fdec src ftz a with
  | .nan s => (dst.nan, if s then flNV else 0)
  | .inf n => (dst.inf n, 0)
  | .fin n m e => fround dst mode ftz n (sgnd n m) e

/-- A copy without arithmetic: a NaN becomes canonical, a signalling one raises invalid (R133). -/
def fcopy (f : Fmt) (ftz : Bool) (a : Nat) : Nat × Nat :=
  match fdec f ftz a with
  | .nan s => (f.nan, if s then flNV else 0)
  | _ => (fflush f ftz a, 0)

end Sys2Proof.Machine
end

