-- ==== Sys2Proof/Machine/RibOps.lean ====
section
/-! DEFINITION. Machine/RibOps.lean: the operations of the Ribbon units on one position or one beat (R127 to R152):
typing of operation fields, MAC, ALU, Reduce/Permute and Cam arithmetic. Values are bit patterns as natural numbers;
element types are the codes of R84. -/

namespace Sys2Proof.Machine

/-! Element types (R84, R127, R135). -/

/-- Width in bits of an element type. -/
def etW (e : Nat) : Nat := if e < 2 then 8 else if e < 5 then 16 else if e < 9 then 32 else if e < 12 then 64 else 1

def etInt (e : Nat) : Bool := [0, 1, 2, 3, 5, 6, 9, 10].elem e
def etFix (e : Nat) : Bool := e == 4 || e == 7
def etFlt (e : Nat) : Bool := e == 8 || e == 11
def etMask (e : Nat) : Bool := e == 12
def etSigned (e : Nat) : Bool := [1, 3, 4, 6, 7, 10].elem e
/-- Fraction bits (R135). -/
def etFb (e : Nat) : Nat := if e = 4 then 15 else if e = 7 then 31 else 0
/-- The floating-point format of a FLT type. -/
def etFmt (e : Nat) : Fmt := if e = 11 then fmt64 else fmt32
/-- The integer a pattern represents (R135). -/
def etVal (e x : Nat) : Int := if etSigned e then asInt x (etW e) else (x % 2 ^ etW e : Nat)
/-- The least and the greatest representable integer. -/
def etMin (e : Nat) : Int := if etSigned e then -(2 ^ (etW e - 1) : Nat) else 0
def etMax (e : Nat) : Int := if etSigned e then (2 ^ (etW e - 1) : Nat) - 1 else (2 ^ etW e : Nat) - 1
/-- wrap (R135), as a pattern. -/
def etEnc (e : Nat) (v : Int) : Nat := ofInt v (etW e)

/-- rnd(num / 2^sh, qrnd) (R135). -/
def rndQ (num : Int) (sh : Nat) (qrnd : Bool) : Int :=
  let f := num / (2 ^ sh : Nat)
  let r := num % (2 ^ sh : Nat)
  if (2 ^ sh : Nat) < 2 * r ∨ (2 * r = (2 ^ sh : Nat) ∧ (qrnd ∨ f % 2 = 1)) then f + 1 else f

/-- sat (R135): the clamped integer and the sat flag. -/
def satQ (n : Int) (e : Nat) : Int × Bool :=
  if etMax e < n then (etMax e, true) else if n < etMin e then (etMin e, true) else (n, false)

/-! One unit result: pattern, floating-point flags, saturation. -/

structure UOut where
  v : Nat
  fl : Nat
  sat : Bool
deriving DecidableEq, Repr

def UOut.ofFlt (r : Nat × Nat) : UOut := ⟨r.1, r.2, false⟩
def UOut.ofSat (e : Nat) (n : Int) : UOut := let (m, b) := satQ n e; ⟨etEnc e m, 0, b⟩
def UOut.plain (v : Nat) : UOut := ⟨v, 0, false⟩

/-- Control of arithmetic from CTRL (R91). -/
structure RCtl where
  rm : Rnd
  ftz : Bool
  qrnd : Bool
deriving DecidableEq, Repr

/-- RMODE (R91). -/
def rmodeOf (n : Nat) : Rnd := match n with | 0 => .rne | 1 => .rtz | 2 => .rup | _ => .rdn

/-! MAC units (R136, R137). -/

/-- The result type of QMAC with WIDE. -/
def qmacWide (e : Nat) : Option Nat :=
  match e with | 0 => some 2 | 1 => some 3 | 2 => some 5 | 3 => some 6 | 5 => some 9 | 6 => some 10 | 4 => some 7 | _ => none

/-- Result type of a MAC operation field, or none for a reserved code (R127, R130, R136). -/
def macType (op : Nat) (window : Bool) : Option Nat :=
  let f := bits op 15 8
  let t := bits op 7 4
  let m := bits op 3 0
  let accOk := window || !bitb m 2
  if f = 1 then if etFlt t && !bitb m 3 && accOk then some t else none
  else if f = 2 ∨ f = 3 then if etFlt t && m == 0 then some t else none
  else if f = 4 then if etInt t && !bitb m 3 && accOk then some t else none
  else if f = 5 then if (etInt t || etFix t) && accOk then (if bitb m 3 then qmacWide t else some t) else none
  else none

/-- The scale of QMAC's exact accumulator: x = acc / 2^(qmacScale) (R137). -/
def qmacScale (t rt : Nat) : Nat := max (2 * etFb t) (etFb rt)

/-- One position of a MAC at one tap (R137): result, and the accumulator for the next tap. `first` holds at tap 0. -/
def macPos (op sh : Nat) (c : RCtl) (first : Bool) (acc : Int) (a b d : Nat) : UOut × Int :=
  let f := bits op 15 8
  let t := bits op 7 4
  let negp := bitb op 0
  let negc := bitb op 1
  let useAcc := bitb op 2 && !first
  let fm := etFmt t
  let flip (neg : Bool) (v : FVal) : FVal := if neg then v.flip else v
  if f = 1 then
    let add := if useAcc then fdec fm c.ftz acc.toNat else flip negc (fdec fm c.ftz d)
    let r := ffmaV fm c.rm c.ftz (flip negp (fdec fm c.ftz a)) (fdec fm c.ftz b) add
    (UOut.ofFlt r, (r.1 : Nat))
  else if f = 2 then (UOut.ofFlt (fmul fm c.rm c.ftz a b), 0)
  else if f = 3 then (UOut.ofFlt (fadd fm c.rm c.ftz a b), 0)
  else if f = 4 then
    let p := etVal t a * etVal t b
    let add := if useAcc then acc else (if negc then -etVal t d else etVal t d)
    let r := etEnc t ((if negp then -p else p) + add)
    (UOut.plain r, etVal t r)
  else
    let rt := if bitb op 3 then (qmacWide t).getD t else t
    let k := qmacScale t rt
    let p := etVal t a * etVal t b * (2 ^ (k - 2 * etFb t) : Nat)
    let cv := etVal rt d * (2 ^ (k - etFb rt) : Nat)
    let x := (if negp then -p else p) + (if useAcc then acc else (if negc then -cv else cv))
    (UOut.ofSat rt (rndQ x (k - etFb rt + sh) c.qrnd), x)

/-! ALU (R138 to R141). -/

/-- Is an ALU operation field defined, and what type results (R127, R138, R141)? -/
def aluType (op : Nat) : Option Nat :=
  let f := bits op 15 8
  let t := bits op 7 4
  let m := bits op 3 0
  let ifx := etInt t || etFix t
  if 1 ≤ f ∧ f ≤ 5 then if (etInt t || etMask t) && m == 0 then some t else none
  else if f = 8 ∨ f = 9 then if (ifx || etFlt t) && (m == 0 || (m == 1 && etInt t)) then some t else none
  else if f = 0xA ∨ f = 0xE then if (ifx || etFlt t) && m == 0 then some t else none
  else if f = 0xC ∨ f = 0xD then if (ifx || etFlt t) && (m == 0 || (m == 1 && etFlt t)) then some t else none
  else if f = 0x10 then if ifx && decide (m < 2) then some t else none
  else if 0x11 ≤ f ∧ f ≤ 0x13 then if ifx && m == 0 then some t else none
  else if 0x18 ≤ f ∧ f ≤ 0x1D then if (ifx || etFlt t) && m == 0 then some 12 else none
  else if f = 0x1E then if etFlt t && m == 0 then some 12 else none
  else if f = 0x1F then if etInt t && m == 0 then some 12 else none
  else if f = 0x20 then
    if decide (m < 13) && decide (t < 13) &&
      (if etMask t then etMask m || etInt m else if etMask m then etInt t else true) then some m else none
  else if f = 0x21 then if etFlt t && (etInt m || etFix m) then some m else none
  else none

/-- Does an ALU operation use B? -/
def aluUsesB (op : Nat) : Bool := let f := bits op 15 8; !(f == 5 || f == 0x20 || f == 0x21)

/-- |a − b| exactly, rounded once (R139). -/
def fabd (f : Fmt) (c : RCtl) (a b : Nat) : Nat × Nat :=
  match fdec f c.ftz a, fdec f c.ftz b with
  | .nan s, y => (f.nan, snanFlag [.nan s, y])
  | x, .nan s => (f.nan, snanFlag [x, .nan s])
  | .inf n, .inf k => if n = k then (f.nan, flNV) else (f.inf false, 0)
  | .inf _, _ => (f.inf false, 0)
  | _, .inf _ => (f.inf false, 0)
  | .fin n m e, .fin n' m' e' =>
    let (v, x) := dyAdd (sgnd n m) e (-(sgnd n' m')) e'
    fround f c.rm c.ftz false v.natAbs x

/-- CLAMP on FLT (R139). -/
def fclamp (f : Fmt) (c : RCtl) (a b : Nat) : Nat × Nat :=
  let va := fdec f c.ftz a
  let vb := fdec f c.ftz b
  if va.isNaN || vb.isNaN then (f.nan, snanFlag [va, vb])
  else
    let a' := fflush f c.ftz a
    let lim := fflush f c.ftz b % 2 ^ (f.w - 1)
    let neg := lim + 2 ^ (f.w - 1)
    let lo := if fkey f a' < fkey f neg then neg else a'
    (if fkey f lim < fkey f lo then lim else lo, 0)

/-- CVT and CVTZ of one value (R141). -/
def cvtPos (z : Bool) (s d : Nat) (c : RCtl) (a : Nat) : UOut :=
  if etMask s then UOut.plain (a % 2)
  else if etMask d then UOut.plain (b2n (a % 2 ^ etW s != 0))
  else if etFlt s then
    if etFlt d then
      if s = d then UOut.ofFlt (fcopy (etFmt s) c.ftz a)
      else UOut.ofFlt (fcvt (etFmt s) (etFmt d) c.rm c.ftz a)
    else
      let (v, fl) := ftoi (etFmt s) (if z then .rtz else c.rm) c.ftz (etFb d) (etMin d) (etMax d) 0 a
      ⟨etEnc d v, fl, false⟩
  else if etFlt d then UOut.ofFlt (itof (etFmt d) c.rm (etFb s) (etVal s a))
  else if etFb s ≤ etFb d then UOut.ofSat d (etVal s a * (2 ^ (etFb d - etFb s) : Nat))
  else UOut.ofSat d (rndQ (etVal s a) (etFb s - etFb d) c.qrnd)

/-- Does compare FUNC hold for a result of comparison (R140)? -/
def cmpHolds (f : Nat) (r : FCmp) : Bool :=
  match f with
  | 0x18 => r == .eq
  | 0x19 => r != .eq
  | 0x1A => r == .lt
  | 0x1B => r == .lt || r == .eq
  | 0x1C => r == .gt
  | 0x1D => r == .gt || r == .eq
  | _ => r == .un

/-- One position of the ALU (R138 to R141). -/
def aluPos (op : Nat) (c : RCtl) (a b : Nat) : UOut :=
  let f := bits op 15 8
  let t := bits op 7 4
  let w := etW t
  let m := bits op 3 0
  let full := 2 ^ w - 1
  let va := etVal t a
  let vb := etVal t b
  let sh := b % 256
  let fm := etFmt t
  if f = 1 then UOut.plain (Nat.land a b)
  else if f = 2 then UOut.plain (Nat.lor a b)
  else if f = 3 then UOut.plain (Nat.xor a b)
  else if f = 4 then UOut.plain (Nat.land a (Nat.xor (b % 2 ^ w) full))
  else if f = 5 then UOut.plain (Nat.xor (a % 2 ^ w) full)
  else if f = 0x20 then cvtPos false t m c a
  else if f = 0x21 then cvtPos true t m c a
  else if f = 0x1F then UOut.plain (b2n (Nat.land a b % 2 ^ w != 0))
  else if etFlt t then
    if f = 8 then UOut.ofFlt (fadd fm c.rm c.ftz a b)
    else if f = 9 then UOut.ofFlt (fsub fm c.rm c.ftz a b)
    else if f = 0xA then UOut.ofFlt (fabd fm c a b)
    else if f = 0xC then UOut.ofFlt (fminmax fm c.ftz false (m == 1) a b)
    else if f = 0xD then UOut.ofFlt (fminmax fm c.ftz true (m == 1) a b)
    else if f = 0xE then UOut.ofFlt (fclamp fm c a b)
    else
      let x := fdec fm c.ftz a
      let y := fdec fm c.ftz b
      let quiet := f == 0x18 || f == 0x19 || f == 0x1E
      let bad := if quiet then x.isSNaN || y.isSNaN else x.isNaN || y.isNaN
      ⟨b2n (cmpHolds f (fcmpV x y)), if bad then flNV else 0, false⟩
  else if f = 8 then if etFix t || m == 1 then UOut.ofSat t (va + vb) else UOut.plain (etEnc t (va + vb))
  else if f = 9 then if etFix t || m == 1 then UOut.ofSat t (va - vb) else UOut.plain (etEnc t (va - vb))
  else if f = 0xA then UOut.ofSat t ((va - vb).natAbs : Nat)
  else if f = 0xC then UOut.plain (if vb < va then b else a)
  else if f = 0xD then UOut.plain (if va < vb then b else a)
  else if f = 0xE then
    let r : Int := if etSigned t then
        let lim : Int := min (vb.natAbs : Nat) (etMax t)
        min (max va (-lim)) lim
      else min va vb
    ⟨etEnc t r, 0, decide (r ≠ va)⟩
  else if f = 0x10 then
    let r := va * (2 ^ sh : Nat)
    if m = 1 then UOut.ofSat t r else UOut.plain (etEnc t r)
  else if f = 0x11 then UOut.plain (a % 2 ^ w / 2 ^ sh)
  else if f = 0x12 then UOut.plain (etEnc t (va / (2 ^ sh : Nat)))
  else if f = 0x13 then UOut.plain (etEnc t (rndQ va sh c.qrnd))
  else UOut.plain (b2n (cmpHolds f (if va < vb then .lt else if va = vb then .eq else .gt)))

/-! Reduce/Permute (R142 to R147). -/

/-- Result type of an RP operation field, or none for a reserved code (R127, R130, R142). -/
def rpType (op rpp : Nat) (window : Bool) : Option Nat :=
  let f := bits op 15 8
  let t := bits op 7 4
  let m := bits op 3 0
  let num := etInt t || etFix t || etFlt t
  let glog := decide (rpp ≤ 24)
  if window && !([0x10, 0x11, 0x12, 0x13, 0x19].elem f) then none
  else if f = 1 ∨ f = 8 then if num && glog && (m == 0 || (m == 1 && etInt t)) then some t else none
  else if f = 2 ∨ f = 3 ∨ f = 9 ∨ f = 0xA then if num && glog && m == 0 then some t else none
  else if f = 4 ∨ f = 5 then if num && glog && m == 0 && t != 9 && t != 10 && t != 11 then some 5 else none
  else if f = 6 then if etMask t && glog && m == 0 then some 5 else none
  else if f = 0x10 then if num && m == 0 then some t else none
  else if f = 0x11 ∨ f = 0x12 ∨ f = 0x13 ∨ f = 0x18 ∨ f = 0x19 then if num && m == 0 && rpp == 0 then some t else none
  else if f = 0x14 then
    if num && m == 0 && decide (1 ≤ rpp) && decide (rpp ≤ 8) && decide (rpp * etW t ≤ 64) then some t else none
  else none

/-- Emitting operations (R142). -/
def rpEmits (op : Nat) : Bool := let f := bits op 15 8; (decide (1 ≤ f) && decide (f ≤ 6)) || f == 0x18
/-- Reductions (R142). -/
def rpReduces (op : Nat) : Bool := let f := bits op 15 8; decide (1 ≤ f) && decide (f ≤ 6)
/-- Scans (R142). -/
def rpScans (op : Nat) : Bool := let f := bits op 15 8; decide (8 ≤ f) && decide (f ≤ 0xA)
/-- Does the operation use B? -/
def rpUsesB (op : Nat) : Bool := let f := bits op 15 8; f == 0x11 || f == 0x12 || f == 0x18 || f == 0x19
/-- Carrying operations (R142). -/
def rpCarries (op rpp n : Nat) : Bool :=
  bits op 15 8 == 0x14 || ((rpReduces op || rpScans op) && decide (n < 2 ^ rpp))

/-- The empty marker (R147). -/
def rpEmpty (t : Nat) : Nat := if t = 11 then 0x7FF0000000000001 else 0x7F800001

/-- Is a float state empty (R147)? -/
def rpIsEmpty (t k : Nat) : Bool := if t = 11 then k == rpEmpty 11 else k % 2 ^ 32 == rpEmpty 8

/-- The initial state of a group, as K1 holds it (R144, R147). -/
def rpInit (op : Nat) : Nat :=
  let f := bits op 15 8
  let t := bits op 7 4
  if f = 4 ∨ f = 5 then 0xFFFFFFFF * 2 ^ 32
  else if f = 6 ∨ f = 0x14 then 0
  else if etFlt t then rpEmpty t
  else if f = 2 ∨ f = 9 then etEnc t (etMax t)
  else if f = 3 ∨ f = 0xA then etEnc t (etMin t)
  else 0

/-- Exact sum of finite values as (integer, exponent). -/
def dySum (l : List FVal) : Int × Int :=
  l.foldl (fun acc v => match v with
    | .fin n m e => if m = 0 then acc else if acc.1 = 0 then (sgnd n m, e) else dyAdd acc.1 acc.2 (sgnd n m) e
    | _ => acc) (0, 0)

/-- The sum of terms rounded once, with the special values of R144. -/
def fsumTerms (f : Fmt) (c : RCtl) (l : List FVal) : Nat × Nat :=
  let isInf (n : Bool) (v : FVal) : Bool := match v with | .inf k => k == n | _ => false
  let neg (v : FVal) : Bool := match v with | .fin n _ _ => n | .inf n => n | _ => false
  let sn := snanFlag l
  if l.any FVal.isNaN then (f.nan, sn)
  else if l.any (isInf true) && l.any (isInf false) then (f.nan, flNV)
  else if l.any (isInf true) then (f.inf true, 0)
  else if l.any (isInf false) then (f.inf false, 0)
  else
    let (v, e) := dySum l
    let z := if l.all neg then true else if l.all (fun x => !neg x) then false else c.rm == .rdn
    fround f c.rm c.ftz z v e

/-- RMIN or RMAX over float terms, the state among them: NaNs are ignored, a signalling one raises invalid; none left is
empty (R144). -/
def fextreme (f : Fmt) (c : RCtl) (max : Bool) (terms : List Nat) : Option Nat × Nat :=
  terms.foldl (fun acc x =>
    let v := fdec f c.ftz x
    let x' := fflush f c.ftz x
    if v.isNaN then (acc.1, acc.2 ||| (if v.isSNaN then flNV else 0))
    else match acc.1 with
      | none => (some x', acc.2)
      | some y => (some (if max then (if fkey f y < fkey f x' then x' else y)
                         else (if fkey f x' < fkey f y then x' else y)), acc.2)) (none, 0)

/-- The state of RARGMIN and RARGMAX as a term: none where its position says so or its value is a NaN (R144, R147). -/
def rpArgState (c : RCtl) (t state : Nat) : Option (Nat × Nat) × Nat :=
  let x := state % 2 ^ etW t
  let v := fdec (etFmt t) c.ftz x
  if state / 2 ^ 32 = 0xFFFFFFFF then (none, 0)
  else if etFlt t then (if v.isNaN then (none, if v.isSNaN then flNV else 0) else (some (fflush (etFmt t) c.ftz x, state / 2 ^ 32), 0))
  else (some (x, state / 2 ^ 32), 0)

/-- K1 as RP takes it and writes it back: the bits above a running value are zero (R147). -/
def rpKeep (op k : Nat) : Nat :=
  let f := bits op 15 8
  let t := bits op 7 4
  if f = 4 ∨ f = 5 ∨ f = 0x14 then k % 2 ^ 64 else if f = 6 then k % 2 ^ 32 else k % 2 ^ etW t

/-- One update of a reduction's state over the active terms (position, value) of a beat (R144). -/
def rpStep (op : Nat) (c : RCtl) (state : Nat) (terms : List (Nat × Nat)) : UOut :=
  let f := bits op 15 8
  let t := bits op 7 4
  let vals := terms.map (·.2)
  let st := if etFlt t && rpIsEmpty t state then none else some (state % 2 ^ etW t)
  if terms = [] then UOut.plain state
  else if f = 6 then UOut.plain ((state + vals.foldl (fun a x => a + x % 2) 0) % 2 ^ 32)
  else if f = 4 ∨ f = 5 then
    let better (x y : Nat) : Bool :=
      if etFlt t then (if f = 4 then decide (fkey (etFmt t) x < fkey (etFmt t) y) else decide (fkey (etFmt t) y < fkey (etFmt t) x))
      else (if f = 4 then decide (etVal t x < etVal t y) else decide (etVal t y < etVal t x))
    let r := terms.foldl (fun (acc : Option (Nat × Nat) × Nat) p =>
      let v := fdec (etFmt t) c.ftz p.2
      let x := if etFlt t then fflush (etFmt t) c.ftz p.2 else p.2 % 2 ^ etW t
      if etFlt t && v.isNaN then (acc.1, acc.2 ||| (if v.isSNaN then flNV else 0))
      else match acc.1 with
        | none => (some (x, p.1), acc.2)
        | some (y, q) => (if better x y then some (x, p.1) else some (y, q), acc.2))
      (rpArgState c t state)
    match r.1 with
    | none => ⟨0xFFFFFFFF * 2 ^ 32, r.2, false⟩
    | some (x, p) => ⟨x + p % 2 ^ 32 * 2 ^ 32, r.2, false⟩
  else if etFlt t then
    if f = 1 ∨ f = 8 then
      let ts := (match st with | none => [] | some x => [x]) ++ vals
      UOut.ofFlt (fsumTerms (etFmt t) c (ts.map (fdec (etFmt t) c.ftz)))
    else
      let (r, fl) := fextreme (etFmt t) c (f == 3 || f == 0xA) ((match st with | none => [] | some x => [x]) ++ vals)
      ⟨r.getD (rpEmpty t), fl, false⟩
  else
    let s0 := etVal t state
    if f = 1 ∨ f = 8 then
      let n := vals.foldl (fun a x => a + etVal t x) s0
      if etFix t || bitb op 0 then UOut.ofSat t n else UOut.plain (etEnc t n)
    else
      let r := vals.foldl (fun (a : Int) x => if f = 2 ∨ f = 9 then min a (etVal t x) else max a (etVal t x)) s0
      UOut.plain (etEnc t r)

/-- What a state emits or shows (R144, R145). -/
def rpShow (op state : Nat) : Nat :=
  let f := bits op 15 8
  let t := bits op 7 4
  if f = 4 ∨ f = 5 then state / 2 ^ 32
  else if f = 6 then state % 2 ^ 32
  else if etFlt t && rpIsEmpty t state then (if f = 1 ∨ f = 8 then 0 else (etFmt t).nan)
  else state % 2 ^ etW t

/-! Cam unit (R148 to R152). A table is the list of its loaded elements. -/

/-- A directory entry: offset, segments, clamp, periodic; none when invalid (R148, R150). -/
def camEntry (tab : List Nat) (p : Nat) : Option (Nat × Nat × Bool × Bool) :=
  let e := nth tab (1 + p)
  let seg := bits e 26 16
  if bits e 31 30 != 0 || bitb e 27 || decide (seg < 1) || decide (1024 < seg) || (bitb e 28 && bitb e 29) then none
  else some (bits e 15 0, seg, bitb e 28, bitb e 29)

/-- x ≥ y for the Cam search; a NaN fails (R151). -/
def camGe (f : Fmt) (ftz : Bool) (x y : Nat) : Bool :=
  match fcmpV (fdec f ftz x) (fdec f ftz y) with | .gt => true | .eq => true | _ => false
def camLt (f : Fmt) (ftz : Bool) (x y : Nat) : Bool := fcmpV (fdec f ftz x) (fdec f ftz y) == .lt

/-- The segment search (R151): at most 10 halvings. -/
def camSearch (f : Fmt) (ftz : Bool) (tab : List Nat) (off x : Nat) : Nat → Nat → Nat → Nat
  | 0, lo, _ => lo
  | k + 1, lo, hi =>
    if hi - lo ≤ 1 then lo
    else
      let mid := (lo + hi) / 2
      if camGe f ftz x (nth tab (off + mid)) then camSearch f ftz tab off x k mid hi
      else camSearch f ftz tab off x k lo mid

/-- A power of two or small integer as a pattern: 2, 3 and 6. -/
def fltSmall (f : Fmt) (n : Nat) : Nat := (fround f .rne false false n 0).1

/-- One position of the Cam unit (R151, R152). `valid` says that the table is valid and holds profile s. -/
def camPos (op : Nat) (c : RCtl) (tab : List Nat) (tabOk : Bool) (x s : Nat) : UOut :=
  let fn := bits op 15 8
  let t := bits op 7 4
  let f := etFmt t
  let bad : UOut := ⟨if fn = 4 then 0xFFFFFFFF else f.nan, flNV, false⟩
  if !tabOk || decide (bits (nth tab 0) 8 0 ≤ s) then bad
  else match camEntry tab s with
  | none => bad
  | some (off, seg, clamp, periodic) =>
    let bp (j : Nat) : Nat := nth tab (off + j)
    let cf (j m : Nat) : Nat := nth tab (off + seg + 1 + 4 * j + m)
    let (x1, f1) :=
      if periodic then
        let (per, fp) := fsub f c.rm c.ftz (bp seg) (bp 0)
        if camGe f c.ftz x (bp seg) then let (y, fy) := fsub f c.rm c.ftz x per; (y, fp ||| fy)
        else if camLt f c.ftz x (bp 0) then let (y, fy) := fadd f c.rm c.ftz x per; (y, fp ||| fy)
        else (x, fp)
      else (x, 0)
    let (x2, f2) :=
      if clamp && !(fdec f c.ftz x1).isNaN then
        let (y, fy) := fminmax f c.ftz true false x1 (bp 0)
        let (z, fz) := fminmax f c.ftz false false y (bp seg)
        (z, f1 ||| fy ||| fz)
      else (x1, f1)
    let j := camSearch f c.ftz tab off x2 11 0 seg
    let (u, fu) := fsub f c.rm c.ftz x2 (bp j)
    let fl := f2 ||| fu
    let fma (a b d : Nat) : Nat × Nat := ffma f c.rm c.ftz a b d
    let mul (n a : Nat) : Nat × Nat := fmul f c.rm c.ftz (fltSmall f n) a
    if fn = 1 then
      let (r1, g1) := fma (cf j 3) u (cf j 2)
      let (r2, g2) := fma r1 u (cf j 1)
      let (r3, g3) := fma r2 u (cf j 0)
      ⟨r3, fl ||| g1 ||| g2 ||| g3, false⟩
    else if fn = 2 then
      let (k, g0) := mul 3 (cf j 3)
      let (h, gh) := mul 2 (cf j 2)
      let (r1, g1) := fma k u h
      let (r2, g2) := fma r1 u (cf j 1)
      ⟨r2, fl ||| g0 ||| gh ||| g1 ||| g2, false⟩
    else if fn = 3 then
      let (k, g0) := mul 6 (cf j 3)
      let (h, gh) := mul 2 (cf j 2)
      let (r1, g1) := fma k u h
      ⟨r1, fl ||| g0 ||| gh ||| g1, false⟩
    else if fn = 4 then ⟨j, fl, false⟩
    else if fn = 5 then let (v, g) := fcopy f c.ftz (cf j (bits op 1 0)); ⟨v, fl ||| g, false⟩
    else ⟨u, fl, false⟩

/-- Result type of a CAM operation field, or none for a reserved code (R127, R152). -/
def camType (op : Nat) : Option Nat :=
  let f := bits op 15 8
  let t := bits op 7 4
  let m := bits op 3 0
  if !etFlt t then none
  else if f = 5 then if m < 4 then some t else none
  else if m != 0 then none
  else if f = 4 then some 5
  else if f = 1 ∨ f = 2 ∨ f = 3 ∨ f = 6 then some t
  else none

end Sys2Proof.Machine
end

