-- ==== Sys2Proof/Machine/RibDesc.lean ====
section
/-! DEFINITION. Machine/RibDesc.lean: the chain descriptor (R90 to R97): its fields, and when a launch is refused as
invalid (R85, R88, R96, R97, R107, R127 to R130). A descriptor is a number of 256 bytes, least significant first. -/

namespace Sys2Proof.Machine

/-- n bytes of a descriptor from byte off. -/
def dF (d off n : Nat) : Nat := bits d (8 * (off + n) - 1) (8 * off)

def dCtrl (d : Nat) : Nat := dF d 0 8
def dValid (d : Nat) : Bool := bitb d 0
def dBind (d : Nat) : Nat := bits d 2 1
def dStrand (d : Nat) : Nat := bits d 4 3
/-- The beat width N (R83, R91). -/
def dN (d : Nat) : Nat := 32 * 2 ^ bits d 7 6
def dDoneIe (d : Nat) : Bool := bitb d 12
def dCwin (d : Nat) : Nat := bits d 21 16
def dCtl (d : Nat) : RCtl := ⟨rmodeOf (bits d 9 8), bitb d 10, bitb d 11⟩
/-- Operand field f (R92). -/
def dWire (d f : Nat) : Nat := bits (dF d 8 10) (4 * f + 3) (4 * f)
def dUparam (d : Nat) : Nat := dF d 0x1C 4
def dSh (d i : Nat) : Nat := if i = 0 then bits (dUparam d) 5 0 else bits (dUparam d) 11 6
def dRpp (d : Nat) : Nat := bits (dUparam d) 23 16
def dK (d i : Nat) : Nat := dF d (0x20 + 8 * i) 8
def dLength (d : Nat) : Nat := bits (dF d 0x30 8) 24 0
def dRidx (d : Nat) : Nat := bits (dF d 0x30 8) 56 32
def dStat (d : Nat) : Nat := dF d 0x38 8

/-- The operation field of unit source code u: 5 MAC0, 6 MAC1, 7 ALU, 8 CAM, 9 RP (R87, R90). -/
def dOp (d u : Nat) : Nat := dF d (0x12 + 2 * (u - 5)) 2

/-! Stream slots (R95): p from 0 for IN0 to 5 for OUT1. -/

def dSlot (d p : Nat) : Nat := dF d (0x40 + 0x20 * p) 0x20
def slMode (d p : Nat) : Nat := bits (dSlot d p) 3 0
def slEt (d p : Nat) : Nat := bits (dSlot d p) 7 4
def slCidx (d p : Nat) : Nat := bits (dSlot d p) 11 8
def slWk (d p : Nat) : Nat := bits (dSlot d p) 14 12
def slBorder (d p : Nat) : Bool := bitb (dSlot d p) 15
def slIsrc (d p : Nat) : Nat := bits (dSlot d p) 19 16
def slBase (d p : Nat) : Nat := bits (dSlot d p) 50 24
def slStride (d p : Nat) : Int := asInt (bits (dSlot d p) 95 64) 32
def slStrideU (d p : Nat) : Nat := bits (dSlot d p) 95 64
def slRstride (d p : Nat) : Int := asInt (bits (dSlot d p) 127 96) 32
def slCols (d p : Nat) : Nat := bits (dSlot d p) 152 128
def slRows (d p : Nat) : Nat := bits (dSlot d p) 184 160
/-- The queue of a QSINK writer. -/
def slQueue (d p : Nat) : Nat := bits (dSlot d p) 83 64

abbrev modeOff : Nat := 0
abbrev modeLinear : Nat := 1
abbrev modePlane : Nat := 2
abbrev modeGather : Nat := 3
abbrev modeWindow : Nat := 4
abbrev modeBcast : Nat := 5
abbrev modeQsink : Nat := 6
abbrev modeCamtab : Nat := 7

/-- The window size of a chain, if it has a WINDOW stream. -/
def dWindow (d : Nat) : Option Nat :=
  match firstBelow 4 (fun p => slMode d p == modeWindow) with
  | some p => some (slWk d p)
  | none => none

/-- Taps per beat (R101). -/
def dTaps (d : Nat) : Nat := match dWindow d with | some k => k * k | none => 1

/-- The reserved fields of a slot are zero, and those its mode does not name (R95, R96). -/
def slFieldsOk (d p : Nat) : Bool :=
  let x := dSlot d p
  let z (hi lo : Nat) : Bool := bits x hi lo == 0
  let m := slMode d p
  z 23 20 && z 63 51 && z 159 153 && z 191 185 && z 255 192 &&
  (if m = modeOff then x == 0
   else if m = modeLinear then z 14 12 && z 15 15 && z 19 16 && z 127 96 && z 152 128 && z 184 160
   else if m = modePlane then z 14 12 && z 15 15 && z 19 16 && z 184 160 && !z 152 128
   else if m = modeGather then z 14 12 && z 15 15 && z 95 64 && z 127 96 && z 152 128 && z 184 160
   else if m = modeWindow then z 19 16 && decide (3 ≤ slWk d p) && decide (slWk d p ≤ 7) && slStrideU d p == 1 && !z 152 128
   else if m = modeBcast then z 14 12 && z 15 15 && z 19 16 && z 127 96 && z 152 128 && z 184 160
   else if m = modeQsink then z 14 12 && z 15 15 && z 19 16 && z 50 24 && z 95 84 && z 127 96 && z 152 128 && z 184 160
   else if m = modeCamtab then z 14 12 && z 15 15 && z 19 16 && z 95 64 && z 127 96 && z 184 160
   else false)

/-- A stream may use its mode and type (R84, R85, R96, R97). -/
def slOk (d p : Nat) : Bool :=
  let m := slMode d p
  let e := slEt d p
  slFieldsOk d p &&
  (m == modeOff ||
    (decide (e < 13) &&
     (if p < 4 then [modeLinear, modePlane, modeGather, modeWindow, modeBcast].elem m || (m == modeCamtab && p == 3)
      else [modeLinear, modePlane, modeQsink].elem m) &&
     (!etMask e || (m == modeLinear && slStrideU d p == 1)) &&
     (m != modeGather ||
       (decide (1 ≤ slIsrc d p) && decide (slIsrc d p ≤ 4) && slIsrc d p != p + 1 &&
        [modeLinear, modePlane].elem (slMode d (slIsrc d p - 1)) && [2, 3, 5, 6].elem (slEt d (slIsrc d p - 1)))) &&
     (m != modeWindow ||
       (dWindow d == some (slWk d p) && decide (dLength d ≤ slCols d p * slRows d p)))))

/-! Wiring (R87, R88, R128). -/

/-- The result type of a unit in use; none when unused or reserved. -/
def unitType (d u : Nat) : Option Nat :=
  let op := dOp d u
  let w := (dWindow d).isSome
  if op = 0 then none
  else match u with
    | 5 => macType op w
    | 6 => macType op w
    | 7 => aluType op
    | 8 => camType op
    | _ => rpType op (dRpp d) w

/-- RP runs an emitting operation (R142). -/
def dEmits (d : Nat) : Bool := dOp d 9 != 0 && rpEmits (dOp d 9)

/-- RP runs a carrying operation (R120, R142). -/
def dCarries (d : Nat) : Bool := dOp d 9 != 0 && rpCarries (dOp d 9) (dRpp d) (dN d)

/-- A unit's operands: (operand field, types it accepts); an empty list of types means the operand is not used. -/
def unitOperands (d u : Nat) : List (Nat × List Nat) :=
  let op := dOp d u
  let f := bits op 15 8
  let t := bits op 7 4
  let b := if u = 5 then 0 else 3
  if op = 0 then (match u with
    | 5 => [(0, []), (1, []), (2, [])] | 6 => [(3, []), (4, []), (5, [])] | 7 => [(6, []), (7, [])]
    | 8 => [(8, []), (16, [])] | _ => [(9, []), (10, [])])
  else match u with
    | 7 => [(6, [t]), (7, if aluUsesB op then [t] else [])]
    | 8 => [(8, [t]), (16, [5])]
    | 9 => [(9, [t]), (10, if f = 0x11 then [0, 2, 5] else if f = 0x12 then [t] else if rpUsesB op then [12] else [])]
    | _ => [(b, [t]), (b + 1, [t]), (b + 2, if f = 2 ∨ f = 3 then [] else if f = 5 ∧ bitb op 3 then
        (match qmacWide t with | some r => [r] | none => []) else [t])]

/-- May an operand that accepts the types given name this source (R87, R88, R128)? -/
def srcOk (d code : Nat) (types : List Nat) (writer : Bool) : Bool :=
  if types = [] then code == 0
  else if code = 0 ∨ code = 0xA ∨ code = 0xB then true
  else if code < 5 then
    slMode d (code - 1) != modeOff && slMode d (code - 1) != modeCamtab && types.elem (slEt d (code - 1))
  else if code < 0xA then
    (match unitType d code with | some t => types.elem t | none => false) && (writer || !(code == 9 && dEmits d))
  else false

/-- A mask operand names NONE, a MASK reader, or the ALU with a mask result (R88). -/
def maskOk (d code : Nat) : Bool :=
  if code = 0 then true
  else if code < 5 then slMode d (code - 1) != modeOff && slMode d (code - 1) != modeCamtab && slEt d (code - 1) == 12
  else code == 7 && unitType d 7 == some 12

/-- Does unit u take a result of target, directly or through other units? -/
def feeds (d : Nat) : Nat → Nat → Nat → Bool
  | 0, _, _ => false
  | k + 1, target, u => (unitOperands d u).any (fun o =>
      let c := dWire d o.1
      c == target || (decide (5 ≤ c) && decide (c < 10) && feeds d k target c))

/-- The number of values a writer or unit carries in one beat (R85). -/
def beatN (d code : Nat) : Nat :=
  if code = 9 && dOp d 9 != 0 && rpReduces (dOp d 9) then max 1 (dN d / 2 ^ dRpp d) else dN d

/-- R85 for one value or stream. -/
def widthOk (n t : Nat) : Bool := decide (n * etW t ≤ 2048)

/-- A writer's operands (R88, R128). -/
def writerOk (d w : Nat) : Bool :=
  let dc := dWire d (11 + w)
  let mc := dWire d (13 + w)
  if slMode d (4 + w) = modeOff then dc == 0 && mc == 0
  else dc != 0 && srcOk d dc [slEt d (4 + w)] true && maskOk d mc && widthOk (beatN d dc) (slEt d (4 + w))

/-- UPARAM holds only what an operation uses (R129). -/
def uparamOk (d : Nat) : Bool :=
  let x := dUparam d
  let q (u : Nat) : Bool := bits (dOp d u) 15 8 == 5
  let f := bits (dOp d 9) 15 8
  bits x 31 24 == 0 && bits x 15 12 == 0 && (q 5 || dSh d 0 == 0) && (q 6 || dSh d 1 == 0) &&
  ((dOp d 9 != 0 && (rpReduces (dOp d 9) || rpScans (dOp d 9) || f == 0x10 || f == 0x14)) || dRpp d == 0)

/-- Is a descriptor valid for a launch (R107)? -/
def descOk (d : Nat) (soft : Bool) : Bool :=
  let ctrl := dCtrl d
  dValid d && bits ctrl 63 22 == 0 && bits ctrl 15 13 == 0 && !bitb ctrl 5 && bits (dF d 0x10 2) 15 4 == 0 &&
  dBind d != 3 && (dBind d != 2 || dStrand d == 0) &&
  bits (dF d 0x30 8) 31 25 == 0 && bits (dF d 0x30 8) 63 57 == 0 &&
  decide (dLength d ≤ 2 ^ 24) && decide (dRidx d ≤ dLength d) &&
  (upto 6).all (slOk d) &&
  (upto 4).all (fun p => slMode d p == modeOff || widthOk (dN d) (slEt d p)) &&
  [5, 6, 7, 8, 9].all (fun u =>
    (dOp d u == 0 || (match unitType d u with | some t => widthOk (beatN d u) t | none => false)) &&
    (unitOperands d u).all (fun o => srcOk d (dWire d o.1) o.2 false) && !feeds d 5 u u) &&
  (slMode d 3 == modeCamtab) == (dOp d 8 != 0) &&
  (dOp d 8 == 0 || slEt d 3 == bits (dOp d 8) 7 4) &&
  writerOk d 0 && writerOk d 1 && maskOk d (dWire d 15) && uparamOk d &&
  !(dCarries d && (upto 17).any (fun f => dWire d f == 0xB)) &&
  (soft || (slMode d 4 != modeQsink && slMode d 5 != modeQsink))

end Sys2Proof.Machine
end

