-- ==== Sys2Proof/Machine/RibEval.lean ====
section
/-! DEFINITION. Machine/RibEval.lean: what the units of a chain compute in one beat-tap (R83, R101 to R105, R137 to
R152), and the stream addresses (R98, R101). -/

namespace Sys2Proof.Machine

/-- The position of beat place p. -/
def RibRun.pos (r : RibRun) (p : Nat) : Nat := r.beat * dN r.desc + p

/-- Lies place p between the fetched RIDX and LENGTH (R103)? -/
def RibRun.inRange (r : RibRun) (p : Nat) : Bool :=
  decide (dRidx r.desc ≤ r.pos p) && decide (r.pos p < dLength r.desc)

/-- The j-th presentation of reader q, counted from the one for the beat-tap in hand. -/
def RibRun.unitAt (r : RibRun) (q j : Nat) : RdUnit := (r.reads.getD q []).getD j ⟨[], []⟩

/-- The value reader q presents at place p of the beat-tap in hand (R101): a WINDOW reader by the tap's column, a BCAST
reader by the tap, the others once per beat. -/
def RibRun.readVal (r : RibRun) (q p : Nat) : Nat :=
  let l := (r.unitAt q 0).vals
  let m := slMode r.desc q
  if m = modeBcast then nth (l.getD r.tap []) 0
  else if m = modeWindow then nth (l.getD (r.tap % slWk r.desc q) []) p
  else nth (l.getD 0 []) p

/-- Computed values of units: (source code, one result per place). -/
abbrev UEnv := List (Nat × List UOut)

/-- The value of a source at place p, for an operand of w bits (R87, R128). -/
def RibRun.src (r : RibRun) (env : UEnv) (code w p : Nat) : Nat :=
  if code = 0 then 0
  else if code < 5 then r.readVal (code - 1) p
  else if code = 0xA then dK r.desc 0 % 2 ^ w
  else if code = 0xB then dK r.desc 1 % 2 ^ w
  else match env.find? (fun e => e.1 == code) with
    | some e => (e.2.getD p (UOut.plain 0)).v
    | none => 0

/-- The bit of a mask source at place p; NONE passes every position (R87). -/
def RibRun.maskBit (r : RibRun) (env : UEnv) (code p : Nat) : Bool :=
  code == 0 || r.src env code 1 p % 2 == 1

/-- Is u a unit upstream of the ALU that UMASK names, or that ALU itself (R103)? -/
def upstream (d u : Nat) : Bool := dWire d 15 == 7 && decide (5 ≤ u) && (u == 7 || feeds d 5 u 7)

/-- Is place p active for unit u (R103)? Code 0 asks for a writer. -/
def RibRun.active (r : RibRun) (env : UEnv) (u p : Nat) : Bool :=
  r.inRange p && (upstream r.desc u || r.maskBit env (dWire r.desc 15) p)

/-- What RP does with a beat: values by place, flags and saturation raised, emitted (source position, value), and the
state after the beat. -/
structure RpOut where
  vals : List Nat
  fl : Nat
  sat : Bool
  emitted : List (Nat × Nat)
  carry : Nat
deriving DecidableEq, Repr

/-- One group's segment, places lo to hi − 1, of a reduction or scan (R143 to R145). -/
def rpSegment (d : Nat) (r : RibRun) (a : Nat → Nat) (act : Nat → Bool) (acc : RpOut) (lo hi : Nat) : RpOut :=
  let op := dOp d 9
  let g := 2 ^ dRpp d
  let n := dN d
  let start := r.pos lo
  let gs := start / g * g
  let carries := decide (n < g)
  let st0 := if !carries || (decide (r.beat * n ≤ gs) && decide (dRidx d ≤ gs)) then rpInit op else r.carry
  let places := (upto (hi - lo)).map (· + lo)
  let terms (k : Nat) : List (Nat × Nat) := ((places.filter (fun p => decide (p ≤ k) && act p)).map (fun p => (r.pos p, a p)))
  let res := rpStep op (dCtl d) st0 (terms hi)
  let last := min (gs + g - 1) (dLength d - 1)
  let emit := rpReduces op && decide (gs < dLength d) && decide (start ≤ last) && decide (last < r.pos hi) &&
    decide (dRidx d ≤ last)
  let scans := if rpScans op then places.map (fun p => (p, rpStep op (dCtl d) st0 (terms p))) else []
  { vals := acc.vals ++ (if rpScans op then scans.map (fun x => rpShow op x.2.v) else places.map (fun _ => 0))
    fl := acc.fl ||| (if rpScans op then scans.foldl (fun f x => if act x.1 then f ||| x.2.fl else f) 0 else res.fl)
    sat := acc.sat || (if rpScans op then scans.any (fun x => act x.1 && x.2.sat) else res.sat)
    emitted := if emit then acc.emitted ++ [(last, rpShow op res.v)] else acc.emitted
    carry := if carries then (if terms hi = [] then st0 else if rpScans op then rpKeep op (rpShow op res.v) else res.v) else acc.carry }

/-- A copy of a value without arithmetic: a float NaN becomes canonical, with its flags (R133, R134). -/
def rpCopy (d x : Nat) : Nat × Nat :=
  let t := bits (dOp d 9) 7 4
  if etFlt t then fcopy (etFmt t) (dCtl d).ftz x else (x, 0)

/-- A positional result: places as g gives them, copied; an inactive place raises no flag (R103, R133). -/
def rpPlaces (d : Nat) (act : Nat → Bool) (carry : Nat) (g : Nat → Nat) : RpOut :=
  let l := (upto (dN d)).map (fun p => (p, rpCopy d (g p)))
  ⟨l.map (fun x => x.2.1), l.foldl (fun f x => if act x.1 then f ||| x.2.2 else f) 0, false, [], carry⟩

/-- SLIDE (R146, R147): places, and the last k values carried. -/
def rpSlide (d : Nat) (r : RibRun) (a : Nat → Nat) (act : Nat → Bool) : RpOut :=
  let k := dRpp d
  let w := etW (bits (dOp d 9) 7 4)
  let lo := max (r.beat * dN d) (dRidx d)
  let hi := min ((r.beat + 1) * dN d) (dLength d)
  -- the value at position j − k: of this beat, or one of the k carried values before it
  let val (j : Nat) : Nat :=
    if lo + k ≤ j then (let p := j - k - r.beat * dN d; if act p then a p else 0)
    else if lo ≤ j then bits r.carry ((j - lo + 1) * w - 1) ((j - lo) * w)
    else 0
  rpPlaces d act ((upto k).foldl (fun (acc m : Nat) => acc + val (hi + m) * 2 ^ (m * w)) 0) (fun p => val (r.pos p))

/-- RP over one beat (R142 to R147), with A and B by place and activity. -/
def rpBeat (d : Nat) (r : RibRun) (a b : Nat → Nat) (act : Nat → Bool) : RpOut :=
  let op := dOp d 9
  let f := bits op 15 8
  let n := dN d
  let k := dRpp d
  let az (p : Nat) : Nat := if act p then a p else 0
  let bz (p : Nat) : Nat := if act p then b p else 0
  let posn (g : Nat → Nat) : RpOut := rpPlaces d act r.carry g
  if rpReduces op || rpScans op then
    let seg := min n (2 ^ k)
    (upto (n / seg)).foldl (fun acc i => rpSegment d r a act acc (i * seg) ((i + 1) * seg)) ⟨[], 0, false, [], r.carry⟩
  else if f = 0x10 then posn (fun p => az ((p + k) % n))
  else if f = 0x11 then posn (fun p => az (bz p % n))
  else if f = 0x12 then posn (fun p => if p % 2 = 0 then az (p / 2) else bz ((p - 1) / 2))
  else if f = 0x13 then posn (fun p => if p < n / 2 then az (2 * p) else az (2 * (p - n / 2) + 1))
  else if f = 0x14 then rpSlide d r a act
  else if f = 0x18 then
    let l := ((upto n).filter (fun p => act p && b p % 2 == 1)).map (fun p => (r.pos p, rpCopy d (a p)))
    ⟨(upto n).map (fun _ => 0), l.foldl (fun f x => f ||| x.2.2) 0, false, l.map (fun x => (x.1, x.2.1)), r.carry⟩
  else posn (fun p => if act p && b p % 2 == 1 then az ((upto p).filter (fun q => act q && b q % 2 == 1)).length else 0)

/-- The evaluation of a beat-tap. -/
structure BeatEval where
  env : UEnv
  acc0 : List Int
  acc1 : List Int
  rp : RpOut
deriving DecidableEq, Repr

/-- Is a source computed? -/
def ready (env : UEnv) (code : Nat) : Bool := decide (code < 5) || decide (9 < code) || env.any (fun e => e.1 == code)

/-- Evaluate unit u, whose operands are computed. -/
def RibRun.evalUnit (r : RibRun) (ev : BeatEval) (u : Nat) : BeatEval :=
  let d := r.desc
  let op := dOp d u
  let t := bits op 7 4
  let n := dN d
  let places := upto n
  let v (f w p : Nat) : Nat := r.src ev.env (dWire d f) w p
  let c := dCtl d
  if u = 5 ∨ u = 6 then
    let b := if u = 5 then 0 else 3
    let accs : List Int := if u = 5 then r.acc0 else r.acc1
    let wc := etW (if bits op 15 8 = 5 ∧ bitb op 3 then (qmacWide t).getD t else t)
    let res : List (UOut × Int) := places.map (fun p =>
      macPos op (dSh d (u - 5)) c (r.tap == 0) (accs.getD p 0) (v b (etW t) p) (v (b + 1) (etW t) p) (v (b + 2) wc p))
    let ev := { ev with env := ev.env ++ [(u, res.map Prod.fst)] }
    if u = 5 then { ev with acc0 := res.map Prod.snd } else { ev with acc1 := res.map Prod.snd }
  else if u = 7 then
    { ev with env := ev.env ++ [(u, places.map (fun p => aluPos op c (v 6 (etW t) p) (v 7 (etW t) p)))] }
  else if u = 8 then
    { ev with env := ev.env ++ [(u, places.map (fun p => camPos op c r.cam r.camOk (v 8 (etW t) p) (v 16 32 p)))] }
  else
    let wb := if bits op 15 8 = 0x11 then 32 else if bits op 15 8 = 0x12 then etW t else 1
    let o := rpBeat d r (v 9 (etW t)) (v 10 wb) (r.active ev.env 9)
    { ev with env := ev.env ++ [(u, o.vals.map UOut.plain)], rp := o }

/-- Evaluate every unit in use, each once its operands (and, for RP, the mask) are computed. -/
def RibRun.evalUnits (r : RibRun) : Nat → BeatEval → BeatEval
  | 0, ev => ev
  | k + 1, ev =>
    let todo := [5, 6, 7, 8, 9].find? (fun u => dOp r.desc u != 0 && !(ev.env.any (fun e => e.1 == u)) &&
      (unitOperands r.desc u).all (fun o => ready ev.env (dWire r.desc o.1)) &&
      (u != 9 || upstream r.desc 9 || ready ev.env (dWire r.desc 15)))
    match todo with
    | some u => r.evalUnits k (r.evalUnit ev u)
    | none => ev

/-- The units' results at the beat-tap in hand. -/
def RibRun.eval (r : RibRun) : BeatEval :=
  r.evalUnits 5 ⟨[], r.acc0, r.acc1, ⟨[], 0, false, [], r.carry⟩⟩

/-- The flags raised for active positions: bits 4 to 0, and saturation as bit 5 (R94, R103). -/
def RibRun.evalFlags (r : RibRun) (ev : BeatEval) : Nat :=
  let one (u : Nat) : Nat := match ev.env.find? (fun e => e.1 == u) with
    | some e => (upto (dN r.desc)).foldl (fun acc p =>
        let o := e.2.getD p (UOut.plain 0)
        if (o.fl != 0 || o.sat) && r.active ev.env u p then acc ||| (o.fl + 32 * b2n o.sat) else acc) 0
    | none => 0
  one 5 ||| one 6 ||| one 7 ||| one 8 ||| (if dOp r.desc 9 = 0 then 0 else ev.rp.fl + 32 * b2n ev.rp.sat)

/-! Addresses. -/

/-- LINEAR and PLANE (R98): the byte address of element i. -/
def slAddr (d p i : Nat) : Int :=
  let s : Int := (etW (slEt d p) / 8 : Nat)
  if etMask (slEt d p) then (slBase d p : Int) + (i / 8 : Nat)
  else if slMode d p = modePlane then
    (slBase d p : Int) + (((i / slCols d p : Nat) : Int) * slRstride d p + ((i % slCols d p : Nat) : Int) * slStride d p) * s
  else (slBase d p : Int) + (i : Int) * slStride d p * s

/-- WINDOW (R101): the address of position i at tap t, or none where nothing is read. -/
def winAddr (d p i t : Nat) : Option Int :=
  let k := slWk d p
  let s : Int := (etW (slEt d p) / 8 : Nat)
  let h : Int := ((k - 1) / 2 : Nat)
  let cols : Int := slCols d p
  let rows : Int := slRows d p
  let cc : Int := ((i % slCols d p : Nat) : Int) + ((t % k : Nat) : Int) - h
  let rr : Int := ((i / slCols d p : Nat) : Int) + ((t / k : Nat) : Int) - h
  let out := decide (cc < 0) || decide (cols ≤ cc) || decide (rr < 0) || decide (rows ≤ rr)
  if out && !slBorder d p then none
  else
    let c2 := if out then min (max cc 0) (cols - 1) else cc
    let r2 := if out then min (max rr 0) (rows - 1) else rr
    some ((slBase d p : Int) + (r2 * slRstride d p + c2) * s)

/-- The items a writer writes at the last tap of a beat: (index its address uses, position on whose behalf, value)
(R101, R103, R105). -/
def RibRun.items (r : RibRun) (ev : BeatEval) (w : Nat) : List (Nat × Nat × Nat) :=
  let d := r.desc
  let dc := dWire d (11 + w)
  let mc := dWire d (13 + w)
  if slMode d (4 + w) = modeOff then []
  else if dc = 9 ∧ dEmits d then
    let l := ev.rp.emitted
    ((upto l.length).map (fun j => (r.ocnt + j, l.getD j (0, 0)))).filter (fun x => r.maskBit ev.env mc (x.2.1 - r.beat * dN d))
  else ((upto (dN d)).filter (fun p => r.active ev.env 0 p && r.maskBit ev.env mc p)).map
    (fun p => (r.pos p, r.pos p, r.src ev.env dc (etW (slEt d (4 + w))) p))

end Sys2Proof.Machine
end

