-- ==== Sys2Proof/Machine/Ribbon.lean ====
section
/-! DEFINITION. Machine/Ribbon.lean: the Ribbon engine (R80 to R126): launch, fetch, streams, votes, stops, and the chain
capability table. -/

namespace Sys2Proof.Machine

/-! Logs (R110, R111, R124, R126). -/

/-- Log a fault or refusal in RIB_FAULT_INFO, _IDX and _ADDR. -/
def State.ribFault (s : State) (chain cause stream strands fidx tap addr : Nat) : State :=
  if s.isOn RIB_FAULT_INFO.VALID then s.on RIB_FAULT_INFO.OVF
  else
    ((s.wrReg RIB_FAULT_INFO.addr (chain + strands * 2 ^ 20 + stream * 2 ^ 23 + cause * 2 ^ 26 + 2 ^ 31)).wrReg
      RIB_FAULT_IDX.addr (fidx % 2 ^ 25 + tap * 2 ^ 25)).wrReg RIB_FAULT_ADDR.addr (addr % 2 ^ 27)

/-- Log a mismatch in RIB_VOTE_INFO and RIB_VOTE_IDX; strand 3 for none or unknown. -/
def State.ribVote (s : State) (chain : Nat) (pair : Bool) (stream strand beatPos : Nat) : State :=
  let s := s.bump RIB_VOTE_CNT.COUNT
  if s.isOn RIB_VOTE_INFO.VALID then s.on RIB_VOTE_INFO.OVF
  else (s.wrReg RIB_VOTE_INFO.addr (chain + strand * 2 ^ 24 + stream * 2 ^ 26 + b2n pair * 2 ^ 29 + 2 ^ 31)).wr
    RIB_VOTE_IDX.BEAT beatPos

/-- The strands 0 to 2 in a mask. -/
def strandList (m : Nat) : List Nat := (upto 3).filter (bitb m)

/-- A mismatch reaches the Recovery Controller, once for each strand in one run (R110, R204). -/
def State.ribMm (s : State) (r : RibRun) (strands : Nat) (pair retry : Bool) : State × RibRun :=
  let new := strands - Nat.land strands r.mmSent
  if new = 0 then (s, r)
  else ({ s with rcv.mm := s.rcv.mm ++ [⟨r.chain, new, pair, retry, s.roundNo⟩] }, { r with mmSent := r.mmSent ||| new })

/-! Strands and launch. -/

/-- The strands that running chains hold. -/
def State.heldStrands (s : State) : Nat := s.rib.runs.foldl (fun m r => if r.holds then m ||| r.strands else m) 0

/-- The retired strands (R207). -/
def State.retired (s : State) : Nat := s.rd RIB_STAT.RETIRED

/-- RIB_STAT.BUSY and RIB_STRAND show what runs (R126). -/
def State.showStrands (s : State) : State :=
  (upto 3).foldl (fun t k =>
    match t.rib.runs.find? (fun r => r.holds && bitb r.strands k) with
    | some r => t.wrReg (RIB_STRAND.addr k) (r.chain + (popcount 3 r.strands - 1) * 2 ^ 28 + b2n r.soft * 2 ^ 30 + 2 ^ 31)
    | none => t.wrReg (RIB_STRAND.addr k) 0) (s.wr RIB_STAT.BUSY s.heldStrands)

/-- The Lattice byte address of a chain's descriptor (R64, R90). -/
def descAddr (chain : Nat) : Nat := chain * 0x100

/-- The descriptor as it stands in the Lattice, corrected. -/
def State.peekDesc (s : State) (chain : Nat) : Nat :=
  (upto 8).foldl (fun acc i => acc + (s.latPeek (8 * chain + i) 0).1 * 2 ^ (256 * i)) 0

/-- A fresh run. -/
def RibRun.launch (chain strands : Nat) (soft : Bool) (entry : Option Nat) (retry : Bool) : RibRun :=
  { chain := chain, strands := strands, holds := true, soft := soft, entry := entry, retry := retry, phase := .launched
    preempt := false, limit := 0, desc := 0, caps := [], beat := 0, tap := 0, reads := [[], [], [], []], decs := []
    acc0 := [], acc1 := [], carry := 0, ocnt := 0, bflags := 0, beats := [], done := ⟨0, 0, 0, 0⟩, cam := [], camOk := true
    qvals := [[], []], qfrom := [⟨0, 0, 0, 0⟩, ⟨0, 0, 0, 0⟩], qlast := [], mmSent := 0, stop := StopInfo.none }

/-- Launch a chain on strands (R80, R106); a chain already running is refused with BUSY (R107), and its soft entry goes
to IDLE (R174). -/
def State.ribLaunch (s : State) (chain strands : Nat) (soft : Bool) (entry : Option Nat) (retry : Bool) : State :=
  if s.rib.runs.any (fun r => r.chain == chain) then
    let s := s.ribFault chain 0xA 7 strands 0 0 0
    match entry with
    | some e => s.softStopped e 2
    | none => s
  else
    let s := { s with rib.runs := s.rib.runs ++ [RibRun.launch chain strands soft entry retry] }
    let s := match entry with
      | some e => s.softPut e softRunning
      | none => s
    s.showStrands

/-- The least strand of a mask, as a mask. -/
def lowStrand (m : Nat) : Nat := match strandList m with | k :: _ => 2 ^ k | [] => 0

/-- The strands a hard LAUNCH takes, with retired ones removed from STRANDS and the binding adapted (R165, R207); none when the
launch is refused. With no strand retired they are those named, whatever the descriptor's binding (log entry 74). -/
def State.hardStrands (s : State) (chain strands : Nat) : Option Nat :=
  let r := s.retired
  let d := s.peekDesc chain
  let inService := 7 - r
  let kept := strands - Nat.land strands r
  if r = 0 then some strands
  else if dBind d = 0 then
    (if dStrand d != 0 && bitb r (dStrand d - 1) then none
     else if kept != 0 then some (if kept = strands then strands else lowStrand kept)
     else if inService = 0 then none
     else
       let free := inService - Nat.land inService s.heldStrands
       some (lowStrand (if free = 0 then inService else free)))
  else if popcount 3 inService = 2 then some inService
  else if inService != 0 && s.isOn RCV_CTL.LASTSTRAND then some inService
  else none

/-- A hard launch issues: the next instruction follows one rc later (R163, R165). -/
def State.issueLaunch (s : State) (strands chain : Nat) : State :=
  match s.hardStrands chain strands with
  | none => s.ribFault chain 7 7 s.retired (dRidx (s.peekDesc chain)) 0 0
  | some m => s.ribLaunch chain m false none false

/-- Past the last instruction, a ROUNDEND issues by itself (R163). -/
def State.endOfProgram (s : State) : State :=
  if decide (s.sch.plen ≤ s.rd SCH_PC.PC) then { s with sch.ended := true } else s

/-- A held LAUNCH issues once its strands are free, and records STRAND_BUSY (R163, R165). -/
def State.flushHeld (s : State) : State :=
  match s.sch.held with
  | none => s
  | some (strands, chain) =>
    let m := (s.hardStrands chain strands).getD 0
    if Nat.land m s.heldStrands = 0 then
      let s := ({ s with sch.held := none }.breach 2).issueLaunch strands chain
      { s.wr SCH_PC.PC (s.rd SCH_PC.PC + 1) with sch.nextRc := s.rcStart + rc16 }.endOfProgram
    else s

/-! Runs in the state. -/

/-- The run of a chain that holds a phase. -/
def State.run? (s : State) (chain : Nat) (ph : RunPhase) : Option RibRun :=
  s.rib.runs.find? (fun r => r.chain == chain && r.phase == ph)

/-- Replace the run of a chain. -/
def State.putRun (s : State) (r : RibRun) : State :=
  { s with rib.runs := s.rib.runs.map (fun x => if x.chain == r.chain then r else x) }

/-- A chain's run is over: its record leaves, its strands are free, a held LAUNCH may issue. -/
def State.dropRun (s : State) (chain : Nat) : State :=
  ({ s with rib.runs := s.rib.runs.filter (fun r => r.chain != chain) }.showStrands).flushHeld

/-- The first position of a beat (R83). -/
def RibRun.beatPos (r : RibRun) (b : Nat) : Nat := b * dN r.desc

/-- The RIDX that a stop at a beat leaves: its first position, not below the fetched RIDX (R119). -/
def RibRun.ridxAt (r : RibRun) (b : Nat) : Nat := max (r.beatPos b) (dRidx r.desc)

/-- The number of a beat-tap, counted from position 0 (R168). -/
def RibRun.tapNo (r : RibRun) (b t : Nat) : Nat := b * dTaps r.desc + t

/-- The class of a run's accesses (R52, R54): 4 in a soft slot; else 1 for a write and 2 for a read. -/
def RibRun.cls (r : RibRun) (write : Bool) : Nat := if r.soft then 4 else if write then 1 else 2

/-- Pack values of s bytes into whole 64-byte messages; what is left waits (R99). -/
def packMsgs (sz : Nat) : Nat → List Nat → List (List Byte) × List Nat
  | 0, vs => ([], vs)
  | k + 1, vs =>
    if vs.length < 64 / sz then ([], vs)
    else let (m, rest) := packMsgs sz k (vs.drop (64 / sz)); ((vs.take (64 / sz)).flatMap (toBytes sz) :: m, rest)

/-- The last message of a run, padded with zero (R99). -/
def padMsg (sz : Nat) (vs : List Nat) : List (List Byte) :=
  if vs = [] then [] else [((vs.flatMap (toBytes sz)) ++ List.replicate 64 0).take 64]

/-- A run stops where a mark says: what is left of its QSINK values is padded; its write-back follows (R99, R118). The flags of
beats not finished are not kept (log entry 75). -/
def RibRun.stopAtMark (r : RibRun) (m : BeatMark) (i : StopInfo) : RibRun :=
  let left := (upto 2).flatMap (fun w => (padMsg (etW (slEt r.desc (4 + w)) / 8) (r.qvals.getD w [])).map (fun x => (w, x)))
  { r with phase := .stopping, stop := i, carry := m.carry, ocnt := m.ocnt, done := m, qlast := left, qvals := [[], []], beats := [] }

/-- A run stops at the first beat not finished. -/
def RibRun.stopWith (r : RibRun) (i : StopInfo) : RibRun := r.stopAtMark r.done i

/-- A stop before completion at a mark: FIDX of a VOTE or MISMATCH is the RIDX written, with tap and address 0 (log entry
76). -/
def RibRun.stopBefore (r : RibRun) (m : BeatMark) (end_ cause stream : Nat) : RibRun :=
  r.stopAtMark m { StopInfo.none with
    end_ := end_, cause := cause, stream := stream, ridx := r.ridxAt m.beat, fidx := r.ridxAt m.beat, strands := r.strands }

/-- The stop of a fault decision (R119, R122). -/
def RibRun.stopFault (r : RibRun) (d : RibDec) (strands : Nat) : RibRun :=
  r.stopWith ⟨2, d.cause, d.port, r.ridxAt r.done.beat, d.pos, d.tap, d.addr, strands⟩

/-- A DUPLEX mismatch at a mark (R111): MISMATCH, or on a retry a fault; it reaches the Recovery Controller for both
strands. -/
def State.ribMismatch (s : State) (r : RibRun) (m : BeatMark) (stream : Nat) : State × RibRun :=
  let s := s.ribVote r.chain true stream 3 (r.beatPos m.beat)
  let (s, r) := s.ribMm r r.strands true r.retry
  let port := if stream < 6 then stream else 7
  (s, if r.retry then r.stopBefore m 2 9 port else r.stopBefore m 4 0 port)

/-! Fault decisions (R109, R112). -/

/-- What the strands' decisions at a beat come to: the run goes on, with an odd strand or none; it stops at a decision, with the
strands that reported and an odd one; a DUPLEX mismatch. -/
inductive Verdict where
  | go (odd : Nat)
  | stop (d : RibDec) (reported odd : Nat)
  | mismatch
deriving DecidableEq, Repr

/-- Does one decision come before another: the lower position, then the lower port, then the lower tap (R122)? -/
def RibDec.before (a b : RibDec) : Bool :=
  decide (a.pos < b.pos) || (a.pos == b.pos && (decide (a.port < b.port) || (a.port == b.port && decide (a.tap < b.tap))))

/-- The first of some decisions. -/
def firstDec (l : List RibDec) : Option RibDec :=
  l.foldl (fun acc d => match acc with | none => some d | some a => some (if d.before a then d else a)) none

/-- The strands that report a decision. -/
def decStrands (l : List RibDec) : Nat := l.foldl (fun m d => m ||| d.strands) 0

/-- The vote on fault decisions (R112): which strands report one counts, not which one (log entry 80); the cause and stream are
those of the lowest-lettered of them. -/
def verdict (strands : Nat) (l : List RibDec) : Verdict :=
  let rep := Nat.land strands (decStrands l)
  let n := popcount 3 strands
  let k := popcount 3 rep
  if k = 0 then .go 0
  else if n = 3 ∧ k = 1 then .go rep
  else if n = 2 ∧ k = 1 then .mismatch
  else match firstDec (l.filter (fun d => Nat.land d.strands (lowStrand rep) != 0)) with
    | some d => .stop d rep (strands - rep)
    | none => .go 0

/-- An outvoted strand is logged and reported (R110). -/
def State.outvoted (s : State) (r : RibRun) (stream odd pos : Nat) : State × RibRun :=
  if odd = 0 then (s, r)
  else (s.ribVote r.chain false stream (if popcount 3 odd = 1 then (strandList odd).headD 3 else 3) pos).ribMm r odd false false

/-- The verdict on the decisions at the first beat not finished takes effect: true if the run goes on. -/
def State.takeVerdict (s : State) (r : RibRun) (l : List RibDec) : State × RibRun × Bool :=
  let pos := r.beatPos r.done.beat
  match verdict r.strands l with
  | .go odd => let (s, r) := s.outvoted r 7 odd pos; (s, r, true)
  | .stop d rep odd => let (s, r) := s.outvoted r 7 odd pos; (s, r.stopFault d rep, false)
  | .mismatch => let (s, r) := s.ribMismatch r r.done 7; (s, r, false)

/-! Descriptor fetch (R106, R107, R109, R115). -/

/-- The reports of the strands that take part, on the words presented. -/
def decsOn (dec : List StrandDec) (strands n : Nat) : List StrandDec :=
  dec.filter (fun d => bitb strands d.strand.val && decide (d.word < n))

/-- The strand decoders' corrections are counted, but where the Lattice's own decoder found the granule uncorrectable; `got`
holds the words presented (R109). -/
def State.decCount (s : State) (dec : List StrandDec) (strands : Nat) (got : List (Nat × Nat × Nat)) : State :=
  (decsOn dec strands got.length).foldl (fun t d =>
    if d.bad || bitb ((got.getD d.word (0, 0, 0)).2.2) d.gran.val then t else t.bump (RIB_SCE_CNT.COUNT d.strand.val)) s

/-- The requester number of a port on the lowest-lettered strand (R52, R53): port 0 to 5. -/
def ribReq (strands port : Nat) : Nat := (match strandList strands with | k :: _ => 8 * k | [] => 0) + port

/-- An entry of the active copy of the chain capability table (R113). -/
def State.cctEntry (s : State) (i : Nat) : Cap :=
  SMap.get (fun _ => Cap.null) (if s.isOn RIB_CCT_CTL.ACT then s.rib.cct1 else s.rib.cct0) i

/-- The launch check of one stream (R115): the cause of its first failing check. -/
def State.streamCheck (s : State) (d p : Nat) (c : Cap) : Option Nat :=
  let q := slMode d p == modeQsink
  if !(c.tag && c.current s.tri.eprUsed) then some 1
  else if !(c.sealv == 0 && c.otype == (if q then 2 else 0)) then some 4
  else if !(if q then c.has permENQ && c.covers (slQueue d p) 1 else if p < 4 then c.has permR else c.has permW) then some 3
  else if !etMask (slEt d p) && slBase d p % (etW (slEt d p) / 8) != 0 then some 6
  else none

/-- RP's state at a launch (R120, R147): its initial state, or K1 as fetched. -/
def startCarry (d : Nat) : Nat :=
  if dOp d 9 = 0 then 0 else if dRidx d = 0 then rpInit (dOp d 9) else rpKeep (dOp d 9) (dK d 1)

/-- How far a launched run has come: nothing done (R94, R105, R120). -/
def startMark (d : Nat) : BeatMark :=
  ⟨dRidx d / dN d, startCarry d, if dRidx d = 0 then 0 else bits (dStat d) 63 39, bits (dStat d) 5 0⟩

/-- A refused launch frees its strands; its soft entry goes to IDLE (R107, R174). -/
def State.refuseRun (s : State) (r : RibRun) : State :=
  let s := match r.entry with
    | some e => s.softStopped e 2
    | none => s
  s.dropRun r.chain

/-- The byte address of the first uncorrectable granule among words read, by the Lattice's decoder or by a strand's. -/
def badGran (got : List (Nat × Nat × Nat)) (dec : List StrandDec) : Option Nat :=
  (upto got.length).findSome? (fun i =>
    let x := got.getD i (0, 0, 0)
    (firstBelow 4 (fun g => bitb x.2.2 g || dec.any (fun d => d.bad && d.word == i && d.gran.val == g))).map
      (fun g => 32 * x.1 + 8 * g))

/-- DESCRIPTOR_FETCH (R107): the launched chain's descriptor is fetched, in a phase in which its class may issue (R54, R57), and
checked. -/
def execDescriptorFetch (chain : BitVec 12) (dec : List StrandDec) (s : State) : Res := s.whileLive fun s =>
  match s.run? chain.toNat .launched with
  | none => next s
  | some r => match s.untilPhase (fun k => mayIssue k (r.cls false) 0) with
  | none => next s
  | some s =>
    let n := r.chain
    let (got, s1) := s.latReadSet (ribReq r.strands 4) ((upto 8).map (fun i => 8 * n + i))
    let d := (upto 8).foldl (fun (acc i : Nat) => acc + (got.getD i (0, 0, 0)).2.1 * 2 ^ (256 * i)) 0
    let s1 := s1.decCount dec r.strands got
    let mine := decsOn dec r.strands 8
    match badGran got mine with
    | some a =>
      let who := if got.any (fun x => x.2.2 != 0) then r.strands
        else mine.foldl (fun m x => if x.bad then m ||| 2 ^ x.strand.val else m) 0
      next ((s1.ribFault n 5 7 who 0 0 a).refuseRun r)
    | none =>
      if !descOk d r.soft then next ((s1.ribFault n 7 7 r.strands (dRidx d) 0 0).refuseRun r)
      else
        let caps := (upto 6).map (fun p => s1.cctEntry (16 * dCwin d + slCidx d p))
        let m := startMark d
        let r1 := { r with desc := d, caps := caps, phase := .running, beat := m.beat, carry := m.carry, ocnt := m.ocnt, done := m }
        let fail := (upto 6).findSome? (fun p =>
          if slMode d p = modeOff then none else (s1.streamCheck d p (caps.getD p Cap.null)).map (fun c => (p, c)))
        match fail with
        | some (p, c) =>
          next (s1.putRun (r1.stopWith ⟨2, c, p, dRidx d, dRidx d, 0, if slMode d p = modeQsink then 0 else slBase d p, r.strands⟩))
        | none =>
          if dRidx d = dLength d then next (s1.putRun (r1.stopWith { StopInfo.none with end_ := 1 }))
          else if dOp d 8 != 0 then next (s1.putRun { r1 with phase := .table })
          else next (s1.putRun r1)

/-! Stream accesses (R98 to R105, R116, R122). -/

/-- Is an element's address within the Lattice and the stream's capability (R44, R116)? -/
def elemOk (c : Cap) (a : Int) (sz : Nat) : Bool :=
  decide (0 ≤ a) && decide (a + sz ≤ (0x6000000 : Int)) && c.covers (0x100000000 + a.toNat) sz

/-- The bytes an element takes. -/
def elemSz (e : Nat) : Nat := if etMask e then 1 else etW e / 8

/-- The element of type e at address a, of position i, in the words read: (word, data, uncorrectable granules). -/
def elemIn (got : List (Nat × Nat × Nat)) (e i a : Nat) : Nat :=
  let d := (wordOf got (a / 32)).1
  if etMask e then d / 2 ^ (8 * (a % 32) + i % 8) % 2 else d / 2 ^ (8 * (a % 32)) % 2 ^ etW e

/-- The first of the elements (position, address, tap) for which p holds, as a decision of some strands with a cause. -/
def elemDec (port strands cause : Nat) (p : Int → Bool) (els : List (Nat × Int × Nat)) : List RibDec :=
  (firstDec ((els.filter (fun x => p x.2.1)).map (fun x => ⟨strands, x.1, port, cause, x.2.2, (x.2.1 % 2 ^ 27).toNat⟩))).toList

/-- The decisions on elements read through port p: outside bounds, in a granule that the Lattice's decoder found uncorrectable,
or in one that a strand's own decoder did (R109, R116, R122). -/
def RibRun.elemDecs (r : RibRun) (p : Nat) (els : List (Nat × Int × Nat)) (got : List (Nat × Nat × Nat)) (dec : List StrandDec) :
    List RibDec :=
  let sz := elemSz (slEt r.desc p)
  let c := r.caps.getD p Cap.null
  let good := els.filter (fun x => elemOk c x.2.1 sz)
  elemDec p r.strands 2 (fun a => !elemOk c a sz) els ++
  elemDec p r.strands 5 (fun a => bitb (wordOf got (a.toNat / 32)).2 (a.toNat % 32 / 8)) good ++
  ((decsOn dec r.strands got.length).filter (·.bad)).flatMap (fun d =>
    elemDec p (2 ^ d.strand.val) 5 (fun a => a.toNat / 8 == 4 * (got.getD d.word (0, 0, 0)).1 + d.gran.val) good)

/-- The words of elements that lie within bounds, each once: in ascending order, or in the order of the elements (R102). -/
def RibRun.readWords (r : RibRun) (p : Nat) (asc : Bool) (els : List (Nat × Int × Nat)) : List Nat :=
  let ws := (els.filter (fun x => elemOk (r.caps.getD p Cap.null) x.2.1 (elemSz (slEt r.desc p)))).map (fun x => x.2.1.toNat / 32)
  if asc then risingSet ws else ws.foldl (fun acc w => if acc.elem w then acc else acc ++ [w]) []

/-- What reader p presents next (R101, R102): the beat, and the taps it fetches together. -/
def RibRun.nextUnit (r : RibRun) (p : Nat) : Nat × List Nat :=
  let j := (r.reads.getD p []).length
  let k := slWk r.desc p
  let m := slMode r.desc p
  if m = modeWindow then
    let row := (r.tapNo r.beat r.tap) / k + j
    (row / k, (upto k).map (· + row % k * k))
  else if m = modeBcast then (r.beat, upto (dTaps r.desc))
  else (r.beat + j, [0])

/-- The number of the first beat-tap of what reader p presents next. -/
def RibRun.nextTapNo (r : RibRun) (p : Nat) : Nat :=
  let (b, ts) := r.nextUnit p
  r.tapNo b (if slMode r.desc p = modeBcast then r.tap else ts.headD 0)

/-- Must reader p present something before the beat-tap in hand enters the units (R101, R102)? -/
def RibRun.needs (r : RibRun) (p : Nat) : Bool :=
  let m := slMode r.desc p
  m != modeOff && m != modeCamtab && (r.reads.getD p []).isEmpty

/-- May reader p present: a beat of the chain, at most 16 beat-taps beyond the last that entered the units, and once the chain is
asked to preempt none that is not in flight (R169, R177)? After a stop is decided nothing more is read. -/
def RibRun.mayPresent (r : RibRun) (p : Nat) : Bool :=
  let m := slMode r.desc p
  let x := r.nextTapNo p
  m != modeOff && m != modeCamtab && !(m == modeBcast && !(r.reads.getD p []).isEmpty) && !(r.beats.any (·.stops)) &&
    decide (r.beatPos (r.nextUnit p).1 < dLength r.desc) && decide (x < r.tapNo r.beat r.tap + 16) &&
    (!r.preempt || decide (x < r.limit))

/-- The readers whose values reader p waits for: a MASK reader named by UMASK, a GATHER's index (R98, R104). -/
def RibRun.waitsFor (r : RibRun) (p : Nat) : Bool :=
  let u := dWire r.desc 15
  let j := (r.nextUnit p).1 - r.beat
  let lacks (q : Nat) : Bool := decide ((r.reads.getD q []).length ≤ j)
  slMode r.desc p != modeBcast &&
  ((decide (1 ≤ u) && decide (u < 5) && u != p + 1 && lacks (u - 1)) ||
   (slMode r.desc p == modeGather && lacks (slIsrc r.desc p - 1)))

/-- The elements of what reader p presents next: (position, address, tap). -/
def RibRun.elems (r : RibRun) (p : Nat) : List (Nat × Int × Nat) :=
  let d := r.desc
  let u := dWire d 15
  let m := slMode d p
  let (b, taps) := r.nextUnit p
  let at_ (q k : Nat) : Nat := nth ((r.unitAt q (b - r.beat)).vals.getD 0 []) k
  let pos (k : Nat) : Nat := r.beatPos b + k
  let fetched (k : Nat) : Bool :=
    decide (dRidx d ≤ pos k) && decide (pos k < dLength d) && (if 1 ≤ u ∧ u < 5 ∧ u ≠ p + 1 then at_ (u - 1) k % 2 == 1 else true)
  if m = modeBcast then
    taps.map (fun (t : Nat) => (r.ridxAt b, (slBase d p : Int) + (t : Int) * slStride d p * (etW (slEt d p) / 8 : Nat), t))
  else taps.flatMap (fun t => ((upto (dN d)).filter fetched).filterMap (fun k =>
    if m = modeWindow then (winAddr d p (pos k) t).map (fun a => (pos k, a, t))
    else if m = modeGather then
      let e := slEt d (slIsrc d p - 1)
      some (pos k, (slBase d p : Int) + etVal e (at_ (slIsrc d p - 1) k) * (etW (slEt d p) / 8 : Nat), t)
    else some (pos k, slAddr d p (pos k), t)))

/-- The values that reader p presents next, one list per tap, from the words read. -/
def RibRun.values (r : RibRun) (p : Nat) (els : List (Nat × Int × Nat)) (got : List (Nat × Nat × Nat)) : List (List Nat) :=
  let e := slEt r.desc p
  let (b, taps) := r.nextUnit p
  taps.map (fun t =>
    if slMode r.desc p = modeBcast then
      (els.filter (fun x => x.2.2 == t)).map (fun x => elemIn got e 0 x.2.1.toNat)
    else (upto (dN r.desc)).map (fun k =>
      match els.find? (fun x => x.1 == r.beatPos b + k && x.2.2 == t) with
      | some x => elemIn got e (r.beatPos b + k) x.2.1.toNat
      | none => 0))

/-! Writers. -/

/-- The first failing check of a writer's items: control area before bounds (R108, R116, R122). -/
def RibRun.writeFail (r : RibRun) (w : Nat) (its : List (Nat × Nat × Nat)) : List RibDec :=
  let d := r.desc
  let sz := elemSz (slEt d (4 + w))
  let c := r.caps.getD (4 + w) Cap.null
  if slMode d (4 + w) = modeQsink then []
  else (firstDec (its.filterMap (fun x =>
    let a := slAddr d (4 + w) x.1
    if 0 ≤ a + sz - 1 ∧ a < 0x100000 then some ⟨r.strands, x.2.1, 4 + w, 3, r.tap, (a % 2 ^ 27).toNat⟩
    else if !elemOk c a sz then some ⟨r.strands, x.2.1, 4 + w, 2, r.tap, (a % 2 ^ 27).toNat⟩
    else none))).toList

/-- The words of a writer's items, in order: (word, mask, data). -/
def RibRun.words (r : RibRun) (w : Nat) (its : List (Nat × Nat × Nat)) : List (Nat × Nat × Nat) :=
  let d := r.desc
  let e := slEt d (4 + w)
  its.foldl (fun acc x =>
    let a := (slAddr d (4 + w) x.1).toNat
    let sh := 8 * (a % 32) + (if etMask e then x.1 % 8 else 0)
    let m := (2 ^ etW e - 1) * 2 ^ sh
    let v := x.2.2 % 2 ^ etW e * 2 ^ sh
    if acc.any (fun y => y.1 == a / 32) then
      acc.map (fun y => if y.1 == a / 32 then (y.1, Nat.lor y.2.1 m, Nat.lor (Nat.land y.2.2 (2 ^ 256 - 1 - m)) v) else y)
    else acc ++ [(a / 32, m, v)]) []

/-- A strand's proposal of a word or message: address, mask of the bits written, data (R110). -/
structure Proposal where
  word : Nat
  mask : Nat
  data : Nat
deriving DecidableEq, Repr

/-- The mask of the bits of the byte enables given. -/
def enableMask (e : Nat) : Nat := (upto 32).foldl (fun acc i => if bitb e i then acc + 255 * 2 ^ (8 * i) else acc) 0

/-- A strand's proposal of the j-th word, from the chain's result and how the strand differs from it. -/
def proposalOf (x : Proposal) (diff : List StrandDiff) (strand j : Nat) : Proposal :=
  let y := diff.foldl (fun (y : Proposal) d =>
    if d.strand.val = strand ∧ d.word = j then
      ⟨Nat.xor y.word d.addr.toNat, Nat.xor y.mask (enableMask d.enables.toNat), Nat.xor y.data d.data.toNat⟩
    else y) x
  { y with data := Nat.land y.data y.mask }

/-- The outcome of a vote or compare (R110, R111): what is written and the odd strand; a VOTE stop; a DUPLEX mismatch. -/
inductive VoteOut where
  | write (x : Proposal) (odd : Nat)
  | voteStop
  | mismatch
deriving DecidableEq, Repr

/-- Vote over the participating strands' proposals of the j-th word. -/
def voteOn (strands : Nat) (x : Proposal) (diff : List StrandDiff) (j : Nat) : VoteOut :=
  let f := proposalOf x diff
  match strandList strands with
  | [a, b, c] =>
    if f a j = f b j ∧ f b j = f c j then .write (f a j) 0
    else if f a j = f b j then .write (f a j) (2 ^ c)
    else if f a j = f c j then .write (f a j) (2 ^ b)
    else if f b j = f c j then .write (f b j) (2 ^ a)
    else .voteStop
  | [a, b] => if f a j = f b j then .write (f a j) 0 else .mismatch
  | a :: _ => .write (f a j) 0
  | [] => .write x 0

/-- A vote's consequences at a mark: what is written, or none where the run has stopped (R110, R111). -/
def State.applyVote (s : State) (r : RibRun) (m : BeatMark) (stream : Nat) (v : VoteOut) : State × RibRun × Option Proposal :=
  match v with
  | .write x odd => let (s, r) := s.outvoted r stream odd (r.beatPos m.beat); (s, r, some x)
  | .voteStop =>
    let s := s.ribVote r.chain false stream 3 (r.beatPos m.beat)
    let (s, r) := s.ribMm r r.strands false false
    (s, r.stopBefore m 2 8 stream, none)
  | .mismatch => let (s, r) := s.ribMismatch r m stream; (s, r, none)

/-- Vote on the words or messages of one writer at a mark, the next of them the j-th: what is written, or none where the run has
stopped. -/
def State.voteAll (s : State) (r : RibRun) (m : BeatMark) (stream : Nat) (diff : List StrandDiff) :
    Nat → List Proposal → State × RibRun × Option (List Proposal)
  | _, [] => (s, r, some [])
  | j, x :: t =>
    match s.applyVote r m stream (voteOn r.strands x diff j) with
    | (s, r, none) => (s, r, none)
    | (s, r, some y) =>
      match State.voteAll s r m stream diff (j + 1) t with
      | (s, r, none) => (s, r, none)
      | (s, r, some l) => (s, r, some (y :: l))

/-! Beats. -/

/-- Does reader p's presentation end with the beat-tap in hand? -/
def RibRun.unitEnds (r : RibRun) (p : Nat) : Bool :=
  let m := slMode r.desc p
  if m = modeBcast then false
  else if m = modeWindow then (r.tap + 1) % slWk r.desc p == 0
  else r.tap + 1 == dTaps r.desc

/-- The readers' presentations that end with the beat-tap in hand leave. -/
def RibRun.popReads (r : RibRun) : List (List RdUnit) :=
  (upto 4).map (fun p => let l := r.reads.getD p []; if r.unitEnds p then l.drop 1 else l)

/-- The decisions on the readers' accesses for the beat-tap in hand, each taken with the first beat-tap that needs it. -/
def RibRun.readDecs (r : RibRun) : List RibDec :=
  (upto 4).flatMap (fun p =>
    let m := slMode r.desc p
    let first := if m = modeWindow then r.tap % slWk r.desc p == 0
      else if m = modeBcast then r.tapNo r.beat r.tap == r.tapNo (dRidx r.desc / dN r.desc) 0 else r.tap == 0
    if first then (r.unitAt p 0).decs else [])

/-- The beat in hand enters the units for its last tap (R83, R168): its flags, RP's state after it, the decisions at it, and what
its writers are to write. -/
def RibRun.enterBeat (r : RibRun) (ev : BeatEval) (decs : List RibDec) : RibBeat :=
  let its := [r.items ev 0, r.items ev 1]
  let decs := decs ++ (upto 2).flatMap (fun w => r.writeFail w (its.getD w []))
  let stops := match verdict r.strands decs with | .go _ => false | _ => true
  { beat := r.beat, decs := decs, stops := stops, flags := r.bflags ||| r.evalFlags ev
    carry := if dOp r.desc 9 = 0 then 0 else ev.rp.carry
    ocnt := r.ocnt + (if dEmits r.desc then ev.rp.emitted.length else 0)
    left := if stops then [] else (upto 2).filter (fun w => slMode r.desc (4 + w) != modeOff && !(its.getD w []).isEmpty)
    items := its, diffs := [[], []] }

/-- The beat-tap in hand enters the units (R101, R168). -/
def RibRun.enter (r : RibRun) : RibRun :=
  let ev := r.eval
  let decs := r.decs ++ r.readDecs
  if r.tap + 1 < dTaps r.desc then
    { r with reads := r.popReads, decs := decs, tap := r.tap + 1, acc0 := ev.acc0, acc1 := ev.acc1
             bflags := r.bflags ||| r.evalFlags ev }
  else
    let b := r.enterBeat ev decs
    { r with reads := r.popReads, decs := [], beat := r.beat + 1, tap := 0, acc0 := [], acc1 := [], bflags := 0
             carry := b.carry, ocnt := b.ocnt, beats := r.beats ++ [b] }

/-- The messages that a QSINK writer has complete with a beat's values, and the values left (R99). -/
def RibRun.packs (r : RibRun) (b : RibBeat) (w : Nat) : List (List Byte) × List Nat :=
  let vals := r.qvals.getD w [] ++ (b.items.getD w []).map (fun x => x.2.2)
  packMsgs (etW (slEt r.desc (4 + w)) / 8) vals.length vals

/-- A writer's proposals at a beat: its words in order, or its messages (R102, R110). -/
def RibRun.proposals (r : RibRun) (b : RibBeat) (w : Nat) : List Proposal :=
  if slMode r.desc (4 + w) = modeOff then []
  else if slMode r.desc (4 + w) = modeQsink then (r.packs b w).1.map (fun m => ⟨0, 2 ^ 512 - 1, ofBytes m⟩)
  else (r.words w (b.items.getD w [])).map (fun x => ⟨x.1, x.2.1, x.2.2⟩)

/-- The lane of a run's messages: its lowest-lettered strand. -/
def RibRun.lane (r : RibRun) : Nat := (strandList r.strands).headD 0

/-- Does a strand's input buffer have room for n messages more (R325)? -/
def State.bufRoom (s : State) (lane n : Nat) : Bool :=
  n == 0 || decide ((s.que.inbuf.filter (fun x => x.1 == lane)).length + n ≤ 32)

/-- The messages that a beat completes, by both writers. -/
def RibRun.msgCount (r : RibRun) (b : RibBeat) : Nat :=
  ((upto 2).map (fun w => if slMode r.desc (4 + w) = modeQsink then (r.packs b w).1.length else 0)).foldl (· + ·) 0

/-- The words that a beat writes in part, whose read halves find an uncorrectable granule to merge (R51, R122): the decisions, and
the state with the read halves' events. -/
def State.rmwDecs (s : State) (r : RibRun) (b : RibBeat) (w : Nat) (ps : List Proposal) : List RibDec × State :=
  let part := ps.filter (fun x => decide (x.word < latWords) && (upto 4).any (granPartial x.mask))
  let bad (x : Proposal) : List Nat := (upto 4).filter (fun g => granPartial x.mask g && bitb (s.latPeek x.word 0).2.1 g)
  let decs := part.flatMap (fun x => (bad x).flatMap (fun g =>
    (firstDec ((b.items.getD w []).filterMap (fun it =>
      let a := slAddr r.desc (4 + w) it.1
      if 0 ≤ a ∧ a.toNat / 8 = 4 * x.word + g then
        some (⟨r.strands, it.2.1, 4 + w, 5, dTaps r.desc - 1, a.toNat⟩ : RibDec) else none))).toList))
  (decs, if decs = [] then s else (s.latReadSet (ribReq r.strands (4 + w)) (part.map (·.word))).2)

/-- A beat's words are written and its messages reach the strand's input buffer; what the beat leaves is kept (R94, R99, R119). -/
def State.writeBeat (s : State) (r : RibRun) (b : RibBeat) (p0 p1 : List Proposal) : State × RibRun :=
  let write (s : State) (w : Nat) (ps : List Proposal) : State :=
    if slMode r.desc (4 + w) = modeQsink then
      { s with que.inbuf := s.que.inbuf ++ ps.map (fun x => (r.lane, 2 * r.chain + w, slQueue r.desc (4 + w), toBytes 64 x.data)) }
    else ps.foldl (fun t x => if x.word < latWords then (t.latWrite (ribReq r.strands (4 + w)) (r.cls true) x.word x.mask x.data).2 else t) s
  let keeps (w : Nat) : Bool := slMode r.desc (4 + w) == modeQsink && !(b.items.getD w []).isEmpty
  (write (write s 0 p0) 1 p1,
    { r with
      beats := r.beats.drop 1
      done := ⟨b.beat + 1, b.carry, b.ocnt, r.done.flags ||| b.flags⟩
      qvals := (upto 2).map (fun w => if keeps w then (r.packs b w).2 else r.qvals.getD w [])
      qfrom := (upto 2).map (fun w => if keeps w then r.done else r.qfrom.getD w r.done) })

/-- The first beat not finished, whose writers have all presented: its fault decisions and proposals are voted, and it is
finished, or the run stops at it with nothing of it written (R110 to R112, R119, R122). -/
def State.finishBeat (s : State) (r : RibRun) (b : RibBeat) : State × RibRun :=
  match s.takeVerdict r b.decs with
  | (s, r, false) => (s, r)
  | (s, r, true) =>
    match s.voteAll r r.done 4 (b.diffs.getD 0 []) 0 (r.proposals b 0) with
    | (s, r, none) => (s, r)
    | (s, r, some p0) =>
      match s.voteAll r r.done 5 (b.diffs.getD 1 []) 0 (r.proposals b 1) with
      | (s, r, none) => (s, r)
      | (s, r, some p1) =>
        let (d0, s) := if slMode r.desc 4 = modeQsink then ([], s) else s.rmwDecs r b 0 p0
        let (d1, s) := if slMode r.desc 5 = modeQsink then ([], s) else s.rmwDecs r b 1 p1
        match firstDec (d0 ++ d1) with
        | some d => (s, r.stopFault d r.strands)
        | none => s.writeBeat r b p0 p1

/-- Is a run's soft entry to be cancelled once its beat-taps in flight are done (R178)? -/
def State.runCancelled (s : State) (r : RibRun) : Bool :=
  match r.entry with | some e => s.sch.cancels.elem e | none => false

/-- Go on as far as no reader and no writer has anything to present: finish beats, let beat-taps enter the units, complete
(R101, R119, R168, R177). -/
def State.ribAdvance : Nat → State → RibRun → State × RibRun
  | 0, s, r => (s, r)
  | k + 1, s, r =>
    let enters := decide (r.beatPos r.beat < dLength r.desc) && decide (r.beats.length < 16) && !(r.beats.any (·.stops)) &&
      !((upto 4).any r.needs)
    if r.phase != .running then (s, r)
    else match r.beats with
    | b :: _ =>
      if b.left = [] && s.bufRoom r.lane (r.msgCount b) then
        let (s, r) := s.finishBeat r b
        State.ribAdvance k s r
      else if enters then State.ribAdvance k s r.enter
      else (s, r)
    | [] =>
      if dLength r.desc ≤ r.beatPos r.done.beat then (s, r.stopWith { StopInfo.none with end_ := 1 })
      else if enters then State.ribAdvance k s r.enter
      else if r.preempt && s.runCancelled r && decide (r.limit ≤ r.tapNo r.beat r.tap) then (s, r.stopBefore r.done 3 0 0)
      else (s, r)

/-- Enough steps for any run: two per beat-tap. -/
def RibRun.fuel (r : RibRun) : Nat := 2 * (dLength r.desc / dN r.desc + 2) * dTaps r.desc + 40

/-- Ask a run to preempt (R177): beat-taps for which some reader has presented are in flight. -/
def RibRun.askPreempt (r : RibRun) : RibRun :=
  let shown (p : Nat) : Nat :=
    let l := r.reads.getD p []
    if l.isEmpty then 0
    else let r' := { r with reads := r.reads.set p l.dropLast }; r'.nextTapNo p + 1
  if r.preempt then r
  else { r with preempt := true, limit := (upto 4).foldl (fun m p => max m (shown p)) (r.tapNo r.beat r.tap) }

/-- Advance a run and keep it. -/
def State.settle (s : State) (r : RibRun) : State :=
  let (s, r) := State.ribAdvance r.fuel s r
  s.putRun r

/-- What reader p presents next: the words read, the decisions of every strand, its values (R101, R102, R109, R122). -/
def State.readUnit (s : State) (r : RibRun) (p : Nat) (dec : List StrandDec) : State × RdUnit :=
  let els := r.elems p
  let m := slMode r.desc p
  let (got, s) := s.latReadSet (ribReq r.strands p) (r.readWords p (m == modeWindow || m == modeBcast) els)
  (s.decCount dec r.strands got, ⟨r.values p els got, r.elemDecs p els got dec⟩)

/-- STREAM_READ (R102): a reader port presents its words for its next beat-tap, in a phase in which its class may issue (R57). -/
def execStreamRead (chain : BitVec 12) (port : Fin 4) (dec : List StrandDec) (s : State) : Res := s.whileLive fun s =>
  match s.run? chain.toNat .running with
  | none => next s
  | some r =>
    let p := port.val
    if !r.mayPresent p || r.waitsFor p then next s
    else match s.untilPhase (fun k => mayIssue k (r.cls false) 0) with
    | none => next s
    | some s =>
      let (s, u) := s.readUnit r p dec
      next (s.settle { r with reads := r.reads.set p (r.reads.getD p [] ++ [u]) })

/-- STREAM_WRITE (R110): a writer port presents its words for its oldest beat that awaits them, in a phase in which its class may
issue (R57), with how the strands' proposals differ. -/
def execStreamWrite (chain : BitVec 12) (port : Fin 2) (diff : List StrandDiff) (s : State) : Res := s.whileLive fun s =>
  match s.run? chain.toNat .running with
  | none => next s
  | some r =>
    let w := port.val
    match r.beats.find? (fun b => b.left.elem w) with
    | none => next s
    | some b => match s.untilPhase (fun k => mayIssue k (r.cls true) 0) with
    | none => next s
    | some s =>
      let b' := { b with left := b.left.erase w, diffs := b.diffs.set w diff }
      next (s.settle { r with beats := r.beats.map (fun x => if x.beat = b.beat then b' else x) })

/-- The run of a chain, in any phase. -/
def State.runOf (s : State) (chain : Nat) : Option RibRun := s.rib.runs.find? (fun r => r.chain == chain)

/-- The last message of a stopped run's QSINK writer is voted and reaches the queue engine; a vote or compare that fails stops the
run at the beat of its last value instead (R99, R110, R111; log entry 77). -/
def State.lastMessage (s : State) (r : RibRun) (w : Nat) (m : Nat × List Byte) (diff : List StrandDiff) : State :=
  let r := { r with qlast := r.qlast.erase m }
  match s.applyVote r (r.qfrom.getD w r.done) (4 + w) (voteOn r.strands ⟨0, 2 ^ 512 - 1, ofBytes m.2⟩ diff 0) with
  | (s, r, none) => s.putRun { r with qlast := [] }
  | (s, r, some x) => (s.queMessage (2 + r.lane) (slQueue r.desc (4 + w)) (toBytes 64 x.data)).2.putRun r

/-- QSINK_MESSAGE (R99): the queue engine takes the oldest message of a chain's QSINK writer from the strand's input buffer, or the
writer's last message when the chain has stopped (R110, R325). -/
def execQsinkMessage (chain : BitVec 12) (port : Fin 2) (diff : List StrandDiff) (s : State) : Res := s.whileLive fun s =>
  match s.que.inbuf.find? (fun x => x.2.1 == 2 * chain.toNat + port.val) with
  | some x =>
    let (_, s) := ({ s with que.inbuf := s.que.inbuf.erase x }).queMessage (2 + x.1) x.2.2.1 x.2.2.2
    match s.run? chain.toNat .running with
    | some r => next (s.settle r)
    | none => next s
  | none =>
    match s.run? chain.toNat .stopping with
    | none => next s
    | some r =>
      match r.qlast.find? (fun m => m.1 == port.val) with
      | none => next s
      | some m => next (s.lastMessage r port.val m diff)

/-! Cam table (R149, R150). -/

/-- Read table elements by offset, in ascending order, none after the first that is TLEN or more; `got` holds the words presented
so far, which are not presented again: the values, the words now presented, the state (R100, R149). -/
def State.camRead (s : State) (r : RibRun) (offs : List Nat) (got : List (Nat × Nat × Nat)) :
    List (Nat × Nat) × List (Nat × Nat × Nat) × List (Nat × Int × Nat) × State :=
  let d := r.desc
  let e := slEt d 3
  let addr (o : Nat) : Nat := slBase d 3 + o * (etW e / 8)
  let els := (offs.takeWhile (fun o => decide (o < slCols d 3))).map (fun o => (dRidx d, ((addr o : Nat) : Int), 0))
  let ws := (r.readWords 3 true els).filter (fun w => !(got.any (fun x => x.1 == w)))
  let (more, s) := s.latReadSet (ribReq r.strands 3) ws
  let got := got ++ more
  ((offs.takeWhile (fun o => decide (o < slCols d 3))).map (fun o => (o, elemIn got e 0 (addr o))), got, els, s)

/-- The decision on the first offset requested that is TLEN or more (R100, R149). -/
def RibRun.camBeyond (r : RibRun) (offs : List Nat) : List RibDec :=
  match offs.find? (fun o => decide (slCols r.desc 3 ≤ o)) with
  | some o => [⟨r.strands, dRidx r.desc, 3, 2, 0, (slBase r.desc 3 + o * (etW (slEt r.desc 3) / 8)) % 2 ^ 27⟩]
  | none => []

/-- An element by offset. -/
def camVal (l : List (Nat × Nat)) (o : Nat) : Nat := match l.find? (fun x => x.1 == o) with | some x => x.2 | none => 0

/-- The length a table needs (R149). -/
def camLen (tab : List Nat) (pcount : Nat) : Nat :=
  let ls := (upto pcount).filterMap (fun p => (camEntry tab p).map (fun x => x.1 + 5 * x.2.1 + 1))
  if ls = [] then pcount + 1 else ls.foldl max 0

/-- What a table load has found so far: the elements, the words presented, the elements requested, the decision beyond TLEN. -/
structure CamScan where
  vals : List (Nat × Nat)
  got : List (Nat × Nat × Nat)
  els : List (Nat × Int × Nat)
  beyond : List RibDec

/-- Request further offsets. -/
def State.camMore (s : State) (r : RibRun) (c : CamScan) (offs : List Nat) : State × CamScan :=
  let offs := offs.filter (fun o => !(c.vals.any (fun x => x.1 == o)))
  let (v, got, els, s) := s.camRead r offs c.got
  (s, ⟨c.vals ++ v, got, c.els ++ els, c.beyond ++ r.camBeyond offs⟩)

/-- Did a request lie beyond the table, or find an uncorrectable granule, for every strand? The load then ends. -/
def CamScan.failed (c : CamScan) : Bool :=
  c.beyond != [] || c.els.any (fun x => bitb (wordOf c.got (x.2.1.toNat / 32)).2 (x.2.1.toNat % 32 / 8))

/-- Load a Cam table in two passes (R149): its elements, whether it is valid, what was found, the state. -/
def State.camLoad (s : State) (r : RibRun) : List Nat × Bool × CamScan × State :=
  let d := r.desc
  let e := slEt d 3
  let sz := etW e / 8
  let base := slBase d 3
  let prefixEnd := ((base / 32 + 2) * 32 - base) / sz
  let (s, c) := s.camMore r ⟨[], [], [], []⟩ (if slCols d 3 = 0 then [0] else upto (min prefixEnd (slCols d 3)))
  let asList (l : List (Nat × Nat)) (n : Nat) : List Nat := (upto n).map (camVal l)
  if c.failed then ([], false, c, s)
  else
    let h := camVal c.vals 0
    let hi (x : Nat) : Nat := if e = 11 then x / 2 ^ 32 else 0
    let pc := bits h 8 0
    if hi h != 0 || h % 2 ^ 32 / 512 != 0 || pc = 0 || decide (256 < pc) then ([h], false, c, s)
    else
      let (s, c) := s.camMore r c ((upto (pc + 1)).drop 1)
      if c.failed then ([], false, c, s)
      else
        let dir := asList c.vals (pc + 1)
        let len := camLen dir pc
        if (dir.any (fun x => hi x != 0)) || decide (24576 < len * sz) then (dir, false, c, s)
        else
          let (s, c) := s.camMore r c ((upto len).drop (pc + 1))
          if c.failed then ([], false, c, s) else (asList c.vals (max len (pc + 1)), true, c, s)

/-- TABLE_LOAD (R149): the Cam table of a launched chain is loaded; every strand decodes it for its own store (R109). -/
def execTableLoad (load : TableDec) (s : State) : Res := s.whileLive fun s =>
  match s.run? load.chain.toNat .table with
  | none => next s
  | some r => match s.untilPhase (fun k => mayIssue k (r.cls false) 0) with
  | none => next s
  | some s =>
    let (tab, ok, c, s) := s.camLoad r
    let s := s.decCount load.dec r.strands c.got
    match s.takeVerdict r (r.elemDecs 3 c.els c.got load.dec ++ c.beyond) with
    | (s, r, false) => next (s.putRun r)
    | (s, r, true) => next (s.settle { r with phase := .running, cam := tab, camOk := ok })

/-! Stops (R118 to R124). -/

/-- The strands are free and the soft entry takes its next state (R174, R177). -/
def State.releaseRun (s : State) (r : RibRun) : State :=
  if !r.holds then s
  else
    let s := (s.putRun { r with holds := false }).showStrands
    match r.entry with
    | some e => s.softStopped e r.stop.end_
    | none => s

/-- STAT as a stop leaves it (R93, R118). -/
def RibRun.statOut (r : RibRun) : Nat :=
  r.done.flags % 64 + r.stop.end_ * 2 ^ 8 + (if r.stop.end_ = 2 then r.stop.cause else 0) * 2 ^ 12 +
    (if r.stop.end_ = 2 ∨ r.stop.end_ = 4 then r.stop.stream else 0) * 2 ^ 16 + r.ocnt % 2 ^ 25 * 2 ^ 39

/-- The mask and data of the write-back over bytes 0x20 to 0x3F of the descriptor (R118). -/
def RibRun.writeBack (r : RibRun) : Nat × Nat :=
  let run := dLength r.desc + (if r.stop.end_ = 1 then 0 else r.stop.ridx) * 2 ^ 32
  let all := 2 ^ 256 - 2 ^ 64
  let m := if dCarries r.desc then all else 2 ^ 256 - 2 ^ 128
  (m, r.carry % 2 ^ 64 * 2 ^ 64 + run * 2 ^ 128 + r.statOut * 2 ^ 192)

/-- A stopped chain's outcome reaches the logs and the sequencer (R124, R179). -/
def State.reportStop (s : State) (r : RibRun) : State :=
  let i := r.stop
  let s := s.when (i.end_ == 2) (fun t => t.ribFault r.chain i.cause i.stream i.strands i.fidx i.tap i.addr)
  let s := if i.end_ = 1 ∧ dDoneIe r.desc then
      (if s.rib.done.length < 16 then { s with rib.done := s.rib.done ++ [r.chain] } else { s with rib.doneOvf := true })
    else s
  if i.end_ = 4 ∧ !r.soft ∧ !r.retry then s.retryPush r.chain r.strands else s

/-- The pattern by which a strand's write-back differs: K1, RUN and STAT (R110). -/
def wbDiff (diff : List StrandDiff) (k : Nat) : Nat :=
  diff.foldl (fun acc d => if d.strand.val = k ∧ d.word = 0 then Nat.xor acc (d.data.toNat % 2 ^ 192) else acc) 0

/-- The part of a write-back pattern that is STAT's FLAGS and SAT. -/
def wbFlags (x : Nat) : Nat := x / 2 ^ 128 % 64 * 2 ^ 128

/-- The mark whose beat RIB_VOTE_IDX names for a write-back: the beat it stopped at, the last one at completion (log entry
78). -/
def RibRun.wbMark (r : RibRun) : BeatMark := if r.stop.end_ = 1 then { r.done with beat := r.done.beat - 1 } else r.done

/-- The write-back of a stopped run, xored with a pattern, is made; its outcome is reported and its strands are free. -/
def State.wbWrite (s : State) (r : RibRun) (x : Nat) : State :=
  let (mask, d) := r.writeBack
  let (_, s) := s.latWrite (ribReq r.strands 4) (r.cls true) (8 * r.chain + 1) mask (Nat.xor d (x * 2 ^ 64))
  ((s.releaseRun r).reportStop r).dropRun r.chain

/-- The write-back of a DUPLEX chain that differs (R111): none is made; a mismatch, or on a retry a fault logged in RIB_FAULT_INFO
only, with FIDX, TAP and ADDR as the stop had them (log entry 76). -/
def State.wbMismatch (s : State) (r : RibRun) : State :=
  let s := if r.retry then s.bump RIB_VOTE_CNT.COUNT else s.ribVote r.chain true 6 3 (r.beatPos r.wbMark.beat)
  let (s, r) := s.ribMm r r.strands true r.retry
  let r := { r with stop := if r.retry then { r.stop with end_ := 2, cause := 9, stream := 7, strands := r.strands }
    else { r.stop with end_ := 4, stream := 7 } }
  let s := if r.holds then s.releaseRun r
    else match r.entry with
      | some e => if r.retry then s.softPut e softIdle else { s.softPut e softReady with sch.retryNext := e :: s.sch.retryNext }
      | none => s
  (s.reportStop r).dropRun r.chain

/-- The write-back of a BOUND or SOLO chain (R110): voted bit by bit, the flags of STAT on their own. -/
def State.wbVote (s : State) (r : RibRun) (diff : List StrandDiff) : State :=
  let ks := strandList r.strands
  let m := wbDiff diff
  let x := match ks with
    | [a, b, c] => Nat.lor (Nat.lor (Nat.land (m a) (m b)) (Nat.land (m a) (m c))) (Nat.land (m b) (m c))
    | a :: _ => m a
    | [] => 0
  let odd (part : Nat → Nat) : Nat := ks.foldl (fun acc k => if part (m k) = part x then acc else acc + 2 ^ k) 0
  let pos := r.beatPos r.wbMark.beat
  let (s, r) := s.outvoted r 6 (odd (fun y => y - wbFlags y)) pos
  let (s, r) := s.outvoted r 6 (odd wbFlags) pos
  s.wbWrite r x

/-- STOP_WRITE_BACK (R118): the one write-back of a stopped chain, voted bit by bit or compared, in a phase in which its class may
issue (R54, R57). -/
def execStopWriteBack (chain : BitVec 12) (diff : List StrandDiff) (s : State) : Res := s.whileLive fun s =>
  match s.run? chain.toNat .stopping with
  | none => next s
  | some r =>
    if r.qlast != [] then next s
    else match s.untilPhase (fun k => mayIssue k (r.cls true) 0) with
    | none => next s
    | some s =>
      match strandList r.strands with
      | [a, b] => next (if wbDiff diff a != wbDiff diff b then s.wbMismatch r else s.wbWrite r (wbDiff diff a))
      | _ => next (s.wbVote r diff)

/-! The chain capability table and the completion queue (R113, R114, R126). -/

/-- The address of the table image. -/
def State.cctBase (s : State) : Nat := s.rd RIB_CCT_BASE_LO.ADDR_LO * 2 ^ 14 + s.rd RIB_CCT_BASE_HI.ADDR_HI * 2 ^ 32

/-- LOAD (R113): RIB_CCT_CTL.LOAD starts a load of the staged copy; refused with ERR when the image is not wholly in
usable Bulk, or while BUSY or CPEND is 1. -/
def execLoad (s : State) : Res :=
  if !inBulk s.cctBase 16384 || s.isOn RIB_CCT_CTL.BUSY || s.isOn RIB_CCT_CTL.CPEND then next (s.on RIB_CCT_CTL.ERR)
  else next (s.on RIB_CCT_CTL.BUSY)

/-- CCT_LOAD_DONE (R113): the image's 1,024 entries are in the staged copy; an entry that is untagged or whose read
receives a bus error is null. The base is read now (log entry 79). -/
def execCctLoadDone (s : State) : Res := s.whileLive fun s =>
  if !s.isOn RIB_CCT_CTL.BUSY then next s
  else
    let base := s.cctBase
    let (tab, s1) := (upto 1024).foldl (fun (acc : List (Nat × Cap) × State) e =>
      let a := base + 16 * e
      match (acc.2.toPort 13 a).bulkRead a 16 with
      | (none, t) => (acc.1, t.busErr.on RIB_CCT_CTL.ERR)
      | (some bs, t) =>
        (if t.tagged a then SMap.set (fun _ => Cap.null) acc.1 e ⟨BitVec.ofNat 128 (ofBytes bs), true⟩ else acc.1, t))
      ([], s)
    let s2 := if s1.isOn RIB_CCT_CTL.ACT then { s1 with rib.cct0 := tab } else { s1 with rib.cct1 := tab }
    next { s2.off RIB_CCT_CTL.BUSY with rib.loaded := true }

/-- A COMMIT, written by software or by the sequencer (R114, R184). -/
def State.ribCommit (s : State) : State :=
  if s.isOn RIB_CCT_CTL.CPEND then s
  else if !s.rib.loaded then s.on RIB_CCT_CTL.ERR
  else s.on RIB_CCT_CTL.CPEND

/-- COMMIT (R114): RIB_CCT_CTL.COMMIT asks for the swap of the copies. -/
def execCommit (s : State) : Res := next s.ribCommit

/-- The swap at a round boundary, once no load is in progress (R114). -/
def State.cctSwap (s : State) : State :=
  if s.isOn RIB_CCT_CTL.CPEND && !s.isOn RIB_CCT_CTL.BUSY then
    { (s.off RIB_CCT_CTL.CPEND).put RIB_CCT_CTL.ACT (!s.isOn RIB_CCT_CTL.ACT) with rib.loaded := false }
  else s

/-- A read of RIB_DONE (R126): the oldest entry leaves; OVF clears on a read that finds the queue empty. -/
def State.ribDonePop (s : State) : Nat × State :=
  match s.rib.done with
  | c :: t => (c + b2n s.rib.doneOvf * 2 ^ 30 + 2 ^ 31, { s with rib.done := t })
  | [] => (b2n s.rib.doneOvf * 2 ^ 30, { s with rib.doneOvf := false })

/-- RIB_DONE (R126). -/
def execRibDone (s : State) : Res :=
  let (v, s1) := s.ribDonePop
  next (s1.answer (.data (toBytes 4 v)))

/-- LANEMAP_WRITE (R126): accepted while the sequencer is STOPPED, unless two spares would serve one lane; a spare that enters
service raises the degrade source (R208). -/
def execLanemapWrite (strand : Fin 3) (value : BitVec 32) (s : State) : Res :=
  let v := value.toNat
  let sp (k : Nat) : Nat := bits v (8 * k + 7) (8 * k)
  let clash := (upto 4).any (fun i => (upto 4).any (fun j =>
    decide (i < j) && bitb (sp i) 7 && bitb (sp j) 7 && sp i % 64 == sp j % 64))
  if !s.schIs schStopped || clash then next s
  else
    let old := s.rdReg (RIB_LANEMAP.addr strand.val)
    let t := s.wrReg (RIB_LANEMAP.addr strand.val) (Nat.land v 0xBFBFBFBF)
    next (t.when ((upto 4).any (fun k => bitb (sp k) 7 && !bitb old (8 * k + 7))) State.degrade)

end Sys2Proof.Machine
end

