-- ==== Sys2Proof/Machine/Recovery.lean ====
section
/-! DEFINITION. Machine/Recovery.lean: the Recovery Controller: voters and resynchronisation (R195 to R203), strand
mismatches, lane tests, substitution and retirement (R204 to R208), its own upsets and the Watcher (R209 to R213). -/

namespace Sys2Proof.Machine

/-- The 10 s window of R199 to R201, in ns. -/
abbrev window10 : Nat := 10000000000

/-- A failed start is counted (R200, R425), and the start window stops; the count that reaches 3 marks the reset that
follows with LULL. -/
def State.failStart (s : State) : State :=
  let t := (s.off RST_STAT.WIN).bump RST_STARTS.COUNT
  t.when (t.rd RST_STARTS.COUNT == 3 && s.rd RST_STARTS.COUNT == 2) (fun u => u.orBits RST_CAUSE.CAUSE (2 ^ 12))

/-- A resynchronisation, requested or in its pause, ends without effect (R213). -/
def State.endResync (s : State) : State := { s.off RCV_STAT.RESYNC with rcv.resync := none, rcv.paused := none }

/-- The Recovery Controller applies a core reset (R212); the fourth lockstep reset within 10 s is a warm reset (R200). -/
def State.rcCore (s : State) (cause : Nat) : State :=
  let lockstep := cause != 4
  let recent := s.rcv.resets.filter (fun t => decide (s.now ≤ t + window10))
  let s := { s.endResync with rcv.resets := if lockstep then s.now :: s.rcv.resets else s.rcv.resets }
  if lockstep && decide (3 ≤ recent.length) then ((s.rcLog 0x05 0 0 0).failStart).callReset 2 5
  else
    (((s.rcLog 0x04 0 cause 0).wr RCV_STAT.CORE_CAUSE cause).bump RCV_CORERST_CNT.COUNT).callReset 1
      (if cause = 2 then 5 else 13)

/-- Retire a voter (R201). -/
def State.retireVoter (s : State) (v : Nat) : State :=
  if bitb (s.rd RCV_STAT.VRET) v then s else ((s.rcLog 0x08 v 0 0).orBits RCV_STAT.VRET (2 ^ v)).degrade

/-- The slice a code names, 3 if none. -/
def vcSlice : VCode → Nat
  | .odd k => k
  | _ => 3

/-- A resynchronisation is requested for an odd slice, which it retires if `out`; a retirement already decided stays (R197, R199). -/
def State.askResync (s : State) (x : Nat) (out : Bool) : State :=
  let old := s.rcv.resync.getD ⟨none, 0⟩
  { s with rcv.resync := some ⟨if old.out.isSome then old.out else if out then some x else none, Nat.lor old.odd (2 ^ x)⟩ }

/-- A single-slice mismatch of slice x (R199): its time is recorded; transient, or lasting and retired. -/
def State.sliceMismatch (s : State) (x : Nat) (act : Bool) : State :=
  let last := s.rcv.sliceAt.find? (fun p => p.1 == x)
  let lasting := match last with | some p => decide (s.now ≤ p.2 + window10) | none => false
  let s := { s with rcv.sliceAt := (x, s.now) :: s.rcv.sliceAt.filter (fun p => p.1 != x) }
  let s := s.rcLog 0x01 x (b2n lasting) 0
  s.when act (fun t => t.askResync x lasting)

/-- Has a voter had an odd-voter event in the last 10 s (R201)? -/
def State.oddLately (s : State) (v : Nat) : Bool := s.rcv.voterAt.any (fun p => p.1 == v && decide (s.now ≤ p.2 + window10))

/-- An odd voter: its event is recorded and logged (R201). -/
def State.oddVoter (s : State) (v : Nat) (c : VCode) : State :=
  ({ s with rcv.voterAt := (v, s.now) :: s.rcv.voterAt.filter (fun p => p.1 != v) }).rcLog 0x06 v (vcSlice c) 0

/-- Is a voter left out of the present tc: retired, or under test (R201, R202)? -/
def State.voterOut (s : State) (v : Nat) : Bool := bitb (s.rd RCV_STAT.VRET) v || s.rcv.vtesting == some (v, s.now)

/-- VOTER_DISAGREEMENT (R196): the codes of the voters that take part are read; an exit-voter alarm is a core reset. What it
cancels is still logged, the entries of one tc in ascending order of CODE (R213, R214). In a resynchronisation pause no output is
voted (R197). -/
def execVoterDisagreement (v0 v1 v2 : VCode) (alarm : Bool) (s : State) : Res := s.whileLive fun s =>
  if s.isOn RCV_STAT.LOCKSTEP_BROKEN || s.rcv.paused.isSome then next s
  else
    let all : List (Nat × VCode) := [(0, v0), (1, v1), (2, v2)]
    let vs := all.filter (fun p => !s.voterOut p.1)
    let same := vs.all (fun a => vs.all (fun b => a.2 == b.2))
    let code := (vs.map (·.2)).headD .agree
    if same then
      (match code with
      | .agree => next (if alarm then s.rcCore 3 else s)
      | .odd x =>
        if s.isOn RCV_STAT.DUPLEX then next (s.rcCore (if alarm then 3 else 1))
        else
          let t := s.sliceMismatch x (!alarm)
          next (if alarm then t.rcCore 3 else t)
      | .threeWay => next (s.rcCore (if alarm then 3 else if s.isOn RCV_STAT.DUPLEX then 1 else 2)))
    else if vs.length = 2 then next (s.rcCore 3)
    else
      let odd := vs.filter (fun a => (vs.filter (fun b => b.2 == a.2)).length == 1)
      let t := if alarm then s.rcCore 3 else s
      let t := odd.foldl (fun t p => t.oddVoter p.1 p.2) t
      next (if alarm then t else odd.foldl (fun t p => t.when (s.oddLately p.1) (fun u => u.retireVoter p.1)) t)

/-- The source slice of a resynchronisation, and the debug slice (R197, R203): the lowest-lettered slice in service of those not in
a mask. -/
def State.sourceSlice (s : State) (odd : Nat) : Nat :=
  ((upto 3).find? (fun k => !bitb (s.rd RCV_STAT.SRET) k && !bitb odd k)).getD 0

/-- RESYNCHRONISATION (R197): the slices stop; the copy and its read-backs, and the tests of the voters. A halted Trifle comes
to none before RESUME (R203, R469; log entry 22). -/
def execResynchronisation (check : CopyCheck) (s : State) : Res := s.whileLive fun s =>
  match s.rcv.resync with
  | none => next s
  | some q =>
    if s.rcv.paused.isSome || s.isOn DBG_STAT.HALTED then next s
    else if check.failed.val = 2 then next (s.rcCore 5)
    else
      let base := if q.out.isSome || s.isOn RCV_STAT.DUPLEX then 1042 else 1043
      next { s.on RCV_STAT.RESYNC with
        rcv.paused := some ⟨s.time, base + 1024 * check.failed.val, 1 + check.failed.val, check.tests.toNat⟩ }

/-- The test of voter i / 3 on slice i % 3 fails at its tc of a pause, one after the other (R197, R201; log entry 22). -/
def State.pauseTest (s : State) (p : PauseS) (i : Nat) : State :=
  if !bitb p.fails i || bitb (s.rd RCV_STAT.VRET) (i / 3) then s
  else ((s.until (p.start + 16 * (8 + 1024 * p.copies + i))).rcLog 0x07 (i / 3) (i % 3) 0).retireVoter (i / 3)

/-- RESYNC_RESTART (R197, R199): the slices issue again; a slice left out is retired, and LOCKSTEP_BROKEN clears (R203). The
pause's tc of Trifle's clock differ from as many nanoseconds by a free value (R7). -/
def execResyncRestart (s : State) : Res := s.whileLive fun s =>
  match s.rcv.resync, s.rcv.paused with
  | some q, some p =>
    let s := (upto 9).foldl (fun t i => t.pauseTest p i) s
    let (k, s) := s.drift (16 * p.tc)
    let s := s.until (p.start + 16 * p.tc + (k - s.tri.skew)).toNat
    let s := { s with rcv.resync := none, rcv.paused := none }
    let s := s.rcLog 0x02 (s.sourceSlice q.odd) p.tc p.copies
    let s := match q.out with
      | some x => (((s.rcLog 0x03 x 0 0).orBits RCV_STAT.SRET (2 ^ x)).on RCV_STAT.DUPLEX).degrade
      | none => s
    next (((s.off RCV_STAT.RESYNC).off RCV_STAT.LOCKSTEP_BROKEN).bump RCV_RESYNC_CNT.COUNT).waitCheck
  | _, _ => next s

/-- VOTER_SELF_TEST (R202): test k at the next whole second k that has had none, or the one put off by a real disagreement, which
falls in the same tc and leaves the tested voter out there. -/
def execVoterSelfTest (disturbed pass : Bool) (s : State) : Res := s.whileLive fun s =>
  if !s.isOn RCV_CTL.VTEST_EN || s.isOn RCV_STAT.LOCKSTEP_BROKEN then next s
  else
    let k := match s.rcv.vtestAt with | some x => x.1 | none => max (s.rcv.vtests + 1) ((s.now + 999999999) / 1000000000)
    let t := match s.rcv.vtestAt with | some x => x.2 | none => k * 1000000000
    let v := k % 3
    let s := { s.until (16 * t) with rcv.vtestAt := none, rcv.vtests := k }
    if bitb (s.rd RCV_STAT.VRET) v then next s
    else if disturbed then next { s with rcv.vtestAt := some (k, t + 1024), rcv.vtesting := some (v, s.now) }
    else
      let s := s.bump RCV_VTEST_CNT.COUNT
      next (if pass then s else (s.rcLog 0x07 v (k / 3 % 3) 0).retireVoter v)

/-! Strands (R204 to R208). -/

def State.strand (s : State) (k : Nat) : StrandS := if k = 0 then s.rcv.strandA else if k = 1 then s.rcv.strandB else s.rcv.strandC

/-- RCV_RIB_x.PEND and RCV_STAT.LTEST show what is decided and what runs (R216). -/
def State.putStrand (s : State) (k : Nat) (st : StrandS) : State :=
  let s := if k = 0 then { s with rcv.strandA := st } else if k = 1 then { s with rcv.strandB := st }
    else { s with rcv.strandC := st }
  let waits := st.retire.isSome || st.subs != [] || (match st.test with | some t => !t.running | none => false)
  let runs := match st.test with | some t => t.running | none => false
  let s := s.put (RCV_RIB.PEND k) waits
  s.wr RCV_STAT.LTEST (setBits (s.rd RCV_STAT.LTEST) k k (b2n runs))

/-- Is round m at most 1,000 before round n? -/
def recentRound (m : Option Nat) (n : Nat) : Bool := match m with | some m => decide (n ≤ m + 1000) | none => false

/-- One mismatch of strand k in round n (R204). -/
def State.judge (s : State) (n k : Nat) : State :=
  let st := s.strand k
  let s := s.bump (RCV_RIB.MMCNT k)
  let st' := { st with lastMm := some n }
  if bitb s.retired k || st.retire.isSome then s.putStrand k st'
  else if recentRound st.passed n then s.putStrand k { st' with retire := some 2 }
  else if st.test.isSome then s.putStrand k st'
  else if recentRound st.lastMm n then s.putStrand k { st' with test := some ⟨false, 0, [], false⟩ }
  else s.putStrand k st'

/-- MISMATCH_EVENT (R204): the oldest event that waits. -/
def execMismatchEvent (s : State) : Res := s.whileLive fun s =>
  match s.rcv.mm with
  | [] => next s
  | e :: rest =>
    let s := { s with rcv.mm := rest }
    let ks := strandList e.strands
    let s := if e.retry then s.rcLog 0x15 3 e.chain e.round
      else if e.pair then s.rcLog 0x10 3 e.chain e.round
      else ks.foldl (fun t k => t.rcLog 0x10 k e.chain e.round) s
    next (ks.foldl (fun t k => t.judge e.round k) s)

/-- The byte of RIB_LANEMAP for a spare: in service 0x80 + the logical lane (R126, R206). -/
def State.spareByte (s : State) (k i : Nat) : Nat := bits (s.rdReg (RIB_LANEMAP.addr k)) (8 * i + 7) (8 * i)

/-- The physical lanes found failing that serve a logical lane: (physical, logical) (R206). -/
def State.failingLanes (s : State) (k : Nat) (lanes : List Nat) : List (Nat × Nat) :=
  lanes.filterMap (fun p =>
    if 64 ≤ p then (if bitb (s.spareByte k (p - 64)) 7 then some (p, s.spareByte k (p - 64) % 64) else none)
    else if (upto 4).any (fun i => bitb (s.spareByte k i) 7 && s.spareByte k i % 64 == p) then none
    else some (p, p))

/-- The end of a lane test of strand k in the present round (R205 to R207). -/
def State.testEnd (s : State) (k : Nat) (t : LaneTest) : State :=
  let st := { s.strand k with test := none }
  let n := s.roundNo
  if t.shared then (s.rcLog 0x11 k 3 n).putStrand k { st with retire := some 0, passed := none }
  else if t.lanes = [] then (s.rcLog 0x11 k 1 n).putStrand k { st with passed := some n }
  else
    let s := s.rcLog 0x11 k 2 n
    let s := t.lanes.foldl (fun u p => u.rcLog 0x12 k p 0) s
    let s := s.orBits (RCV_RIB.SPBAD k) ((t.lanes.filter (fun p => decide (64 ≤ p))).foldl (fun m p => Nat.lor m (2 ^ (p - 64))) 0)
    let need := s.failingLanes k t.lanes
    let spares := (upto 4).filter (fun i => !bitb (s.spareByte k i) 7 && !bitb (s.rd (RCV_RIB.SPBAD k)) i)
    if spares.length < need.length then s.putStrand k { st with retire := some 1, passed := none }
    else s.putStrand k { st with subs := spares.zip (need.map (·.2)), passed := none }

/-- Does a hard chain hold strand k? -/
def State.hardHolds (s : State) (k : Nat) : Bool := s.rib.runs.any (fun r => r.holds && !r.soft && bitb r.strands k)

/-- TEST_STEP (R205): one step of a running lane test, in an OPEN rc in which no hard chain holds the strand. -/
def execTestStep (strand : Fin 3) (found : LaneFinding) (s : State) : Res := s.whileLive fun s =>
  let k := strand.val
  match (s.strand k).test with
  | none => next s
  | some t =>
    if !t.running || s.phaseKind != 1 || s.hardHolds k then next s
    else
      let t := match found with
        | .none => t
        | .lanes l => { t with lanes := ((upto 68).filter (fun p => t.lanes.elem p || l.any (fun (x : Fin 68) => x.val == p))) }
        | .shared => { t with shared := true }
      let t := { t with steps := t.steps + 1 }
      let s := s.pass rc16
      next (if t.steps < 4096 then s.putStrand k { s.strand k with test := some t } else s.testEnd k t)

/-- W takes the value of the round length in force (R210). -/
def State.setWatch (s : State) : State := s.wr AOW_WLIM.W ((5 * (s.roundLen / 16) + 999) / 1000)

/-- A spare takes a logical lane of strand k, and a spare that served it before leaves service (R206). -/
def State.putSpare (s : State) (k spare lane : Nat) : State :=
  let v := (upto 4).foldl (fun v i =>
    if i = spare then setBits v (8 * i + 7) (8 * i) (0x80 + lane)
    else if bitb (s.spareByte k i) 7 && s.spareByte k i % 64 == lane then setBits v (8 * i + 7) (8 * i) 0
    else v) (s.rdReg (RIB_LANEMAP.addr k))
  s.wrReg (RIB_LANEMAP.addr k) v

/-- What the Recovery Controller does at the boundary that starts round n (R204 to R207, R210, R213): due tests start,
decided substitutions take effect on strands that hold no chain, decided retirements take effect, it checks in. -/
def State.rcBoundary (s : State) (n : Nat) : State :=
  let s := { s.setWatch.wr AOW_CNT.CNT 0 with icu.checkIn := s.refNow }
  if s.rcv.held && s.schIs schStopped then s
  else
    let s := { s with rcv.held := false }
    let s := (upto 3).foldl (fun t k =>
      match (t.strand k).test with
      | some x => if x.running then t else (t.rcLog 0x11 k 0 n).putStrand k { t.strand k with test := some ⟨true, 0, [], false⟩ }
      | none => t) s
    let s := (upto 3).foldl (fun t k =>
      if (t.strand k).subs != [] && !bitb t.heldStrands k then
        let u := (t.strand k).subs.foldl (fun u p => (u.rcLog 0x13 k (p.2 + p.1 * 2 ^ 8) n).putSpare k p.1 p.2) t
        (u.putStrand k { u.strand k with subs := [] }).degrade
      else t) s
    (upto 3).foldl (fun t k =>
      match (t.strand k).retire with
      | some why =>
        (((t.rcLog 0x14 k why n).orBits RIB_STAT.RETIRED (2 ^ k)).putStrand k
          { t.strand k with retire := none, subs := [], test := none }).degrade
      | none => t) s

/-- RC_UPSET (R209): the machines whose parity fails are outvoted; without a majority a warm reset follows. -/
def execRcUpset (machines : BitVec 3) (s : State) : Res := s.whileLive fun s =>
  let s := (strandList machines.toNat).foldl (fun t k => t.rcLog 0x30 k 0 0) s
  next (if 2 ≤ popcount 3 machines.toNat then s.callReset 2 6 else s)

/-- WATCHER_EXPIRY (R210, R211): W ticks without a check-in, in Run and not under Frost. -/
def execWatcherExpiry (s : State) : Res :=
  if s.pwr.state != .run || s.isOn DBG_STAT.FROST then next s
  else
    let s := s.fabUntil (16 * (s.icu.checkIn + 1000 * s.rd AOW_WLIM.W))
    next (({ s.wr AOW_CNT.CNT (s.rd AOW_WLIM.W) with rcv.wdt := true }).callReset 2 4)

/-- RESYNC (R203): accepted only while LOCKSTEP_BROKEN is 1; the debug slice is the source, unless a retirement already decided
leaves it out. -/
def execResync (s : State) : Res :=
  if s.isOn RCV_STAT.LOCKSTEP_BROKEN then
    next { s with rcv.resync := some ⟨match s.rcv.resync with | some q => q.out | none => none, 0⟩ }
  else next s

/-- LTEST (R216). -/
def execLtest (strand : Fin 3) (s : State) : Res :=
  let k := strand.val
  let st := s.strand k
  if bitb s.retired k || s.isOn (RCV_RIB.PEND k) || st.test.isSome then next s
  else next (s.putStrand k { st with test := some ⟨false, 0, [], false⟩ })

/-- CLRHIST (R216). -/
def execClrhist (s : State) : Res :=
  let s := { s with rcv.sliceAt := [], rcv.voterAt := [] }
  next ((upto 3).foldl (fun t k => t.putStrand k { t.strand k with lastMm := none, passed := none }) s)

/-- What a warm reset does to the controller (R209, R213): decided actions wait, a test in progress starts again. -/
def State.rcWarm (s : State) : State :=
  let s := { s.endResync with rcv.held := true }
  (upto 3).foldl (fun t k =>
    let st := t.strand k
    t.putStrand k { st with test := st.test.map (fun _ => ⟨false, 0, [], false⟩) }) s

/-- The Recovery Controller's machines restart after a reset: a Watcher reset is logged, with the chain time now (R214). -/
def State.rcRestart (s : State) : State :=
  if s.rcv.wdt then { s.rcLog 0x31 0 0 0 with rcv.wdt := false } else s

end Sys2Proof.Machine
end

