-- ==== Sys2Proof/Machine/Movers.lean ====
section
/-! DEFINITION. Machine/Movers.lean: the stream movers (R390 to R392). -/

namespace Sys2Proof.Machine

/-- Doubleword i of descriptor d in the descriptor table (R390). -/
def State.mvDw (s : State) (d i : Nat) : Nat := s.rd (MV_DESC.DESC d (2 * i)) + s.rd (MV_DESC.DESC d (2 * i + 1)) * 2 ^ 32

def mvSrc (ds : List Nat) : Nat := bits (nth ds 0) 39 0
def mvDst (ds : List Nat) : Nat := bits (nth ds 1) 39 0
def mvRowLen (ds : List Nat) : Nat := bits (nth ds 2) 23 0
def mvRows (ds : List Nat) : Nat := bits (nth ds 2) 39 24
def mvStride (ds : List Nat) (dst : Bool) : Int := asInt (if dst then bits (nth ds 3) 63 32 else bits (nth ds 3) 31 0) 32

/-- The address of byte 0 of row r of a side. -/
def mvRowAt (ds : List Nat) (dst : Bool) (r : Nat) : Int :=
  ((if dst then mvDst ds else mvSrc ds : Nat) : Int) + mvStride ds dst * r

/-- The lowest byte of a side and the byte after its highest: strides are monotonic, so the end rows decide. -/
def mvSpan (ds : List Nat) (dst : Bool) : Int × Int :=
  let a := mvRowAt ds dst 0
  let b := mvRowAt ds dst (mvRows ds - 1)
  (min a b, max a b + mvRowLen ds)

/-- The windows a side may lie in (R390): the Lattice, Bulk, the Schedule Store. -/
def mvWindows : List (Nat × Nat) :=
  [(latMatrixBase, 0x106000000), (bulkBase, bulkSpareBase), (sstoreBase, sstoreBase + 0x400000)]

/-- Does a descriptor obey R390? -/
def mvDescOk (ds : List Nat) : Bool :=
  bits (nth ds 0) 63 50 == 0 && bits (nth ds 1) 63 50 == 0 && bits (nth ds 2) 63 41 == 0 && bitb (nth ds 2) 40 &&
  decide (64 ≤ mvRowLen ds) && decide (1 ≤ mvRows ds) && mvRowLen ds % 64 == 0 && mvSrc ds % 64 == 0 && mvDst ds % 64 == 0 &&
  nth ds 3 % 64 == 0 && nth ds 3 / 2 ^ 32 % 64 == 0 &&
  [false, true].all (fun side =>
    let (lo, hi) := mvSpan ds side
    mvWindows.any (fun w => decide ((w.1 : Int) ≤ lo) && decide (hi ≤ (w.2 : Int))))

/-- The capability check of a side (R279, R391): the CAUSE of the first failure. -/
def State.mvCap (s : State) (ds : List Nat) (dst : Bool) : Option Nat :=
  let c := s.cctEntry (bits (nth ds (b2n dst)) 49 40)
  let (lo, hi) := mvSpan ds dst
  match c.deviceCheck s.tri.eprUsed 0 (if dst then permW else permR) lo.toNat (hi - lo).toNat with
  | some 5 => some 1
  | some 8 => some 4
  | some 7 => some 3
  | some _ => some 2
  | none => none

/-- A transfer ends early: CAUSE and the first byte not written (R391, R392). -/
def State.mvFail (s : State) (n cause addr : Nat) : State :=
  let s := { s with mv.runs := s.mv.runs.filter (fun r => r.mover != n) }
  (((s.off (MV_STAT.BUSY n)).on (MV_STAT.ERR n)).wr (MV_STAT.CAUSE n) cause).wr2 (MV_ERRADDR_LO.ADDR_LO n)
    (MV_ERRADDR_HI.ADDR_HI n) addr

/-- The start of a mover that is not busy (R391): the descriptor, then the source's and the destination's capability. A
start clears DONE and ERR of the last transfer (log entry 27). -/
def State.mvStart (s : State) (n d : Nat) (byMove : Bool) : State :=
  let ds := (upto 4).map (s.mvDw d)
  let s := ((s.wr (MV_STAT.DESC n) d).off (MV_STAT.DONE n)).off (MV_STAT.ERR n)
  if !mvDescOk ds then s.mvFail n 7 (mvDst ds)
  else match s.mvCap ds false with
  | some c => s.mvFail n c (mvDst ds)
  | none => match s.mvCap ds true with
    | some c => s.mvFail n c (mvDst ds)
    | none => ({ s with mv.runs := s.mv.runs ++ [(⟨n, ds, byMove, s.time⟩ : MvRun)] }).on (MV_STAT.BUSY n)

/-- The 64 B blocks of a transfer, rows in order and each row ascending (R391): (source, destination). -/
def mvBlocks (ds : List Nat) : List (Nat × Nat) :=
  (upto (mvRows ds)).flatMap (fun r => (upto (mvRowLen ds / 64)).map (fun i =>
    ((mvRowAt ds false r).toNat + 64 * i, (mvRowAt ds true r).toNat + 64 * i)))

/-- Chain time in the next phase reserved to mover n, if the active table has one (R57). -/
def State.mvPhase (s : State) (n : Nat) : Option State := s.untilPhase (fun k => mayIssue k 3 (0x20 + n))

/-- Is a side of a transfer in the Lattice, and no phase reserved to the mover (R57)? Then no block can move. -/
def State.mvBlocked (s : State) (n : Nat) (ds : List Nat) : Bool :=
  (s.mvPhase n).isNone && [mvSrc ds, mvDst ds].any (fun a => match s.region a with | .lattice _ => true | _ => false)

/-- A read of one block by mover n: the CAUSE of a failure, or the bytes (R391, R392). -/
def State.mvRead (s : State) (n a : Nat) : Except Nat (List Byte) × State :=
  match s.region a with
  | .lattice off =>
    let (bs, ok, t) := ((s.mvPhase n).getD s).latReadBytes (0x20 + n) off 64
    (if ok then .ok bs else .error 5, t)
  | _ =>
    match s.dataRead (2 + n) a 64 with
    | (some bs, t) => (.ok bs, t)
    | (none, t) =>
      let ecc := (s.eccRead (match s.region a with | .bulk _ => s.bulkAt a | _ => a) 64).2.any GEv.ue
      (.error (if ecc then 5 else 6), t.busErr)

/-- A write of one block by mover n. -/
def State.mvWrite (s : State) (n a : Nat) (bs : List Byte) : Bool × State :=
  match s.region a with
  | .lattice off => ((s.mvPhase n).getD s).latWriteBytes (0x20 + n) 3 off bs
  | _ =>
    match s.dataWrite (2 + n) a bs with
    | (true, t) => (true, t)
    | (false, t) => (false, t.busErr)

/-- Move blocks; an error ends the transfer (R392). The second part is true when every block given has been written. -/
def State.mvMove (s : State) (n : Nat) : List (Nat × Nat) → State × Bool
  | [] => (s, true)
  | (a, b) :: rest =>
    match s.mvRead n a with
    | (.error c, t) => (t.mvFail n c b, false)
    | (.ok bs, t) =>
      match t.mvWrite n b bs with
      | (false, u) => (u.mvFail n 6 b, false)
      | (true, u) => (u.gain (MV_BYTES.COUNT n) 64).mvMove n rest

/-- The running transfer of a mover. -/
def State.mvRun (s : State) (n : Nat) : Option MvRun := s.mv.runs.find? (fun r => r.mover == n)

/-- MOVER_COMPLETE (R391, R392): the blocks are moved and DONE is set, or the transfer ends at its first error. -/
def execMoverComplete (n : Fin 8) (s : State) : Res := s.whileLive fun s =>
  match s.mvRun n with
  | none => next s
  | some r =>
    if (!r.byMove && s.frozen 3) || s.mvBlocked n r.desc then next s else
    let (t, ok) := s.mvMove n (mvBlocks r.desc)
    if ok then
      next ((({ t with mv.runs := t.mv.runs.filter (fun x => x.mover != n.val) }).off (MV_STAT.BUSY n)).on (MV_STAT.DONE n))
    else next t

/-- A STOP after some blocks have completed (R392). -/
def State.mvStop (s : State) (n done : Nat) : State :=
  match s.mvRun n with
  | none => s
  | some r =>
    let bs := mvBlocks r.desc
    let k := if s.mvBlocked n r.desc then 0 else min done (bs.length - 1)
    let (t, ok) := s.mvMove n (bs.take k)
    if ok then t.mvFail n 8 (((bs.drop k).map (·.2)).headD 0) else t

/-- A mover that MOVE started in a round that ends while it is BUSY sets LATE (R391). -/
def State.mvBoundary (s : State) (lastBoundary : Nat) : State :=
  s.mv.runs.foldl (fun t r => if r.byMove ∧ lastBoundary ≤ r.start then t.on (MV_STAT.LATE r.mover) else t) s

end Sys2Proof.Machine
end

