-- ==== Sys2Proof/Machine/Schedule.lean ====
section
/-! DEFINITION. Machine/Schedule.lean: the schedule sequencer: states, check pass, issue (R153 to R166), soft slots (R173
to R178), retry reserve (R179, R180), breaches and overruns (R181, R182), swap (R183 to R186). -/

namespace Sys2Proof.Machine

/-! The check pass (R166). -/

/-- The bits a schedule instruction names (R164, R165). -/
def opMask (w : Nat) : Option Nat :=
  let range := fun hi lo => 2 ^ (hi + 1) - 2 ^ lo
  match w / 2 ^ 58 with
  | 1 => some 0
  | 2 => some (range 20 0)
  | 3 => some (range 14 0)
  | 4 => some (range 37 0)
  | 5 => some (range 20 0)
  | 6 => some (range 36 16 + range 14 0)
  | 7 => some (range 11 4 + range 2 0)
  | 8 => some (range 1 0)
  | 9 => some (range 5 0)
  | 10 => some (range 51 50 + (match bits w 51 50 with
      | 0 => range 49 18 + range 5 0
      | 1 => 0
      | _ => range 17 8))
  | 11 => some (range 30 19 + range 18 4 + range 3 0)
  | 12 => some 0
  | _ => none

/-- The CODE of the first rule a program word breaks, 0 for none (R166). -/
def progCode (rl plen index w : Nat) : Nat :=
  let len := 200 * rl
  match opMask w with
  | none => 3
  | some m =>
    if Nat.lor (w % 2 ^ 58) m != m then 3
    else match w / 2 ^ 58 with
    | 2 => if len ≤ bits w 20 0 then 4 else 0
    | 3 => if bits w 14 12 = 0 then 5 else 0
    | 4 => if len < bits w 20 0 then 4 else if bits w 23 21 = 0 then 5 else 0
    | 5 => if len < bits w 20 0 then 4 else 0
    | 6 =>
      if len ≤ bits w 36 16 then 4
      else if bits w 12 6 = 0 ∨ 64 < bits w 12 6 ∨ 64 < bits w 5 0 + bits w 12 6 ∨ bits w 14 13 = 0 then 5 else 0
    | 11 =>
      if bits w 3 0 = 0 ∨ 2 ^ bits w 3 0 ≤ bits w 18 4 ∨ bits w 30 19 = 0 ∨ plen ≤ index + bits w 30 19 then 5 else 0
    | _ => 0

/-- Is a soft-list entry valid (R173)? -/
def entryOk (w : Nat) : Bool :=
  let kind := entryKind w
  if kind = 0 then w == 0
  else
    decide (kind ≤ 3) && bits w 63 56 == 0 && bits w 19 18 == 0 &&
    (if kind = kindPeriodic then
        decide (1 ≤ entryPeriod w) && decide (entryOffset w < entryPeriod w) && bits w 39 36 == 0
      else entryPeriod w == 0) &&
    (kind != kindSoftware || bits w 39 20 == 0) &&
    (!entryRearm w || kind == kindQueue) && (!entryArmInit w || kind != kindPeriodic)

/-- The CODE of word k of a buffer, 0 when it passes. -/
def State.wordCode (s : State) (buf k rl plen : Nat) : Nat :=
  let (w, y) := s.schWord buf k
  if eccClass y = .uncorrectable then 7
  else if k = 0 then
    (if rl < 80 ∨ 8000 < rl ∨ bits w 63 50 ≠ 0 ∨ bits w 31 13 ≠ 0 then 1 else if plen = 0 ∨ 261112 < plen then 2 else 0)
  else if k < 8 then (if w = 0 then 0 else 1)
  else if k < 1032 then (if entryOk w then 0 else 6)
  else progCode rl plen (k - 1032) w

/-- The first failure among n words from k: (word, CODE). -/
def State.checkFrom (s : State) (buf rl plen : Nat) : Nat → Nat → Option (Nat × Nat)
  | 0, _ => none
  | n + 1, k =>
    match s.wordCode buf k rl plen with
    | 0 => s.checkFrom buf rl plen n (k + 1)
    | c => some (k, c)

/-- RL and PLEN as H0 of a buffer gives them (R162). -/
def State.headRl (s : State) (buf : Nat) : Nat := bits (s.schWord buf 0).1 12 0
def State.headPlen (s : State) (buf : Nat) : Nat := bits (s.schWord buf 0).1 49 32

/-- A check pass of a buffer (R166): whether it succeeds; the time it takes, and the log of a failure. -/
def State.checkPass (s : State) (buf : Nat) : Bool × State :=
  let rl := s.headRl buf
  let plen := s.headPlen buf
  match s.checkFrom buf rl plen (1032 + plen) 0 with
  | none => (true, s.pass (rc16 * (1032 + plen)))
  | some (k, c) =>
    let s := s.pass (rc16 * (k + 1))
    (false, if s.isOn SCH_CHECK_INFO.VALID then s
      else s.wrReg SCH_CHECK_INFO.addr (k + c * 2 ^ 24 + buf * 2 ^ 30 + 2 ^ 31))

/-! Soft chains and entries. -/

/-- The fault decisions known at the first beat not finished. -/
def RibRun.frontDecs (r : RibRun) : List RibDec :=
  match r.beats with
  | b :: _ => b.decs
  | [] => if r.phase = .running then r.decs ++ r.readDecs else []

/-- A soft chain stops at a slot end (R177): before e0 with no write-back; otherwise preempted, unless a fault stops it at the
same beat (R122). Its strands are free now. -/
def State.softStop (s : State) (r : RibRun) : State :=
  match r.phase with
  | .launched =>
    let s := s.dropRun r.chain
    (match r.entry with | some e => s.softStopped e 3 | none => s)
  | .stopping => s.releaseRun r
  | _ =>
    let (s, r) := match verdict r.strands r.frontDecs with
      | .stop .. => let (s, r, _) := s.takeVerdict r r.frontDecs; (s, r)
      | _ => (s, r.stopBefore r.done 3 0 0)
    (s.putRun r).releaseRun r

/-- The soft chains that hold strands of a mask. -/
def State.softRuns (s : State) (strands : Nat) : List RibRun :=
  s.rib.runs.filter (fun r => r.soft && r.holds && Nat.land r.strands strands != 0)

/-- Every soft chain on the strands of a mask stops. -/
def State.softStopAll (s : State) (strands : Nat) : State :=
  ((s.softRuns strands).foldl State.softStop s).flushHeld

/-- The entries of a schedule that becomes active (R178). -/
def State.softStart (s : State) : State :=
  let s := { s with sch.soft := [], sch.cancels := [], sch.retryNext := [], que.asks := [], que.answers := [] }
  (upto 1024).foldl (fun t e => if entryArmInit (t.softEntry e) then t.softArm e else t) s

/-- A cancel (R174, R178): a RUNNING entry's chain is asked to preempt and stops after its beat-taps in flight. -/
def State.softCancel (s : State) (e : Nat) : State :=
  if s.softState e = softRunning then
    let s := { s with sch.cancels := if s.sch.cancels.elem e then s.sch.cancels else e :: s.sch.cancels }
    match s.rib.runs.find? (fun r => r.entry == some e && r.holds) with
    | some r =>
      (match r.phase with
      | .launched => s.softStop r
      | .table => s.putRun (r.stopBefore r.done 3 0 0)
      | .stopping => s
      | .running => s.settle r.askPreempt)
    | none => s
  else (s.queUnask e).softPut e softIdle

/-! Swap (R183 to R186). -/

/-- A pending swap ends with an error (R184 to R186). -/
def State.swapEnd (s : State) (ecode : Nat) : State :=
  { ((s.off SCH_SWAP_STAT.PEND).on SCH_SWAP_STAT.ERR).wr SCH_SWAP_STAT.ECODE ecode with sch.swap := none }

/-- Is a swap to take place at a boundary at chain time t (sixteenths) (R184)? -/
def State.swapDue (s : State) (t : Nat) : Bool :=
  match s.sch.swap with
  | some w => decide (2 ≤ w.stage) && decide (16 * w.t ≤ t)
  | none => false

/-- Step 4 of R184, in one rc: what the old schedule's runs leave concerns none of the new schedule's entries (R178); the core
reset is one that the Recovery Controller applies. -/
def State.swapNow (s : State) (w : SwapS) : State :=
  let s := { s with sch.swap := none }
  let s := if w.sched then
      let s := (s.softStopAll 7).wr SCH_STAT.ACT (1 - s.rd SCH_STAT.ACT)
      let s := { s with
        sch.slots := []
        sch.plen := s.headPlen (s.rd SCH_STAT.ACT)
        rib.runs := s.rib.runs.map (fun (r : RibRun) => { r with entry := none }) }
      (((s.on SCH_STAT.ACTV).wr SCH_STAT.RL (s.headRl (s.rd SCH_STAT.ACT))).setWatch).softStart
    else s
  let s := if w.fw then ((s.callReset 1 8).bump RCV_CORERST_CNT.COUNT).on SCH_SWAP_STAT.FWSWAP else s
  (s.off SCH_SWAP_STAT.PEND).on SCH_SWAP_STAT.DONE

/-- Step 3 of R184: COMMIT for the capability table. -/
def State.swapCommit (s : State) (w : SwapS) : State :=
  if w.cct && (s.isOn RIB_CCT_CTL.BUSY || !s.rib.loaded) then s.swapEnd 3
  else
    let s := s.when w.cct State.ribCommit
    { s with sch.swap := some { w with stage := 3 } }

/-- SWAP_REQUEST (R184, R185): SCH_SWAP_CTL with GO; the firmware image is checked at once. -/
def execSwapRequest (sched cct fw : Bool) (s : State) : Res :=
  if s.isOn SCH_SWAP_STAT.PEND then next s
  else
    let s := ((s.put SCH_SWAP_CTL.SCHED sched).put SCH_SWAP_CTL.CCT cct).put SCH_SWAP_CTL.FW fw
    let base := s.rd SCH_FW_BASE_LO.ADDR_LO * 4096 + s.rd SCH_FW_BASE_HI.ADDR_HI * 2 ^ 32
    let len := s.rd SCH_FW_LEN.LEN
    if fw && !(inBulk base len && decide (len ≤ 0x200000)) then next (s.swapEnd 4)
    else
      next { (s.wr SCH_SWAP_STAT.ECODE 0).on SCH_SWAP_STAT.PEND with sch.swap := some ⟨1, 0, sched, cct, fw⟩ }

/-- ABORT (R185). -/
def execAbort (s : State) : Res :=
  match s.sch.swap with
  | some w => next (if w.stage < 3 then s.swapEnd 5 else s)
  | none => next s

/-- SWAP_CHECK (R184): steps 1 and 2. -/
def execSwapCheck (s : State) : Res := s.whileLive fun s =>
  match s.sch.swap with
  | none => next s
  | some w =>
    if w.stage ≠ 1 then next s
    else
      let idle := 1 - s.rd SCH_STAT.ACT
      let (ok, s) := if w.sched then s.checkPass idle else (true, s)
      if !ok then next (s.swapEnd 1)
      else
        let cur := s.roundLen / 16  -- rounds are whole nanoseconds (R153)
        let new := if w.sched then 125 * s.headRl idle else cur
        let at_ := s.rd2 SCH_SWAP_AT_LO.AT SCH_SWAP_AT_HI.AT
        if at_ = 0 then
          if new = cur then next { s with sch.swap := some { w with stage := 2, t := (s.time / s.roundLen + 1) * cur } }
          else next (s.swapEnd 2)
        else if at_ % cur = 0 ∧ at_ % new = 0 ∧ s.time < 16 * at_ then
          next { s with sch.swap := some { w with stage := 2, t := at_ } }
        else next (s.swapEnd 2)

/-- SWAP_COMMIT (R184): step 3, in the rc after the last round boundary before T. -/
def execSwapCommit (s : State) : Res := s.whileLive fun s =>
  match s.sch.swap with
  | none => next s
  | some w =>
    if w.stage = 2 ∧ 16 * w.t ≤ s.sch.roundStart + s.roundLen then next (s.swapCommit w) else next s

/-! Rounds. -/

/-- The PERIODIC entries that fall due in round n (R174). -/
def State.periodic (s : State) (n : Nat) : State :=
  (upto 1024).foldl (fun t e =>
    let w := t.softEntry e
    if entryKind w = kindPeriodic ∧ n % entryPeriod w = entryOffset w then
      (if t.softState e = softIdle then t.softPut e softReady
       else if t.softState e = softArmed then t
       else t.bump SCH_SOFT_OVR.COUNT)
    else t) s

/-- A round starts at the boundary now (R163, R182). -/
def State.startRound (s : State) : State :=
  { (s.wr SCH_STAT.STATE schRunning).wr SCH_PC.PC 0 with
    sch.progStart := s.time, sch.nextRc := s.time, sch.ended := false, sch.held := none }

/-- A pending swap that is due at the boundary now takes place, if the boundary is a whole multiple of the new length; otherwise it
waits for one (R184). -/
def State.swapAt (s : State) : State :=
  match s.sch.swap with
  | some w =>
    if !s.swapDue s.time || (w.sched && s.time % (2000 * s.headRl (1 - s.rd SCH_STAT.ACT)) != 0) then s
    else
      let s := s.swapNow w
      s.wr2 SCH_ROUND_LO.ROUND SCH_ROUND_HI.ROUND (s.time / s.roundLen)
  | none => s

/-- The sequencer at a round boundary (R157, R163, R182, R184): a boundary at which a swap still waits starts no round. -/
def State.schBoundary (s : State) : State :=
  if s.schIs schRunning && !s.sch.ended then ((s.breach 6).bump SCH_SKIP_CNT.COUNT).periodic s.roundNo
  else
    let s := if s.schIs schStopping then
        { s.softStopAll 7 with
          sch.closing := true, sch.ended := true, sch.held := none, sch.slots := [], sch.reserves := [], sch.retryq := [] }
      else s
    let s := s.swapAt
    if s.schIs schStart || s.schIs schRunning then
      (if s.swapDue s.time then s.bump SCH_SKIP_CNT.COUNT else s.startRound).periodic s.roundNo
    else s

/-- Everything that happens at a round boundary at chain time t: the new round number (R153), epoch registers (R278), the
capability table (R114), the Recovery Controller and its check-in, field settings and banks, movers, the sequencer. -/
def State.boundaryAt (s : State) (t : Nat) : State :=
  let prev := s.sch.roundStart
  let s := (s.until t).spareSwitch
  let s := { s with sch.roundStart := s.time, tri.eprUsed := s.tri.epr }
  let n := s.time / s.roundLen
  let s := s.wr2 SCH_ROUND_LO.ROUND SCH_ROUND_HI.ROUND n
  let s := match s.sch.swap with
    | some w => if w.stage = 2 ∧ 16 * w.t ≤ s.time then s.swapCommit w else s
    | none => s
  let s := s.cctSwap
  let s := s.rcBoundary n
  let s := s.fldBoundary
  let s := s.mvBoundary prev
  s.schBoundary.flushHeld

/-- ROUND_BOUNDARY (R153). -/
def execRoundBoundary (s : State) : Res := s.whileLive fun s => next (s.boundaryAt s.nextBoundary)

/-- SWAP (R184): the boundary at which a pending swap takes place. -/
def execSwap (s : State) : Res := s.whileLive fun s =>
  if s.swapDue s.nextBoundary then next (s.boundaryAt s.nextBoundary) else next s

/-- RUN_SET (R157). -/
def execRunSet (s : State) : Res :=
  let t := s.on SCH_CTL.RUN
  next (if s.schIs schStopped then { t.wr SCH_STAT.STATE schCheck with lat.copyHold := none } else t)

/-- RUN_CLEAR (R157): a swap that is pending ends with ABORT, whatever its step (R186). -/
def execRunClear (s : State) : Res :=
  let t := s.off SCH_CTL.RUN
  if s.schIs schStopped || s.schIs schStopping then next t
  else
    let t := if s.schIs schRunning then { t.wr SCH_STAT.STATE schStopping with sch.closing := false }
      else t.wr SCH_STAT.STATE schStopped
    next (t.when t.sch.swap.isSome (fun u => u.swapEnd 5))

/-- CHECK_PASS (R157, R166): the check pass of the active buffer ends. -/
def execCheckPass (s : State) : Res := s.whileLive fun s =>
  if !s.schIs schCheck then next s
  else
    let buf := s.rd SCH_STAT.ACT
    let (ok, t) := s.checkPass buf
    if ok then
      let t := (((t.wr SCH_STAT.STATE schStart).on SCH_STAT.ACTV).wr SCH_STAT.RL (t.headRl buf)).setWatch
      next ({ t with sch.plen := t.headPlen buf, sch.closing := false, sch.roundStart := t.time / t.roundLen * t.roundLen }.softStart)
    else next (((t.wr SCH_STAT.STATE schStopped).off SCH_CTL.RUN).on SCH_STAT.CKERR)

/-- STOPPED_ENTRY (R157): every chain of the schedule has stopped and every write-back has been granted. -/
def execStoppedEntry (s : State) : Res := s.whileLive fun s =>
  if s.schIs schStopping && s.sch.closing && s.rib.runs == [] then next (s.wr SCH_STAT.STATE schStopped) else next s

/-! Issue (R163 to R165). -/

/-- A schedule instruction's word (R164). -/
def schInstr (op fields : Nat) : Nat := op * 2 ^ 58 + fields

/-- The rc in which the next instruction issues: not before it may, and none that has passed (R163). -/
def State.issueRc (s : State) : Nat := max s.sch.nextRc s.rcStart

/-- The instruction at PC issues, if it is the word given: its own effect is `act`, counted from its issue rc (R163 to R165); its
fetch is corrected or is a critical error (R161; log entry 83); the next one issues one rc later. A LAUNCH that is held keeps its
index. -/
def State.issue (s : State) (word : Nat) (act : State → State) : State :=
  let s := s.flushHeld.endOfProgram
  if !(s.schIs schRunning || s.schIs schStopping) || s.sch.ended || s.sch.held.isSome then s
  else
    let buf := s.rd SCH_STAT.ACT
    let pc := s.rd SCH_PC.PC
    let (w, y) := s.schWord buf (1032 + pc)
    if eccClass y = .uncorrectable then (s.until s.issueRc).callReset 2 6
    else if w != word then s
    else
      let s := s.until s.issueRc
      let s := if y = 0 then s else (s.putGran (schWordAt buf (1032 + pc) / 8) w).bump SCH_CE_CNT.COUNT
      let s := act { s with sch.nextRc := s.rcStart + rc16 }
      if s.sch.held.isSome then s else (s.wr SCH_PC.PC (s.rd SCH_PC.PC + 1)).endOfProgram

/-- Is the sequencer at the instruction of a word, or at one that it cannot read (R161)? -/
def State.schAt (s : State) (word : Nat) : Bool :=
  let s := s.flushHeld.endOfProgram
  (s.schIs schRunning || s.schIs schStopping) && !s.sch.ended && s.sch.held.isNone &&
    (let (w, y) := s.schWord (s.rd SCH_STAT.ACT) (1032 + s.rd SCH_PC.PC); eccClass y == .uncorrectable || w == word)

/-- NOP (R165). -/
def execNop (s : State) : Res := s.whileLive fun s => next (s.issue (schInstr 1 0) id)

/-- WAIT (R165). -/
def execWait (cyc : BitVec 21) (s : State) : Res := s.whileLive fun s =>
  next (s.issue (schInstr 2 cyc.toNat) (fun s =>
    let t := s.sch.progStart + rc16 * cyc.toNat
    if t < s.rcStart then s.breach 3 else { s with sch.nextRc := max s.sch.nextRc t }))

/-- LAUNCH (R165, R207): held while a strand it takes is not free. -/
def execLaunch (strands : BitVec 3) (chain : BitVec 12) (s : State) : Res := s.whileLive fun s =>
  next (s.issue (schInstr 3 (strands.toNat * 2 ^ 12 + chain.toNat)) (fun s =>
    let m := (s.hardStrands chain.toNat strands.toNat).getD 0
    if Nat.land m s.heldStrands = 0 then s.issueLaunch strands.toNat chain.toNat
    else { s with sch.held := some (strands.toNat, chain.toNat) }))

/-- SLOT (R165, R175): strands named by an older slot leave it as if it ended here; the new one is open from the next rc. -/
def execSlot (lead : BitVec 10) (list : Fin 16) (strands : BitVec 3) (endRcr : BitVec 21) (s : State) : Res := s.whileLive fun s =>
  next (s.issue (schInstr 4 (lead.toNat * 2 ^ 28 + list.val * 2 ^ 24 + strands.toNat * 2 ^ 21 + endRcr.toNat)) (fun s =>
    let e := s.sch.progStart + rc16 * endRcr.toNat
    let m := strands.toNat
    let taken := s.sch.slots.foldl (fun acc o => acc ||| Nat.land o.strands m) 0
    let s := s.softStopAll taken
    let left := (s.sch.slots.map (fun o => { o with strands := o.strands - Nat.land o.strands m })).filter
      (fun o => o.strands != 0)
    { s with sch.slots := if e ≤ s.rcStart then left else left ++ [⟨list, m, s.rcStart + rc16, e, lead.toNat⟩] }))

/-- RESERVE (R165, R180). -/
def execReserve (endRcr : BitVec 21) (s : State) : Res := s.whileLive fun s =>
  next (s.issue (schInstr 5 endRcr.toNat) (fun s =>
    { s with sch.reserves := s.sch.reserves ++ [(s.rcStart + rc16, s.sch.progStart + rc16 * endRcr.toNat)] }))

/-- EXCH (R165, R172): a block that starts nothing records EXCH_LATE. -/
def execExch (deadline : BitVec 21) (dir : BitVec 2) (count : BitVec 7) (first : Fin 64) (s : State) : Res := s.whileLive fun s =>
  next (s.issue (schInstr 6 (deadline.toNat * 2 ^ 16 + dir.toNat * 2 ^ 13 + count.toNat * 2 ^ 6 + first.val)) (fun s =>
    let before := s.fld.xfers
    let s := (upto (min count.toNat (64 - first))).foldl (fun t i =>
      let (late, u) := t.fldStart (first + i) dir.toNat
      if late then u.breach 4 else u) s
    { s with sch.exch := s.sch.exch ++
      [(s.sch.progStart + rc16 * deadline.toNat, (s.fld.xfers.drop before.length).map (fun x => (x.block, x.start)))] }))

/-- MOVE (R165, R172). -/
def execMove (desc : BitVec 8) (mover : Fin 8) (s : State) : Res := s.whileLive fun s =>
  next (s.issue (schInstr 7 (desc.toNat * 2 ^ 4 + mover.val)) (fun s =>
    if s.isOn (MV_STAT.BUSY mover) then s.breach 5 else s.mvStart mover desc.toNat true))

/-- PTAB (R165). -/
def execPtab (table : Fin 4) (s : State) : Res := s.whileLive fun s =>
  next (s.issue (schInstr 8 table.val) (fun s => { s with lat.ptabSel := some (table, s.rcStart) }))

/-- MARK (R165). -/
def execMark (stamp irq : Bool) (n : Fin 16) (s : State) : Res := s.whileLive fun s =>
  next (s.issue (schInstr 9 (b2n stamp * 2 ^ 5 + b2n irq * 2 ^ 4 + n.val)) (fun s =>
    let t := s.rcStart / 16
    let s := s.wr2 (SCH_MARK_LO.CT n) (SCH_MARK_HI.CT n) t
    let s := if irq then { s with icu.marks := Nat.lor s.icu.marks (2 ^ n.val) } else s
    if stamp then (s.camOffer 2 n t).pulseOffer n t else s))

/-- EVENT_DOORBELL (R165, R317). -/
def execEventDoorbell (bells : BitVec 32) (chan : Fin 64) (s : State) : Res := s.whileLive fun s =>
  next (s.issue (schInstr 10 (bells.toNat * 2 ^ 18 + chan.val)) (fun s => s.mbxRing chan bells.toNat))

/-- Can a sender beside the sequencer send events: the Chain Controller (1), not while it restarts or is paused, the Archive
processor (2), while it runs (R267, R365, R403)? -/
def State.sends (s : State) (sender : Nat) : Bool :=
  s.live &&
    (if sender = 1 then !s.isOn CHN_STAT.CC_RESTART
     else !s.frozen 2 && !s.isOn PWR_DOWN.ARC && decide (1 ≤ s.rd ARC_STAT.STATE) && decide (s.rd ARC_STAT.STATE ≤ 3))

/-- SEND_EVENT (R165, R267): an event to Trifle sets its event register: from the sequencer by the instruction EVENT; where it is
not at that instruction, from the Chain Controller or the Archive processor. -/
def execSendEvent (s : State) : Res := s.whileLive fun s =>
  let w := schInstr 10 (2 ^ 50)
  next (if !s.schAt w && (s.sends 1 || s.sends 2) then s.event else s.issue w State.event)

/-- EVENT_ARM (R165, R176). -/
def execEventArm (list : Fin 16) (entry : Fin 64) (s : State) : Res := s.whileLive fun s =>
  next (s.issue (schInstr 10 (2 * 2 ^ 50 + entry.val * 2 ^ 12 + list.val * 2 ^ 8)) (fun s => s.softArm (64 * list + entry)))

/-- EVENT_CANCEL (R165, R176). -/
def execEventCancel (list : Fin 16) (entry : Fin 64) (s : State) : Res := s.whileLive fun s =>
  next (s.issue (schInstr 10 (3 * 2 ^ 50 + entry.val * 2 ^ 12 + list.val * 2 ^ 8)) (fun s => s.softCancel (64 * list + entry)))

/-- SKIPR (R165): N instructions are skipped when the round number mod 2^K differs from M. -/
def execSkipr (n : BitVec 12) (m : BitVec 15) (k : BitVec 4) (s : State) : Res := s.whileLive fun s =>
  next (s.issue (schInstr 11 (n.toNat * 2 ^ 19 + m.toNat * 2 ^ 4 + k.toNat)) (fun s =>
    if s.roundNo % 2 ^ k.toNat = m.toNat then s else s.wr SCH_PC.PC (s.rd SCH_PC.PC + n.toNat)))

/-- ROUNDEND (R165). -/
def execRoundend (s : State) : Res := s.whileLive fun s => next (s.issue (schInstr 12 0) (fun s => { s with sch.ended := true }))

/-! Soft slots (R175 to R178). -/

/-- The strands a soft launch takes from the free strands of its slot: by binding and STRAND (R91), adapted to retirement
(R207); none when it does not fit, `some 0` when retirement refuses it. -/
def State.softStrands (s : State) (d free : Nat) : Option Nat :=
  let ret := s.retired
  let inService := 7 - Nat.land 7 ret
  let fits := fun m => if Nat.land m free = m then some m else none
  let pairs := [3, 6, 5]
  if dBind d = 0 then
    if dStrand d = 0 then (if free = 0 then none else some (lowStrand free))
    else if bitb ret (dStrand d - 1) then some 0
    else fits (2 ^ (dStrand d - 1))
  else if popcount 3 inService = 3 then
    if dBind d = 2 then fits 7
    else if dStrand d = 0 then [3, 5, 6].find? (fun m => Nat.land m free == m)
    else fits (nth pairs (dStrand d - 1))
  else if popcount 3 inService = 2 then
    if dBind d = 1 ∧ dStrand d ≠ 0 ∧ Nat.land (nth pairs (dStrand d - 1)) ret = 0 then fits (nth pairs (dStrand d - 1))
    else fits inService
  else if inService ≠ 0 ∧ s.isOn RCV_CTL.LASTSTRAND then fits inService
  else some 0

/-- The entry that an open slot launches, its chain and its strands (R175): strands 0 for a launch that retirement refuses. -/
def State.slotPick (s : State) (o : SoftSlot) : Option (Nat × Nat × Nat) :=
  let free := o.strands - Nat.land o.strands (Nat.lor s.heldStrands s.retired)
  (upto 64).findSome? (fun i =>
    let e := 64 * o.list + i
    let c := entryChain (s.softEntry e)
    if s.softState e = softReady ∧ !(s.rib.runs.any (fun r => r.chain == c)) then
      (s.softStrands (s.peekDesc c) free).map (fun m => (e, c, m))
    else none)

/-- One launch decision of an open slot: the chosen chain is launched (R175, R207). -/
def State.slotLaunch (s : State) (o : SoftSlot) : State :=
  match s.slotPick o with
  | none => s
  | some (e, c, m) =>
    if m = 0 then (s.ribFault c 7 7 s.retired (dRidx (s.peekDesc c)) 0 0).softPut e softIdle
    else
      let retry := s.sch.retryNext.elem e
      { s with sch.retryNext := s.sch.retryNext.filter (· != e) }.ribLaunch c m true (some e) retry

/-- The open slots of a list. -/
def State.slotsOf (s : State) (list : Nat) : List SoftSlot := s.sch.slots.filter (fun o => o.list == list)

/-- The earliest of some instants that has not passed; the present one if all have. -/
def State.nextOf (s : State) (ts : List Nat) : Nat :=
  ((ts.filter (fun t => decide (s.time ≤ t))).foldl (fun b t => match b with | none => some t | some b => some (min b t)) none).getD s.time

/-- LAUNCH_DECISION (R175): one decision, in one rc, of each open slot of a list; launches follow in the next rc, before
END − LEAD. -/
def execLaunchDecision (list : Fin 16) (s : State) : Res := s.whileLive fun s =>
  match s.slotsOf list with
  | [] => next s
  | o :: l =>
    let s := s.until ((o :: l).foldl (fun t x => min t x.openAt) o.openAt)
    let s := s.pass rc16
    next ((s.slotsOf list).foldl (fun t o =>
      if decide (s.time < o.openAt + rc16) || decide (o.endAt ≤ s.time + rc16 * o.lead) then t else t.slotLaunch o) s)

/-- PREEMPT (R177): the next slot of a list reaches END − LEAD; its soft chains are asked to preempt. -/
def execPreempt (list : Fin 16) (s : State) : Res := s.whileLive fun s =>
  let at_ (o : SoftSlot) : Nat := o.endAt - rc16 * o.lead
  let s := s.until (s.nextOf ((s.slotsOf list).map at_))
  next ((s.slotsOf list).foldl (fun t o =>
    if s.time < at_ o then t
    else (t.softRuns o.strands).foldl (fun t r => if r.phase = .running then t.settle r.askPreempt else t.putRun r.askPreempt) t) s)

/-- SLOT_END (R177): the next slot of a list reaches END; its soft chains stop and its strands are free. -/
def execSlotEnd (list : Fin 16) (s : State) : Res := s.whileLive fun s =>
  let s := s.until (s.nextOf ((s.slotsOf list).map (·.endAt)))
  let past := (s.slotsOf list).filter (fun o => decide (o.endAt ≤ s.time))
  next (past.foldl (fun t o => t.softStopAll o.strands) { s with sch.slots := s.sch.slots.filter (fun o => !past.elem o) })

/-- SOFTCMD_ARM (R176). -/
def execSoftcmdArm (list : Fin 16) (entry : Fin 64) (s : State) : Res :=
  next (s.when s.schActive (fun t => t.softArm (64 * list + entry)))

/-- SOFTCMD_CANCEL (R176). -/
def execSoftcmdCancel (list : Fin 16) (entry : Fin 64) (s : State) : Res :=
  next (s.when s.schActive (fun t => t.softCancel (64 * list + entry)))

/-- DEPTH_MET (R176): an answer of the queue engine; discarded when the entry is no longer ARMED. -/
def execDepthMet (list : Fin 16) (entry : Fin 64) (s : State) : Res := s.whileLive fun s =>
  let e := 64 * list.val + entry.val
  if s.que.answers.elem e then
    let s := { s with que.answers := s.que.answers.erase e }
    next (if s.softState e = softArmed then s.softPut e softReady else s)
  else next s

/-! The retry reserve (R179, R180). -/

/-- RETRY (R180): the oldest entry is launched on the same strands, as retirement leaves them (R207), once they are free and no
retry holds strands. A launch that is refused is none, and is not counted. -/
def execRetry (s : State) : Res := s.whileLive fun s =>
  match s.sch.reserves.find? (fun x => decide (s.time < x.2)), s.sch.retryq with
  | some (from_, _), (chain, strands) :: rest =>
    let m := (s.hardStrands chain strands).getD 0
    if s.rib.runs.any (fun r => r.retry && !r.soft && r.holds) || Nat.land m s.heldStrands != 0 then next s
    else
      let s := { s.until from_ with sch.retryq := rest }
      if m = 0 then next (s.ribFault chain 7 7 s.retired (dRidx (s.peekDesc chain)) 0 0)
      else
        let t := s.ribLaunch chain m false none true
        next (t.when (decide (s.rib.runs.length < t.rib.runs.length)) (fun t => t.bump SCH_RETRY_CNT.COUNT))
  | _, _ => next s

/-- RESERVE_END (R180): the reserve that ends first; what has not been launched is dropped. -/
def execReserveEnd (s : State) : Res := s.whileLive fun s =>
  match s.sch.reserves with
  | [] => next s
  | a :: l =>
    let w : Nat × Nat := l.foldl (fun b x => if x.2 < b.2 then x else b) a
    let s : State := { s.until w.2 with sch.reserves := s.sch.reserves.erase w }
    if s.sch.retryq = [] then next s else next ({ s with sch.retryq := [] }.breach 7)

/-- EXCH_DEADLINE (R172): the earliest deadline; each block whose exchange of that EXCH is still at work is recorded. -/
def execExchDeadline (s : State) : Res := s.whileLive fun s =>
  match s.sch.exch with
  | [] => next s
  | a :: l =>
    let w := l.foldl (fun b x => if x.1 < b.1 then x else b) a
    let s := { s.until w.1 with sch.exch := s.sch.exch.erase w }
    next (w.2.foldl (fun t p => if (t.fldX p.1).any (fun x => x.start == p.2) then t.breach 4 else t) s)

end Sys2Proof.Machine
end

