-- ==== Sys2Proof/Machine/Power.lean ====
section
/-! DEFINITION. Machine/Power.lean: the power states (R414 to R418), resets and what each reaches (R419 to R423), starts and
the watchdog (R424 to R427), the flash engine (R436, R443), block power-down (R444), and the input stages (R341, R481). -/

namespace Sys2Proof.Machine

/-! Reach of the resets. Kinds: 1 core, 2 warm, 3 cold, 4 Thaw, 5 line power-on. -/

/-- The widest kind of reset through which a field keeps its value (R8, R9, R423). -/
def Keep.reach : Keep → Nat
  | .none => 0 | .core => 1 | .warm => 2 | .all => 3 | .rwk => 4

/-- A register's value after a reset of a kind that reaches it: kept fields as they were, others at their reset values. -/
def keptValue (kind : Nat) (r : RSpec) (v : Nat) : Nat :=
  r.fields.foldl (fun acc f => if kind ≤ f.keep.reach then setBits acc f.hi f.lo (bits v f.hi f.lo) else acc) r.resetVal

/-- The registers after a reset of a kind. -/
def resetRegs (kind : Nat) (m : List (Nat × Reg32)) : List (Nat × Reg32) :=
  m.filterMap (fun c =>
    if reachesPage kind c.1 then
      match specAt c.1 with
      | some r =>
        let v := BitVec.ofNat 32 (keptValue kind r c.2.toNat)
        if v = regReset c.1 then none else some (c.1, v)
      | none => none
    else some c)

/-- Storage from lo to hi is written with zero and valid check bits; lasting faults show again. -/
def State.zeroMem (s : State) (lo hi : Nat) : State :=
  let t := { s.wipeMem lo hi with
    syn := SMap.clear s.syn (lo / 8) (hi / 8)
    tags := s.tags.filter (fun g => decide (g < lo / 16) || decide (hi / 16 ≤ g)) }
  (s.stuck.filter (fun c => decide (lo / 8 ≤ c.1) && decide (c.1 < hi / 8))).foldl (fun u c => u.flipGran c.1 c.2) t

/-- Trifle after a reset (R219, R283, R304): the epoch registers keep the values it uses. -/
def State.triReset (s : State) : State :=
  { s with tri := { TriS.reset with eprW := s.tri.epr, epr := s.tri.epr, eprUsed := s.tri.eprUsed } }

/-- Trifle, its mailbox endpoint and its staging slots, the lockstep state and a halt, at any reset (R422, R322, R331, R473); a
reset that ends Frost leaves the module unlocked (R365). -/
def State.triReach (s : State) : State :=
  let s := s.when s.frost (fun t => t.setLock false)
  let s := ((s.triReset.mbxEndpoints (· == 0)).queCore).off RCV_STAT.LOCKSTEP_BROKEN
  let s := (s.off DBG_STAT.HALTED).off DBG_STAT.FROST
  { s.endResync with pwr.flash := none, dbg.step := false }

/-- The Lattice at a warm reset (R75, R78): requests under way are abandoned; a copy in progress is abandoned, its bank
pending again; what is in flight may land. -/
def State.latWarm (s : State) : State :=
  let s := s.latInFlight
  let lat := { LatS.reset with
    homeOut := s.lat.homeOut, exhReported := s.lat.exhReported, copyHold := s.lat.copyHold, scrubAt := s.lat.scrubAt }
  if s.isOn LAT_SPARE_COPY.ACTIVE then
    let b := s.rd LAT_SPARE_COPY.LBANK
    let t := ((s.wr (LAT_SPARE.STATE (s.rd LAT_SPARE_COPY.SPARE)) 0).wrReg LAT_SPARE_COPY.addr 0).setSparePend b
    { t with lat := { lat with copyHold := some b } }
  else { s with lat := lat }

/-- The sequencer after a warm or cold reset (R158): STOPPED, entries IDLE; chain time and its rounds run on. -/
def State.schWarm (s : State) : State :=
  { s with sch := { SchS.reset with roundStart := s.sch.roundStart, progStart := s.sch.progStart, nextRc := s.sch.nextRc } }

/-- What a warm reset does beyond the registers (R422). -/
def State.warmReach (s : State) : State :=
  let s := (s.triReach.mbxEndpoints (fun e => e == 0 || e == 1 || e == 2)).latWarm.schWarm
  let s := { s with rib := RibS.reset, cam := CamS.reset, mv := MvS.reset, xw := XwS.reset, credit := [], icu.marks := 0 }
  s.fldReset.queReset.rcWarm.arcReset.ccRestart

/-- What a cold reset, Thaw or line power-on does beyond the registers: blocks at their reset state, memories initialised
(R422, R77, R158, R31), both ports down (R365). -/
def State.coldReach (s : State) : State :=
  let s := (((s.zeroMem tLocalBase (tLocalBase + 0x200000)).zeroMem secureBase (secureBase + secureSize)).zeroMem sstoreBase
    (sstoreBase + 0x400000)).zeroMem latticeBase (latticeBase + 264 * 12288 * 32)
  let s := s.zeroMem bulkBase bulkEnd
  let s := { s with
    bulk := BulkS.reset, lat := LatS.reset, rib := RibS.reset, sch := SchS.reset, rcv := RcvS.reset
    tri := TriS.reset, icu := IcuS.reset, que := QueS.reset, mv := MvS.reset, cam := CamS.reset
    chn := { ChnS.reset with fabOff := s.chn.fabOff }, xw := XwS.reset, credit := [], pwr.flash := none, pwr.wakeChain := false, dbg.step := false }
  (((s.fldReset.arcReset).endUnlock).off DBG_STAT.HALTED).off DBG_STAT.FROST

/-- The outputs VOUT_1V8 and VOUT_3V3 are switched on or off (R494). -/
def State.putVout (s : State) (b : Bool) : State :=
  if s.pwr.vout = b then s else (upto 2).foldl (fun t k => t.send .vout k [if b then 1 else 0]) { s with pwr.vout := b }

/-- The registers after a reset of a kind; a head is locked through it (R359), and a cold reset's wipe can fail too (R456). -/
def State.regsReach (s : State) (kind : Nat) : State :=
  let t := { s with regs := resetRegs kind s.regs }
  let t := t.when (decide (3 ≤ kind) && t.wipeFails) (fun u => u.on SEC_STAT.WIPEFAIL)
  t.when (decide (2 ≤ kind) && t.isHead) (fun u => u.on CHN_STAT.LOCK)

/-! Input stages (R341). -/

/-- Which ports draw, from their voltages and thresholds: D, U. -/
def State.drawing (s : State) : Bool × Bool :=
  if s.pwr.mayU && s.pwr.mayD then
    (decide (s.pwr.vinU ≤ s.pwr.vinD + 16), decide (s.pwr.vinD ≤ s.pwr.vinU + 16))
  else (s.pwr.mayD, s.pwr.mayU)

/-- Does any port draw? -/
def State.anyDraw (s : State) : Bool := s.pwr.mayU || s.pwr.mayD

/-- A measured voltage: within ±2 % of the true one (R444). -/
def State.measured (s : State) (f : Fld) (v : Nat) : State :=
  let (x, s) := s.fresh 32
  s.wr f (min (v - v / 50 + x % (v / 50 * 2 + 1)) 0xFFF)

/-- The status of the input stages is shown (R444, R366). -/
def State.showDraw (s : State) : State :=
  let d := s.drawing
  let s := ((s.put PWR_STAT.DRAW_D d.1).put PWR_STAT.DRAW_U d.2)
  let s := (s.put CHN_STAT.OV_U (decide (3440 < s.pwr.vinU))).put CHN_STAT.OV_D (decide (3440 < s.pwr.vinD))
  (s.measured PWR_VIN_U.VIN s.pwr.vinU).measured PWR_VIN_D.VIN s.pwr.vinD

/-- May a port at a voltage (in eighths of a volt) draw, having been permitted or not before (R341)? -/
def mayDraw (before : Bool) (v : Nat) : Bool := decide (v ≤ 3440) && decide ((if before then 1840 else 1920) ≤ v)

/-- PORT_DRAW_CHANGE (R341): the line voltage at a port changes to vin eighths of a volt. -/
def execPortDrawChange (port : Fin 2) (vin : BitVec 12) (s : State) : Res :=
  let v := vin.toNat
  let s := if port.val = 0 then { s with pwr.vinU := v, pwr.mayU := mayDraw s.pwr.mayU v }
    else { s with pwr.vinD := v, pwr.mayD := mayDraw s.pwr.mayD v }
  if s.pwr.state == .off || s.pwr.state == .dormant then next s
  else
    let s := s.showDraw
    next (if s.anyDraw then { s with pwr.fail := false } else s)

/-- POWER_FAIL (R481): no port has drawn for 20 µs. -/
def execPowerFail (s : State) : Res :=
  if s.anyDraw || s.pwr.state == .off then next s else next { s with pwr.fail := true }

/-- POWER_LOSS (R415): neither port draws and the core rails fall. -/
def execPowerLoss (s : State) : Res :=
  if s.anyDraw || s.pwr.state == .off then next s
  else
    let s := s.putVout false
    next { (s.off CHN_STAT.UP_U).off CHN_STAT.UP_D with pwr.state := .off, pwr.req := 0, pwr.asserted := 0, pwr.fail := false }

/-! Resets. -/

/-- The debug link goes back to SLEEP (R459). -/
def State.linkSleep (s : State) : State := s.off DBG_STAT.LINK

/-- A reset of a kind is asserted (R421): at least 20 µs, with RESET_N/DW driven low, which the debug domain sees too (R459), and,
for a cold or warm one, the flash devices' reset contacts (R436). -/
def State.assertReset (s : State) (kind : Nat) : State :=
  let s := { s with pwr.req := 0, pwr.asserted := max s.pwr.asserted kind, pwr.last := kind, pwr.until_ := s.refNow + 20000 }
  let s := ((s.linkSleep.on DBG_STAT.RESETSEEN).send .resetN 0 [0])
  if 2 ≤ kind then (s.send .flash 2 [0]).send .flash 3 [0] else s

/-- The module is in Run again after Idle: counts go on (R416, R211). -/
def State.leaveIdle (s : State) : State :=
  if s.pwr.state = .idle then
    { s with pwr.state := .run, pwr.winFrom := s.refNow, pwr.wdtFrom := s.refNow - s.pwr.wdtFrom, icu.checkIn := s.refNow }
  else s

/-- Before a reset: a start that has not succeeded has failed (R425). -/
def State.resetMeets (s : State) : State := (s.when (s.isOn RST_STAT.WIN) State.failStart).leaveIdle

/-- Is a reset of a kind called for and not yet applied? -/
def State.resetDue (s : State) (kind : Nat) : Bool := s.pwr.req == kind && s.chnPowered

/-- CORE_RESET (R422). -/
def execCoreReset (s : State) : Res :=
  if !s.resetDue 1 then next s
  else
    let s := s.resetMeets
    let s := (s.regsReach 1).off XW_CTL.REMAP
    next (s.triReach.assertReset 1)

/-- WARM_RESET (R422). -/
def execWarmReset (s : State) : Res :=
  if !s.resetDue 2 then next s
  else
    let s := s.resetMeets.warmReach
    next (((s.regsReach 2).showDraw).assertReset 2)

/-- COLD_RESET (R422): the role epoch advances (R354). -/
def execColdReset (s : State) : Res :=
  if !s.resetDue 3 then next s
  else
    let s := s.resetMeets.coldReach
    next (((s.regsReach 3).bumpEpoch.showDraw).assertReset 3)

/-- Thaw (R418): a cold reset with POR alone; RWK fields and Toffee keep their values. -/
def State.thaw (s : State) : State :=
  let s := s.coldReach
  let s := ({ s.regsReach 4 with dbg := DbgS.reset, pwr.state := .run, pwr.req := 0, pwr.asserted := 0 }).on PWR_STAT.THAWED
  (s.putVout true).showDraw.assertReset 3

/-- THAW (R418): the wake pattern in Dormant. -/
def execThaw (s : State) : Res := if s.pwr.state = .dormant then next s.thaw else next s

/-- LINE_POWER_ON (R415, R419): a port begins to draw from Off; every register is loaded, the role epoch with a random value
(R354); Toffee has been lost. -/
def execLinePowerOn (s : State) : Res :=
  if s.pwr.state ≠ .off ∨ !s.anyDraw then next s
  else
    let s := (s.coldReach.zeroMem toffeeBase (toffeeBase + 0x1000))
    let s := { s.regsReach 5 with dbg := DbgS.reset, pwr.state := .run, pwr.req := 0, pwr.asserted := 0 }
    let (e, s) := s.fresh 16
    next ((((s.putVout true).wr CHN_EPOCH.EPOCH (if e = 0 then 1 else e)).showDraw).assertReset 3)

/-! Halts, as resets and the debug logic make them (R469, R473). -/

/-- The start window stops counting: what is left is kept. -/
def State.stopWin (s : State) : State :=
  { s with pwr.winLeft := s.pwr.winLeft - (s.refNow - s.pwr.winFrom), pwr.winFrom := s.refNow }

/-- The watchdog's count stops, or goes on from where it stopped: `wdtFrom` holds what has elapsed meanwhile. -/
def State.flipWdt (s : State) : State := { s with pwr.wdtFrom := s.refNow - s.pwr.wdtFrom }

/-- The counts of which a write of DBG_CTL.MODE or DBG_FREEZE, which made t of s, begins or ends the pause (R470). -/
def State.pauseFrom (s t : State) : State :=
  let u := if s.frozen 1 = t.frozen 1 then t else if t.frozen 1 then t.stopWin else { t with pwr.winFrom := t.refNow }
  u.when (s.frozen 0 != t.frozen 0) State.flipWdt

/-- The registers of a slice that is not of the majority: they may be any values (R193). -/
def State.oddRegs (s : State) : State :=
  let s := (upto 32).foldl (fun t i => let (v, u) := t.fresh 64; u.setGN i v) s
  let s := (upto 32).foldl (fun t i => let (v, u) := t.fresh 64; u.setF i v) s
  let s := (upto 32).foldl (fun t i => let (v, u) := t.fresh 128; u.setV i v) s
  let s := (upto 8).foldl (fun t i => let (v, u) := t.fresh 64; u.setP i (BitVec.ofNat 64 v)) s
  let (v, s) := s.fresh 38
  { s with tri.pc := BitVec.ofNat 40 (4 * v) }

/-- Trifle is halted (R469, R203): HALTED, LOCKSTEP_BROKEN, Frost in mode 0; counts that Freeze names pause (R470). A debug slice
that a resynchronisation has still to correct shows its own registers (R193). -/
def State.haltNow (s : State) : State :=
  let k := s.sourceSlice 0
  let s := (((s.on DBG_STAT.HALTED).on RCV_STAT.LOCKSTEP_BROKEN).wr DBG_STAT.SLICE k).rcLog 0x09 k 0 0
  let s := s.when (match s.rcv.resync with | some q => bitb q.odd k | none => false) State.oddRegs
  let s := { s.put DBG_STAT.FROST (!s.isOn DBG_CTL.MODE) with dbg.halting := false }
  let s := s.when (s.frozen 1) State.stopWin
  s.when (s.frozen 0) State.flipWdt

/-- The counts that a halt paused go on; the Watcher's starts from zero when Frost ends (R211). -/
def State.unpause (s : State) : State :=
  let s := s.when (s.isOn DBG_STAT.FROST) (fun t => { t with icu.checkIn := t.refNow })
  let s := if s.frozen 1 then { s with pwr.winFrom := s.refNow } else s
  s.when (s.frozen 0) State.flipWdt

/-- In Lull after a core reset the sequencer is STOPPED, the field blocks, cameras and movers are as R397 says, the Archive is OFF
(R426); chains that run go on (R125). -/
def State.lullStop (s : State) : State :=
  if s.isOn RST_STAT.LULL && s.pwr.last == 1 then
    let s := s.schWarm.fldReset
    ({ s with mv := MvS.reset, cam := CamS.reset }).wr SCH_STAT.STATE schStopped |>.arcReset
  else s

/-- RESET_RELEASE (R421): the pin is released after the stretch, with the PLLs locked, and the reset once it has been high for 1 µs;
a start begins (R424). A cold reset has set chain time to 0, and a head listens for 10 ms (R359). -/
def execResetRelease (s : State) : Res :=
  if s.pwr.asserted = 0 ∨ s.pwr.req ≠ 0 ∨ !s.chnPowered then next s
  else
    let s := (s.fabUntil (16 * s.pwr.until_)).send .resetN 0 [1]
    let s := s.fabUntil (16 * (s.pwr.until_ + 1000))
    let kind := s.pwr.asserted
    let s := { s with pwr.asserted := 0 }
    let s := if kind = 3 then
        { s with time := 0, chn.fabOff := s.fabNow
                 chn.listen := if s.isHead then some (s.refNow + 10000000, none) else none }
      else s
    let s := s.when (decide (2 ≤ kind)) State.rcRestart
    let s := { s with icu.checkIn := s.refNow, pwr.wdtFrom := s.refNow }
    let s := ((s.wr CLK_STAT.LOCK 0xF).on CLK_STAT.REFOK).resample
    let s := s.bootStart.lullStop
    next (s.when (s.isOn DBG_CTL.HALTRST) State.haltNow)

/-- BOR (R419): a core rail stays low while a port draws. -/
def execBor (s : State) : Res := next (s.when s.anyDraw (fun t => t.callReset 3 1))

/-- PIN (R421, R459): a low of 10 µs on RESET_N/DW; not sensed in Dormant and Off. -/
def execPin (s : State) : Res :=
  if s.chnPowered then
    next ((s.linkSleep.on DBG_STAT.RESETSEEN).callReset (if s.isOn RST_CTL.PINWARM then 2 else 3) 2)
  else next s

/-! Starts (R424, R425) and software resets. -/

/-- START_WINDOW (R425): the window expires in Run. -/
def execStartWindow (s : State) : Res :=
  if !s.isOn RST_STAT.WIN || s.pwr.state != .run || s.frozen 1 then next s
  else next (((s.fabUntil (16 * (s.pwr.winFrom + s.pwr.winLeft))).failStart).callReset 2 3)

/-- RST_STARTED (R424): DONE while the window runs. -/
def execRstStarted (s : State) : Res :=
  if s.isOn RST_STAT.WIN then next (((s.wr RST_STARTS.COUNT 0).on RST_STAT.STARTED).off RST_STAT.WIN) else next s

/-- SW_CORE_RESET (R443). -/
def execSwCoreReset (s : State) : Res := next (s.callReset 1 8)

/-- SW_WARM_RESET (R443). -/
def execSwWarmReset (s : State) : Res := next (s.callReset 2 8)

/-- SW_COLD_RESET (R443). -/
def execSwColdReset (s : State) : Res := next (s.callReset 3 8)

/-- WATCHDOG_EXPIRY (R427): PERIOD ms in Run since the last kick. -/
def execWatchdogExpiry (s : State) : Res :=
  if !s.isOn RST_WDT.EN || s.pwr.state != .run || s.frozen 0 then next s
  else next ((s.fabUntil (16 * (s.pwr.wdtFrom + 1000000 * s.rd RST_WDT.PERIOD))).callReset 2 3)

/-- The watchdog counts from the start (R427), or stands at 0 while its count pauses (R416, R470). -/
def State.wdtRestart (s : State) : State :=
  { s with pwr.wdtFrom := if s.frozen 0 || s.pwr.state == .idle then 0 else s.refNow }

/-- KICK (R427): a write of RST_WDT_KICK. -/
def execKick (key : BitVec 16) (s : State) : Res :=
  if key = 0x5A5A then next s.wdtRestart else next (s.on RST_STAT.BADKICK)

/-- RST_WDT (R427): EN starts the count; PERIOD is not written while EN is 1. -/
def State.wdtWrite (s : State) (v : Nat) : State :=
  if s.isOn RST_WDT.EN then s
  else
    let s := s.wr RST_WDT.PERIOD (bits v 11 0)
    if bitb v 31 then (s.on RST_WDT.EN).wdtRestart else s

/-! The flash engine (R436, R443). -/

/-- A write of RST_FL_CTL. GO starts the operation unless one is BUSY; RAW needs OCT = 0 (with OCT = 1 it is not started). -/
def State.flashCtl (s : State) (v : Nat) : State :=
  let dev := bit v 25
  let s := s.when (bitb v 29) (fun t => t.off RST_FL_CTL.ERR)
  let s := s.when (bitb v 28) (fun t => t.send .flash (2 + dev) [0])
  let s := ((((s.wr RST_FL_CTL.OP (bits v 27 26)).wr RST_FL_CTL.DEV dev).wr RST_FL_CTL.OCT (bit v 24)).wr RST_FL_CTL.DUMMY
    (bits v 23 16)).wr RST_FL_CTL.MHZ (bits v 15 8)
  if !bitb v 31 || s.isOn RST_FL_CTL.BUSY || (bits v 27 26 == 3 && bitb v 24) then s
  else
    { s.on RST_FL_CTL.BUSY with
      pwr.flash := some (dev, bits v 27 26, s.rd RST_FL_FADDR.FADDR,
        s.rd RST_FL_BADDR_LO.ADDR_LO * 64 + s.rd RST_FL_BADDR_HI.ADDR_HI * 2 ^ 32, s.rd RST_FL_LEN.LEN) }

/-- FLASH_READ (R443): GO with OP READ; `value` gives the other fields written. -/
def execFlashRead (value : BitVec 32) (s : State) : Res := next (s.flashCtl (setBits (setBits value.toNat 31 31 1) 27 26 0))

/-- PROGRAM (R443). -/
def execProgram (value : BitVec 32) (s : State) : Res := next (s.flashCtl (setBits (setBits value.toNat 31 31 1) 27 26 1))

/-- ERASE (R443). -/
def execErase (value : BitVec 32) (s : State) : Res := next (s.flashCtl (setBits (setBits value.toNat 31 31 1) 27 26 2))

/-- RAW (R443): the opcode is sent after 0x06, with the address and the data byte as chosen. -/
def execRaw (value : BitVec 32) (s : State) : Res :=
  let t := s.flashCtl (setBits (setBits value.toNat 31 31 1) 27 26 3)
  if s.isOn RST_FL_CTL.BUSY || !t.isOn RST_FL_CTL.BUSY then next t
  else
    next (t.sendFlash (t.rd RST_FL_CTL.DEV) (t.rd RST_FL_RAW.OP)
      (if t.isOn RST_FL_RAW.HASADDR then some (t.rd RST_FL_FADDR.FADDR) else none)
      (if t.isOn RST_FL_RAW.HASDATA then some (t.rd RST_FL_RAW.DATA) else none))

/-- DRST (R443). -/
def execDrst (value : BitVec 32) (s : State) : Res := next (s.flashCtl (setBits value.toNat 28 28 1))

/-- Is an operation's address and length aligned as R443 asks, and within the device? -/
def flashForm (op fa len : Nat) : Bool :=
  decide (fa + len ≤ 2 ^ 27) &&
  (match op with
  | 0 => len % 64 == 0
  | 1 => fa % 256 == 0 && len % 256 == 0
  | 2 => fa % 4096 == 0 && len % 4096 == 0
  | _ => true)

/-- The work of an operation, as master 0 on the Bulk side (log entry 87): false for a bus error there. -/
def State.flashRun (s : State) (dev op fa ba len : Nat) : Bool × State :=
  match op with
  | 0 => s.dataWrites 0 ba (s.bytes (flashAt dev fa) len)
  | 1 =>
    (match s.dataReads 0 ba len with
    | (none, t) => (false, t)
    | (some bs, t) => (true, t.setBytes (flashAt dev fa) (List.zipWith (· &&& ·) bs (t.bytes (flashAt dev fa) len))))
  | 2 => (true, s.wipeMem (flashAt dev fa) (flashAt dev fa + len))
  | _ => (true, s)

/-- FLASH_DONE (R443): the operation completes, or fails by the device's status or after 5 s. -/
def execFlashDone (failed : Bool) (s : State) : Res :=
  match s.pwr.flash with
  | none => next s
  | some (dev, op, fa, ba, len) =>
    let s := { s.off RST_FL_CTL.BUSY with pwr.flash := none }
    if failed || !flashForm op fa len then next (s.on RST_FL_CTL.ERR)
    else
      let (ok, s) := s.flashRun dev op fa ba len
      next (s.when (!ok) (fun t => t.on RST_FL_CTL.ERR))

/-! Power states. -/

/-- May IDLE or DORMANT be entered (R416, R473)? -/
def State.mayIdle (s : State) : Bool :=
  s.schIs schStopped && (upto 8).all (fun n => !s.isOn (MV_STAT.BUSY n)) && (s.arcIs arcOff || s.arcIs arcFault) &&
    !s.isOn DBG_STAT.HALTED && s.pwr.state == .run

/-- IDLE (R416): PWR_CTL with OP IDLE: field pairs and camera links are released (R397); the window and the watchdog stop. -/
def execIdle (s : State) : Res :=
  if !s.mayIdle then next (s.on PWR_STAT.REFUSED)
  else
    let s := (s.stopWin.flipWdt).wr AOW_WAKE.WAKE 0
    let s := (upto 8).foldl (fun t n => ((t.off (CAM_STAT.LINK n)).wr (CAM_STAT.SPEED n) 0).camDropFrame n) s
    next { s with pwr.state := .idle, icu.latch := 0, icu.seen := s.linesNow, pwr.wakeChain := false }

/-- DORMANT (R417): PWR_CTL with OP DORMANT: both chain ports stop, what the fabric holds is lost as at a cold reset (R365), every
rail outside the Dormant domain is off. -/
def execDormant (s : State) : Res :=
  if !s.mayIdle then next (s.on PWR_STAT.REFUSED)
  else
    let s := ((s.off CHN_STAT.UP_U).off CHN_STAT.UP_D).endUnlock
    next { s.putVout false with
      chn := { ChnS.reset with fabOff := s.chn.fabOff }, pwr.state := .dormant, pwr.req := 0, pwr.asserted := 0 }

/-- IDLE_WAKE (R415): a Watcher slot has latched with WAKE_EN, or MGMT WAKE has named the module. -/
def execIdleWake (s : State) : Res :=
  let slot := s.icu.latch != 0 && s.isOn AOW_CTL.WAKE_EN
  if s.pwr.state ≠ .idle ∨ !(slot || s.pwr.wakeChain) then next s
  else
    let s := (s.when slot (fun t => t.on PWR_STAT.WOKE_SLOT)).when s.pwr.wakeChain (fun t => t.on PWR_STAT.WOKE_CHAIN)
    next ({ s.leaveIdle with pwr.wakeChain := false }).wakeSources

/-! Block power-down (R444). -/

/-- Registers from lo to hi take their reset values. -/
def State.clearRegs (s : State) (lo hi : Nat) : State := { s with regs := SMap.clear s.regs lo hi }

/-- Field block b is held in reset. -/
def State.fldOff (s : State) (b : Nat) : State :=
  let lo := 0x50000000 + 0x1000 * b
  let s := (s.clearRegs lo (lo + 0x1000)).wipeMem (bankAt b 0 0) (bankAt b 0 0 + 0x4000)
  { s with
    fld.ports := SMap.clear s.fld.ports (16 * b) (16 * b + 16)
    fld.eff := SMap.clear s.fld.eff lo (lo + 0x1000)
    fld.xfers := s.fld.xfers.filter (fun x => x.block != b)
    fld.pendAt := s.fld.pendAt.filter (fun p => p.1 != b) }

/-- PWR_DOWN (R444): a write of PWR_DOWN; blocks powered down are in reset with their cold-reset values. -/
def execPwrDown (value : BitVec 32) (s : State) : Res :=
  let v := value.toNat
  let s := ((s.wr PWR_DOWN.FGRP (bits v 15 8)).wr PWR_DOWN.CAM (bit v 1)).wr PWR_DOWN.ARC (bit v 0)
  let s := (upto 64).foldl (fun t b => if bitb v (8 + b / 8) then t.fldOff b else t) s
  let s := if bitb v 1 then { s.clearRegs 0x50040000 0x50050000 with cam := CamS.reset } else s
  next (if bitb v 0 then ((s.arcReset).clearRegs 0x60010000 0x60020000).mbxEndpoints (· == 2) else s)

end Sys2Proof.Machine
end

