-- ==== Sys2Proof/Machine/Recipe.lean ====
section
/-! DEFINITION. Machine/Recipe.lean: recipe transfers over the chain (R363). -/

namespace Sys2Proof.Machine

abbrev rcpReady : Nat := 0
abbrev rcpReceiving : Nat := 1
abbrev rcpVerified : Nat := 2
abbrev rcpHashfail : Nat := 3
abbrev rcpSigfail : Nat := 4
abbrev rcpRefused : Nat := 5
abbrev rcpToobig : Nat := 6

/-- CHN_RSTAT.STATE takes a value; a change raises RCP (R366). -/
def State.rcpTo (s : State) (st : Nat) : State :=
  if s.rd CHN_RSTAT.STATE = st then s else (s.wr CHN_RSTAT.STATE st).chnIrq CHN_IRQ.RCP

/-- Answer a recipe frame in kind: encrypted under the key it came under, or in the clear (log entry 52). -/
def State.rcpSend (s : State) (r : RxFrame) (sub arg : Nat) (payload : List Byte) : State :=
  if r.frame.enc then s.chnPostEnc clsRecipe r.frame.src sub arg (r.frame.h2 / 2 ^ 56) payload
  else s.chnPost clsRecipe r.frame.src sub arg 0 payload

/-- STATUS (R363): the next chunk expected and a STATE. -/
def State.rcpStatus (s : State) (r : RxFrame) (st : Nat) : State :=
  s.rcpSend r 2 (s.rd CHN_RSTAT.NEXT + st * 2 ^ 16) []

/-- May the module take part in a transfer (R363)? -/
def State.rcpOpen (s : State) : Bool := s.inLull || s.isOn CHN_CTL.RCP_EN

/-- Is a frame a RECIPE frame of subclass k? -/
def RxFrame.recipe (r : RxFrame) (k : Nat) : Bool := r.frame.cls == clsRecipe && r.frame.sub == k

/-- RECIPE_OFFER (R363): answered with STATUS, or refused. -/
def execRecipeOffer (s : State) : Res :=
  match s.ccTake (fun r => r.recipe 0) with
  | none => next s
  | some (r, s) =>
    if !s.rcpOpen then next (s.chnNak r.frame nakLull 0)
    else if r.text.length ≠ 40 then next s
    else if !s.inLull && !r.frame.enc then next ((s.rcpTo rcpRefused).rcpStatus r rcpRefused)
    else
      let len := ofBytes (r.text.take 8)
      if 0x8000000 < len then next ((s.rcpTo rcpToobig).rcpStatus r rcpToobig)
      else
        let s := { s with chn.rcpLen := len, chn.rcpHash := r.text.drop 8, chn.rcpRun := 0 }
        let s := (s.wr CHN_RSTAT.SRC r.frame.src).wr CHN_RSTAT.NEXT 0
        next ((s.rcpTo rcpReady).rcpStatus r rcpReady)

/-- Does a frame belong to the transfer under way? -/
def State.rcpMine (s : State) (r : RxFrame) : Bool :=
  s.rd CHN_RSTAT.SRC == r.frame.src && decide (s.rd CHN_RSTAT.STATE < 2) && s.chn.rcpLen != 0

/-- RECIPE_DATA (R363): a chunk in order is written to staging; any other is discarded and answered with STATUS. -/
def execRecipeData (s : State) : Res :=
  match s.ccTake (fun r => r.recipe 1) with
  | none => next s
  | some (r, s) =>
    if !s.rcpOpen then next (s.chnNak r.frame nakLull 0)
    else if !s.rcpMine r then next s
    else
      let c := r.frame.arg % 2 ^ 16
      let want := min 2048 (s.chn.rcpLen - 2048 * c)
      if c ≠ s.rd CHN_RSTAT.NEXT ∨ want = 0 ∨ r.text.length ≠ want then next (s.rcpStatus r rcpReceiving)
      else
        match s.dataWrites 10 (s.stageBase + 2048 * c) r.text with
        | (false, t) => next (t.rcpStatus r rcpReceiving)
        | (true, t) =>
          let t := (({ t with chn.rcpRun := (t.chn.rcpRun + 1) % 16 }).wr CHN_RSTAT.NEXT (c + 1)).rcpTo rcpReceiving
          next (if t.chn.rcpRun = 0 then t.rcpStatus r rcpReceiving else t)

/-- RECIPE_STATUS (R363): the source resends the chunk that a target reports as the next one expected, from its own staging
area. -/
def execRecipeStatus (s : State) : Res :=
  match s.ccTake (fun r => r.recipe 2) with
  | none => next s
  | some (r, s) =>
    let c := r.frame.arg % 2 ^ 16
    if 2 ≤ bits r.frame.arg 19 16 then next s
    else match s.dataReads 10 s.stageBase 64 with
    | (none, t) => next t
    | (some h, t) =>
      if fieldOf h 0x10 4 ≤ 2048 * c then next t
      else match t.dataReads 10 (t.stageBase + 2048 * c) (min 2048 (fieldOf h 0x10 4 - 2048 * c)) with
      | (none, u) => next u
      | (some bs, u) => next (u.rcpSend r 1 c bs)

/-- The chain role that a verified image names (R440): FLAGS of its CHAIN_ROLE section. -/
def imageRole (img : List Byte) : Option Nat :=
  ((recipeDir (img.take 4096)).find? (fun e => e.type == 5)).map (fun e => fieldOf img e.off 4)

/-- RECIPE_COMMIT (R363): the hash, then the signature; a module in Lull boots from the image (R434); a commit that changes the
chain role gives a new role epoch (R354). -/
def execRecipeCommit (s : State) : Res :=
  match s.ccTake (fun r => r.recipe 3) with
  | none => next s
  | some (r, s) =>
    if !s.rcpOpen then next (s.chnNak r.frame nakLull 0)
    else if !s.rcpMine r then next s
    else match s.dataReads 10 s.stageBase s.chn.rcpLen with
    | (none, t) => next ((t.rcpTo rcpHashfail).rcpStatus r rcpHashfail)
    | (some img, t) =>
      if Config.sha256 img ≠ t.chn.rcpHash then next ((t.rcpTo rcpHashfail).rcpStatus r rcpHashfail)
      else if !t.recipeOk (img.take 4096) then next ((t.rcpTo rcpSigfail).rcpStatus r rcpSigfail)
      else
        let t := (t.rcpTo rcpVerified).rcpStatus r rcpVerified
        let u := if t.inLull then t.lullPath else t
        match imageRole img with
        | some f => next (if u.inLull || f % 4 == b2n t.isHead + 2 * b2n t.isRing then u else u.bumpEpoch)
        | none => next u

end Sys2Proof.Machine
end

