-- ==== Sys2Proof/Machine/Regs.lean ====
section
/-! DEFINITION. Machine/Regs.lean: what the peripheral bus does with a register: the value a read returns and what the read
changes, what a write changes (R8 to R11 and each page's own rule), and which accesses a page admits (R25, R313, R444,
R475). -/

namespace Sys2Proof.Machine

/-- The state a meaning leaves. -/
def Res.stateOr (r : Res) (s : State) : State :=
  match r with
  | .next t => t
  | _ => s

/-! Reads. -/

/-- A register's bits that can be read: WO fields and reserved bits read as zero (R8, R10). -/
def readable (r : RSpec) (v : Nat) : Nat :=
  r.fields.foldl (fun acc f => if f.ty = .wo then acc else acc + bits v f.hi f.lo * 2 ^ f.lo) 0

/-- RCV_RIB_x with HIST and PASSED as they stand in the round now (R216). -/
def State.viewRib (s : State) (k v : Nat) : Nat :=
  let n := s.roundNo
  setBits (setBits v 31 31 (b2n (recentRound (s.strand k).lastMm n))) 30 30 (b2n (recentRound (s.strand k).passed n))

/-- RCV_LOG_DATAk (R216). -/
def State.viewLog (s : State) (k : Nat) : Nat :=
  bits (SMap.get (fun _ => (0 : BitVec 128)) s.rcv.log (s.rd RCV_LOG_SEL.SLOT)).toNat (32 * k + 31) (32 * k)

/-- ICU_PRESENT (R307, R332). -/
def State.viewPresent (s : State) : Nat :=
  match s.present with
  | some (n, p) => n + p * 2 ^ 16 + 2 ^ 31
  | none => 0

/-- ICU_RAWk (R332): line levels, zero for sources that are edge-only or reserved. -/
def State.viewRaw (s : State) (k : Nat) : Nat :=
  (upto 32).foldl (fun m b => m + b2n (sourceLevel (32 * k + b) && s.sourceLine (32 * k + b)) * 2 ^ b) 0

/-- MBX_SUMk (R334). -/
def State.viewSum (s : State) (k : Nat) : Nat :=
  (upto 32).foldl (fun m b => m + b2n (s.isOn (MBX_STAT.FULL (32 * k + b)) || s.isOn (MBX_DB.DB (32 * k + b))) * 2 ^ b) 0

/-- SEC_STAT (R457, R452): the fuses beside the register's own bits. -/
def State.viewSecStat (s : State) (v : Nat) : Nat :=
  let n := s.sec.n
  setBits (setBits (setBits v 31 24 n) 16 10 (if 2 ≤ n then (128 - n) / 2 else 63)) 2 0 s.lifecycle

/-- SCH_LSTATEk (R187). -/
def State.viewLstate (s : State) (k : Nat) : Nat :=
  (upto 16).foldl (fun m j => m + s.softState (64 * s.rd SCH_LSEL.LIST + 16 * k + j) % 4 * 4 ^ j) 0

/-- rcr as it stood d sixteenths of a nanosecond ago (R187). -/
def State.rcrAgo (s : State) (d : Nat) : Nat := (s.time + s.roundLen - d - s.sch.roundStart) % s.roundLen / rc16

/-- Word w of bytes. -/
def wordAt (bs : List Byte) (w : Nat) : Nat := ofBytes ((bs.drop (4 * w)).take 4)

/-- The staging slot of a master (R326): a Trifle compartment's, the debug logic's, the Archive processor's. -/
def State.queSlot (s : State) (m : Nat) : Option Nat :=
  if m = 0 then some s.tri.comp else if m = 1 then some 17 else if m = 11 then some 18 else none

/-- Is the probe's level open by the lifecycle, with scope SEC (R467)? -/
def State.dbgOpen (s : State) : Bool := s.lifecycle == 0 || s.lifecycle == 1 || s.lifecycle == 3

/-- DBG_STAT (R476): SCOPESEC also while the level is open. -/
def State.viewDbgStat (s : State) (v : Nat) : Nat := if s.dbgOpen then setBits v 28 28 1 else v

/-- DBG_VTSTAT (R476). -/
def State.viewVt (s : State) (v : Nat) : Nat := setBits (setBits v 22 16 s.dbg.tx.length) 14 8 s.dbg.rx.length

/-- Ticks since the last check-in, up to W (R333, R211). -/
def State.viewCnt (s : State) : Nat :=
  if s.pwr.state = .run then min ((s.refNow - s.icu.checkIn) / 1000) (s.rd AOW_WLIM.W) else 0

/-- A value free within n possibilities. -/
def State.freeBelow (s : State) (n : Nat) : Nat × State := let (x, t) := s.fresh 32; (x % n, t)

/-- The value that a read of the register at address a returns to a master, and the state after the read. -/
def State.regRead (s : State) (m a : Nat) (r : RSpec) : Nat × State :=
  let v := readable r (s.rdReg a)
  let off := a % 0x10000
  match a / 0x10000 with
  | 0x4001 => if off = 0x10 then s.freeBelow 0x10000 else (v, s)
  | 0x4003 =>
    if 0x30 ≤ off ∧ off < 0x3C then (s.viewRib ((off - 0x30) / 4) v, s)
    else if 0x60 ≤ off then (s.viewLog ((off - 0x60) / 4), s) else (v, s)
  | 0x4004 => (if off = 0xC then s.viewCnt else v, s)
  | 0x4005 =>
    if off = 0 then (s.viewPresent, s)
    else if 0x380 ≤ off ∧ off < 0x400 then (s.viewRaw ((off - 0x380) / 4), s) else (v, s)
  | 0x4006 => (if 0x4000 ≤ off then s.viewSum ((off - 0x4000) / 4) else v, s)
  | 0x4008 =>
    (if off = 0 then s.viewSecStat v
      else if off = 0x18 then s.sec.prog % 16 + s.sec.revoked % 16 * 16
      else if off = 0x1C then s.sec.cert.length
      else if off = 0x20 then s.sec.serial.toNat % 2 ^ 32
      else if off = 0x24 then s.sec.serial.toNat / 2 ^ 32
      else if 0x40 ≤ off ∧ off < 0x60 then wordAt (nonceBytes s.sec.nonce) ((off - 0x40) / 4)
      else if 0x1000 ≤ off then wordAt s.sec.cert ((off - 0x1000) / 4) else v, s)
  | 0x5004 => if off % 0x100 = 0x18 then s.camDonePop (off / 0x100) else (v, s)
  | 0x6002 =>
    if off = 0x10 then s.stallPop
    else if 0x18 ≤ off ∧ off < 0x24 then s.notePop ((off - 0x18) / 4)
    else if 0x140 ≤ off then
      match s.queSlot m with
      | some k => (s.slotWord k ((off - 0x100) / 4), s)
      | none => (0, s)
    else (v, s)
  | 0x6003 =>
    if off = 0 then (s.viewDbgStat v, s)
    else if off = 0x20 then (s.sec.serial.toNat % 2 ^ 32, s)
    else if off = 0x24 then (s.sec.serial.toNat / 2 ^ 32, s)
    else if off = 0x38 then (s.viewVt v, s)
    else if off = 0x34 then
      match s.dbg.rx with
      | b :: rest => (b.toNat + 2 ^ 31, { s with dbg.rx := rest })
      | [] => (0, s)
    else if off = 0x30 then (0, s) else (v, s)
  | 0x6004 =>
    if off = 0x8 then let (d, t) := s.freeBelow 17; (s.rcrAgo (32 + d), t)
    else if 0x80 ≤ off ∧ off < 0x90 then (s.viewLstate ((off - 0x80) / 4), s) else (v, s)
  | 0x6005 => if off = 0x20 then s.ribDonePop else (v, s)
  | _ => (v, s)

/-! Writes. -/

/-- A register written by its fields' types (R8); reserved bits stay zero (R10), and WO bits are not held. -/
def fieldWrite (r : RSpec) (old v : Nat) : Nat :=
  r.fields.foldl (fun acc f =>
    let o := bits old f.hi f.lo
    let w := bits v f.hi f.lo
    let n := match f.ty with
      | .ro => o
      | .wo => o
      | .w1c => Nat.xor (Nat.lor o w) w
      | .w1s => Nat.lor o w
      | _ => w
    acc + n * 2 ^ f.lo) 0

/-- The bits of v that a register's fields name. -/
def named (r : RSpec) (v : Nat) : Nat := r.fields.foldl (fun acc f => acc + bits v f.hi f.lo * 2 ^ f.lo) 0

/-- Registers whose VALID, written 1, clears OVF with it (R68, R63, R126, R187, R335). -/
def clearsOvf (a : Nat) : Bool :=
  [QUE_ERRINFO.addr, SCH_BREACH_INFO.addr, RIB_FAULT_INFO.addr, RIB_VOTE_INFO.addr, LAT_ECC_INFO.addr,
    LAT_BREACH_INFO.addr].elem a

/-- The plain effect of a write, by field types. -/
def State.plainWrite (s : State) (a v : Nat) (r : RSpec) : State :=
  let n := fieldWrite r (s.rdReg a) v
  s.wrReg a (if clearsOvf a && bitb v 31 then setBits n 30 30 0 else n)

/-- Writes of the RST_ page (R443). -/
def State.writeRst (s : State) (a v : Nat) (r : RSpec) : State :=
  match a % 0x10000 with
  | 0x0C => if bitb v 0 then (execRstStarted s).stateOr s else s
  | 0x10 =>
    (match bits v 31 28 with
    | 1 => (execSwCoreReset s).stateOr s
    | 2 => (execSwWarmReset s).stateOr s
    | 3 => (execSwColdReset s).stateOr s
    | _ => s)
  | 0x18 => s.wdtWrite v
  | 0x1C => (execKick (BitVec.ofNat 16 v) s).stateOr s
  | 0x100 => if bitb v 31 && bits v 27 26 == 3 then (execRaw (BitVec.ofNat 32 v) s).stateOr s else s.flashCtl v
  | _ => s.plainWrite a v r

/-- Writes of the XW_ page (R41): errors of the same tc are not lost (R11, R40). -/
def State.writeXw (s : State) (a v : Nat) (r : RSpec) : State :=
  match a % 0x10000 with
  | 0x18 => s.when (bitb v 31) State.derrClear
  | 0x1C => let t := s.thisTc; t.countWrite XW_DERR_CNT.COUNT v t.xw.derrs.length
  | 0x20 => let t := s.thisTc; t.countWrite XW_BERR_CNT.COUNT v t.xw.berrs
  | _ => s.plainWrite a v r

/-- Writes of the RCV_ page (R216); LASTSTRAND, with two strands retired, chooses between two rows of R208. -/
def State.writeRcv (s : State) (a v : Nat) (r : RSpec) : State :=
  if a % 0x10000 = 0x40 then
    match bits v 31 28 with
    | 1 => (execResync s).stateOr s
    | 2 => if h : bits v 1 0 < 3 then (execLtest ⟨bits v 1 0, h⟩ s).stateOr s else s
    | 3 => (execClrhist s).stateOr s
    | _ => s
  else
    let t := s.plainWrite a v r
    t.when (t.isOn RCV_CTL.LASTSTRAND != s.isOn RCV_CTL.LASTSTRAND && popcount 3 s.retired == 2) State.degrade

/-- Writes of the ICU_ page (R332): bits of reserved sources stay zero (R305). -/
def State.writeIcu (s : State) (a v : Nat) (r : RSpec) : State :=
  let off := a % 0x10000
  if 0x100 ≤ off ∧ off < 0x140 then s.wrReg a (Nat.land v (sourceMask ((off - 0x100) / 4)))
  else if 0x200 ≤ off ∧ off < 0x240 then s.wrReg a (Nat.lor (s.rdReg a) (Nat.land v (sourceMask ((off - 0x200) / 4))))
  else if 0x240 ≤ off ∧ off < 0x280 then s.unpend ((off - 0x240) / 4) v
  else if 0x400 ≤ off then
    let k := (off - 0x400) / 4
    s.wrReg a ((upto 8).foldl (fun acc j => acc + (if sourceOk (8 * k + j) then bits v (4 * j + 3) (4 * j) else 0) * 16 ^ j) 0)
  else s.plainWrite a v r

/-- Writes of the MBX_ page by a master that may make them (R313 to R320, R334). -/
def State.writeMbx (s : State) (m a v : Nat) (r : RSpec) : State :=
  let off := a % 0x10000
  let n := off / 0x100
  if 0x4000 ≤ off then s
  else match off % 0x100 with
  | 0x00 =>
    let e := endpointOf m
    let s := s.when (e == some (s.rd (MBX_CFG.SENDER n)) && bitb v 30) (fun t => t.off (MBX_STAT.EMPTY n))
    if e == some (s.rd (MBX_CFG.RECEIVER n)) then
      (s.when (bitb v 29) (fun t => t.off (MBX_STAT.COLLIDE n))).wr (MBX_STAT.FMASK n) (bit v 28)
    else s
  | 0x04 => if m < 2 then s.mbxCfg n v else s.on (MBX_CFG.REFUSED n)
  | 0x10 => s.mbxPost n v
  | 0x14 => s.when (bitb v 0) (fun t => t.mbxAck n)
  | k => if 0x40 ≤ k ∧ k < 0x80 then s.wrReg a v else s.plainWrite a v r

/-- Writes of the SEC_ page (R453, R457), by the debug logic or not. -/
def State.writeSec (s : State) (m a v : Nat) (r : RSpec) : State :=
  let off := a % 0x10000
  if off = 4 then
    let arg : Fin 4 := ⟨bits v 1 0, Nat.mod_lt _ (by decide)⟩
    match bits v 31 28 with
    | 1 => (execProvision (m == 1) s).stateOr s
    | 2 => (execDeploy s).stateOr s
    | 3 => (execService arg s).stateOr s
    | 4 => (execLifecycleResume s).stateOr s
    | 5 => (execRetire arg s).stateOr s
    | 6 => (execKeyprog arg s).stateOr s
    | 7 => (execRevoke arg s).stateOr s
    | _ => s.newNonce.secRefuse
  else if off = 8 then (if bitb v 0 then s.wipeSecure else s)
  else if (0x80 ≤ off ∧ off < 0xC0) ∨ (0x100 ≤ off ∧ off < 0x140) then s.wrReg a v
  else if 0x1000 ≤ off then
    if s.lifecycle = 0 then
      let k := off - 0x1000
      let c := s.sec.cert ++ List.replicate (k + 4 - s.sec.cert.length) 0
      { s with sec.cert := c.take k ++ toBytes 4 v ++ c.drop (k + 4) }
    else s
  else s.plainWrite a v r

/-- Writes of the CAM_ page (R400). -/
def State.writeCam (s : State) (a v : Nat) (r : RSpec) : State :=
  let off := a % 0x100
  let n : Fin 8 := ⟨a % 0x10000 / 0x100 % 8, Nat.mod_lt _ (by decide)⟩
  match off with
  | 0x00 => s.camConfig n 0 (named r v)
  | 0x08 => s.camConfig n 8 (named r v)
  | 0x0C => s.camConfig n 0xC (named r v)
  | 0x10 => s.camConfig n 0x10 (named r v)
  | 0x28 => (execCamRel n (bitb v 31) ⟨bits v 3 0, Nat.mod_lt _ (by decide)⟩ s).stateOr s
  | 0x40 => (execCamCcmd n (BitVec.ofNat 32 v) s).stateOr s
  | _ => s.plainWrite a v r

/-- Writes of the CHN_ page (R366); a module that becomes the head is locked, and one that ceases to be it is not (R359). -/
def State.writeChn (s : State) (a v : Nat) (r : RSpec) : State :=
  match a % 0x10000 with
  | 0x00 =>
    let t := s.plainWrite a v r
    t.when (t.isHead != s.isHead) (fun u => u.setLock false)
  | 0x10 =>
    (match bits v 31 28 with
    | 1 => (execEnum s).stateOr s
    | 2 => (execWakeU s).stateOr s
    | 3 => (execWakeD s).stateOr s
    | _ => s)
  | 0x24 => (execChnTset (BitVec.ofNat 32 v) s).stateOr s
  | 0x38 => if bitb v 31 then (execSnapshotRequest (BitVec.ofNat 16 v) s).stateOr s else s.plainWrite a v r
  | _ => s.plainWrite a v r

/-- A drive whose probe finds nothing new: REPROBE's outcome is given by the command of that name; a register write finds
each drive as ARC_DRV shows it (log entry 53). -/
def State.probeAsIs (s : State) (d : Fin 4) : DriveProbe :=
  ⟨d, s.rd (ARC_DRV.STATE d) != 0, s.rd (ARC_DRV.STATE d) != 4, ⟨s.rd (ARC_DRV.SPEED d) % 6, Nat.mod_lt _ (by decide)⟩,
    ⟨s.rd (ARC_DRV.WIDTH d) % 5, Nat.mod_lt _ (by decide)⟩, (s.drive d).cap⟩

/-- Writes of the ARC_ page (R413). -/
def State.writeArc (s : State) (a v : Nat) (r : RSpec) : State :=
  if a % 0x10000 = 0x0C then
    match bits v 31 28 with
    | 1 => (execArchiveStart s).stateOr s
    | 2 => (execReprobe (s.probeAsIs ⟨bits v 1 0, Nat.mod_lt _ (by decide)⟩) s).stateOr s
    | _ => s
  else s.plainWrite a v r

/-- Writes of the QUE_ page by a master (R326, R335). -/
def State.writeQue (s : State) (m a v : Nat) (r : RSpec) : State :=
  let off := a % 0x10000
  if 0x100 ≤ off then
    if off < 0x140 then
      match s.queSlot m with
      | some k => s.putSlotWord k ((off - 0x100) / 4) v
      | none => s
    else s
  else s.plainWrite a v r

/-- Firmware pushes a byte for the probe (R475). -/
def State.vtPush (s : State) (v : Nat) : State :=
  if s.dbg.tx.length < 64 then { s with dbg.tx := s.dbg.tx ++ [BitVec.ofNat 8 v] } else s.bump DBG_VTSTAT.LOST

/-- Writes of the SCH_ page (R157, R176, R183, R187). -/
def State.writeSch (s : State) (a v : Nat) (r : RSpec) : State :=
  match a % 0x10000 with
  | 0x00 =>
    let t := s.wr SCH_CTL.BREACH_IE (bit v 1)
    if bitb v 0 then (if t.isOn SCH_CTL.RUN then t else (execRunSet t).stateOr t)
    else if t.isOn SCH_CTL.RUN then (execRunClear t).stateOr t else t
  | 0x20 =>
    let t := if bitb v 30 then (execAbort s).stateOr s else s
    if bitb v 31 && !t.isOn SCH_SWAP_STAT.PEND then (execSwapRequest (bitb v 2) (bitb v 1) (bitb v 0) t).stateOr t
    else t.plainWrite a v r
  | 0x70 =>
    let list : Fin 16 := ⟨bits v 9 6, Nat.mod_lt _ (by decide)⟩
    let entry : Fin 64 := ⟨bits v 5 0, Nat.mod_lt _ (by decide)⟩
    (match bits v 31 30 with
    | 1 => (execSoftcmdArm list entry s).stateOr s
    | 2 => (execSoftcmdCancel list entry s).stateOr s
    | _ => s)
  | _ => s.plainWrite a v r

/-- Writes of the RIB_ page (R113, R114, R126). -/
def State.writeRib (s : State) (a v : Nat) (r : RSpec) : State :=
  let off := a % 0x10000
  if off = 0x68 then
    let t := s.plainWrite a v r
    let t := if bitb v 31 then (execLoad t).stateOr t else t
    if bitb v 30 then (execCommit t).stateOr t else t
  else if 0x70 ≤ off then
    (execLanemapWrite ⟨(off - 0x70) / 4 % 3, Nat.mod_lt _ (by decide)⟩ (BitVec.ofNat 32 v) s).stateOr s
  else s.plainWrite a v r

/-- Writes of the LAT_ page (R60, R71, R76, R79). -/
def State.writeLat (s : State) (a v : Nat) (r : RSpec) : State :=
  let off := a % 0x10000
  if 0x10 ≤ off ∧ off < 0x30 then
    if (off - 0x10) / 8 = s.rd LAT_STAT.PTAB_ACT then s.on LAT_STAT.PTAB_WACT else s.plainWrite a v r
  else if off = 0xA0 then (if bitb v 31 then (execSpareCmd (BitVec.ofNat 8 v) s).stateOr s else s)
  else if 0xC0 ≤ off ∧ off < 0xE0 then
    (execSpareEntryWrite ⟨(off - 0xC0) / 4 % 8, Nat.mod_lt _ (by decide)⟩ (BitVec.ofNat 2 (v / 2 ^ 30)) (BitVec.ofNat 8 v)
      s).stateOr s
  else if 0xE0 ≤ off then (execSparePendClear ⟨(off - 0xE0) / 4 % 8, Nat.mod_lt _ (by decide)⟩ (BitVec.ofNat 32 v) s).stateOr s
  else s.plainWrite a v r

/-- What a write of v to the register at address a does. -/
def State.regWrite (s : State) (m a v : Nat) (r : RSpec) : State :=
  match a / 0x10000 with
  | 0x4000 => s.writeRst a v r
  | 0x4001 =>
    if a % 0x10000 = 0 then
      match bits v 31 28 with
      | 1 => (execIdle s).stateOr s
      | 2 => (execDormant s).stateOr s
      | _ => s
    else if a % 0x10000 = 0x14 then (execPwrDown (BitVec.ofNat 32 v) s).stateOr s
    else s.plainWrite a v r
  | 0x4003 => s.writeRcv a v r
  | 0x4005 => s.writeIcu a v r
  | 0x4006 => s.writeMbx m a v r
  | 0x4007 => s.writeXw a v r
  | 0x4008 => s.writeSec m a v r
  | 0x5000 => if fldIsConfig a then s.fldConfig a (named r v) else s.plainWrite a v r
  | 0x5001 => if fldIsConfig a then s.fldConfig a (named r v) else s.plainWrite a v r
  | 0x5002 => if fldIsConfig a then s.fldConfig a (named r v) else s.plainWrite a v r
  | 0x5003 => if fldIsConfig a then s.fldConfig a (named r v) else s.plainWrite a v r
  | 0x5004 => s.writeCam a v r
  | 0x6000 => s.writeChn a v r
  | 0x6001 => s.writeArc a v r
  | 0x6002 => s.writeQue m a v r
  | 0x6003 => if a % 0x10000 = 0x30 then s.vtPush v else s
  | 0x6004 => s.writeSch a v r
  | 0x6005 => s.writeRib a v r
  | 0x6006 => s.writeLat a v r
  | _ => s.plainWrite a v r

/-! Admission. -/

/-- Is the block whose page holds address a powered down (R444)? -/
def State.pageDown (s : State) (a : Nat) : Bool :=
  let p := a / 0x10000
  (decide (0x5000 ≤ p) && decide (p < 0x5004) && bitb (s.rd PWR_DOWN.FGRP) ((a - 0x50000000) / 0x8000)) ||
  (p == 0x5004 && s.isOn PWR_DOWN.CAM) || (p == 0x6001 && s.isOn PWR_DOWN.ARC)

/-- Does the MBX_ page admit an access (R313, R334, R321)? -/
def State.mbxAdmits (s : State) (m : Nat) (sec : Bool) (a : Nat) (write : Bool) : Bool :=
  let off := a % 0x10000
  let n := off / 0x100
  if 0x4000 ≤ off then decide (m < 2) && (off == 0x4000 || sec)
  else
    (decide (n < 32) || sec) &&
    (match endpointOf m with
    | none => write && off % 0x100 == 4
    | some e =>
      let k := off % 0x100
      let snd := e == s.rd (MBX_CFG.SENDER n)
      let rcv := e == s.rd (MBX_CFG.RECEIVER n)
      if k = 0 then !write || snd || rcv
      else if k = 4 then true
      else if k = 0x10 ∨ (0x40 ≤ k ∧ k < 0x80) then snd
      else rcv)

/-- Does a page admit an access of a master, with or without the secure attribute, to the register r at address a? -/
def State.admits (s : State) (m : Nat) (sec : Bool) (a : Nat) (write : Bool) (r : RSpec) : Bool :=
  !s.pageDown a && (!r.secure || sec) &&
  (match a / 0x10000 with
  | 0x4006 => s.mbxAdmits m sec a write
  | 0x6002 => decide (a % 0x10000 < 0x100) || (s.queSlot m).isSome
  | 0x6003 => [0x00, 0x20, 0x24, 0x38, 0x30, 0x34].elem (a % 0x10000)
  | _ => true)

end Sys2Proof.Machine
end

