-- ==== Sys2Proof/Machine/Bus.lean ====
section
/-! DEFINITION. Machine/Bus.lean: a matrix transaction of any master to any target (R23 to R27, R32 to R40), with the tags
that Trifle Local and Bulk carry (R274, R275); the command REGISTER_WRITE. -/

namespace Sys2Proof.Machine

/-- One 32-bit register read by a master: none for a bus error; an unassigned offset is a decode error (R26, R37). -/
def State.periphOne (s : State) (m : Nat) (sec : Bool) (a : Nat) : Option Nat × State :=
  if s.pageDown a then (none, s)
  else match specAt a with
  | none => (some 0, s.decodeErr m a false)
  | some r => if s.admits m sec a false r then let (v, t) := s.regRead m a r; (some v, t) else (none, s)

/-- A read of the peripheral buses (R27): 4 aligned bytes, or 8 aligned bytes of two assigned registers. -/
def State.periphRead (s : State) (m : Nat) (sec : Bool) (a n : Nat) : Option (List Byte) × State :=
  if n = 4 ∧ a % 4 = 0 then
    match s.periphOne m sec a with
    | (some v, t) => (some (toBytes 4 v), t)
    | (none, t) => (none, t)
  else if n = 8 ∧ a % 8 = 0 then
    if s.pageDown a then (none, s)
    else match specAt a, specAt (a + 4) with
    | some r0, some r1 =>
      if s.admits m sec a false r0 && s.admits m sec (a + 4) false r1 then
        let (v, t) := s.regRead m a r0
        let (w, u) := t.regRead m (a + 4) r1
        (some (toBytes 4 v ++ toBytes 4 w), u)
      else (none, s)
    | _, _ => (some (List.replicate 8 0), s.decodeErr m a false)
  else (none, s)

/-- Is an address that of the pair MBX_POSTn, MBX_ACKn? -/
def isPostAck (a : Nat) : Bool := a / 0x10000 == 0x4006 && decide (a % 0x10000 < 0x4000) && a % 0x100 == 0x10

/-- A write of the peripheral buses (R27); false for a bus error. The lower register is written first, but an acknowledgement takes
effect before a post of the same tc (R316). -/
def State.periphWrite (s : State) (m : Nat) (sec : Bool) (a : Nat) (bs : List Byte) : Bool × State :=
  if bs.length = 4 ∧ a % 4 = 0 then
    if s.pageDown a then (false, s)
    else match specAt a with
    | none => (true, s.decodeErr m a true)
    | some r => if s.admits m sec a true r then (true, s.regWrite m a (ofBytes bs) r) else (false, s)
  else if bs.length = 8 ∧ a % 8 = 0 then
    if s.pageDown a then (false, s)
    else match specAt a, specAt (a + 4) with
    | some r0, some r1 =>
      if s.admits m sec a true r0 && s.admits m sec (a + 4) true r1 then
        (true, if isPostAck a then (s.regWrite m (a + 4) (ofBytes (bs.drop 4)) r1).regWrite m a (ofBytes (bs.take 4)) r0
          else (s.regWrite m a (ofBytes (bs.take 4)) r0).regWrite m (a + 4) (ofBytes (bs.drop 4)) r1)
      else (false, s)
    | _, _ => (true, s.decodeErr m a true)
  else (false, s)

/-- The boot ROM's bytes. -/
def romBytes (off n : Nat) : List Byte := (upto n).map (fun i => Config.bootRomByte (off + i))

/-- A read of a memory that only cluster 0 reaches. -/
def State.localRead (s : State) (p n : Nat) : Option (List Byte) × State :=
  let (bs, evs) := s.eccRead p n
  (if evs.any GEv.ue then none else some bs, s)

/-- A write of a memory that only cluster 0 reaches; false for a bus error, which leaves it unchanged. -/
def State.localWrite (s : State) (p : Nat) (bs : List Byte) : Bool × State :=
  let (t, evs) := s.eccWrite p bs
  if evs.any GEv.ue then (false, s) else (true, t.clearTags p bs.length)

/-- One read transaction: its bytes, or none for a bus error (R37, R38). -/
def State.busRead (s : State) (m : Nat) (sec : Bool) (a n : Nat) : Option (List Byte) × State :=
  if s.inReset a then (none, s.toPort m a)
  else match s.region a with
  | .bootRom off => (if clusterOf m = 0 then some (romBytes off n) else none, s.toPort m a)
  | .tLocal p => if clusterOf m = 0 then (s.toPort m a).localRead p n else (none, s.toPort m a)
  | .toffee p => if clusterOf m = 0 then (s.toPort m a).localRead p n else (none, s.toPort m a)
  | .secure p =>
    if clusterOf m = 0 ∧ sec ∧ s.secureOpen then (s.toPort m a).localRead p n else (none, s.toPort m a)
  | .periph _ => (s.toPort m a).periphRead m sec a n
  | .bulkSpare => (none, s.toPort m a)
  | _ => s.dataRead m a n

/-- One write transaction: false for a bus error, which leaves the target unchanged (R38). -/
def State.busWrite (s : State) (m : Nat) (sec : Bool) (a : Nat) (bs : List Byte) : Bool × State :=
  if s.inReset a then (false, s.toPort m a)
  else match s.region a with
  | .bootRom _ => (false, s.toPort m a)
  | .tLocal p => if clusterOf m = 0 then (s.toPort m a).localWrite p bs else (false, s.toPort m a)
  | .toffee p => if clusterOf m = 0 then (s.toPort m a).localWrite p bs else (false, s.toPort m a)
  | .secure p =>
    if clusterOf m = 0 ∧ sec ∧ s.secureOpen then (s.toPort m a).localWrite p bs else (false, s.toPort m a)
  | .periph _ => (s.toPort m a).periphWrite m sec a bs
  | .bulkSpare => (false, s.toPort m a)
  | _ => s.dataWrite m a bs

/-- The same with the bus error counted (R38). -/
def State.busGet (s : State) (m : Nat) (sec : Bool) (a n : Nat) : Option (List Byte) × State :=
  match s.busRead m sec a n with
  | (some bs, t) => (some bs, t)
  | (none, t) => (none, t.busErr)

def State.busPut (s : State) (m : Nat) (sec : Bool) (a : Nat) (bs : List Byte) : Bool × State :=
  match s.busWrite m sec a bs with
  | (true, t) => (true, t)
  | (false, t) => (false, t.busErr)

/-- Where the tag of an address is held, if its memory holds tags (R274). -/
def State.tagAt (s : State) (a : Nat) : Option Nat :=
  match s.region a with
  | .tLocal p => some p
  | .bulk p => some p
  | _ => none

/-- REGISTER_WRITE (R8): a 4-byte write by a master, with or without the secure attribute. -/
def execRegisterWrite (master : Fin 14) (secure : Bool) (addr : BitVec 40) (value : BitVec 32) (s : State) : Res :=
  if !s.chnPowered || !transactionOk addr.toNat 4 then next s
  else match s.busPut master secure addr.toNat (toBytes 4 value.toNat) with
  | (true, t) => next (t.answer .done)
  | (false, t) => next (t.answer .busError)

end Sys2Proof.Machine
end

