-- ==== Sys2Proof/Machine/Flags.lean ====
section
/-! DEFINITION. Machine/Flags.lean: FCSR: the sticky flags and saturation (R245, R246) and the rounding mode (R248); the
comparisons' flags (R140). -/

namespace Sys2Proof.Machine

/-- FCSR.FLAGS gains flags (R246). -/
def State.raise (s : State) (fl : Nat) : State :=
  { s with tri.fcsr := BitVec.ofNat 64 (Nat.lor s.tri.fcsr.toNat (fl % 32)) }

/-- FCSR.SAT is set when b holds (R246). -/
def State.raiseSat (s : State) (b : Bool) : State :=
  if b then { s with tri.fcsr := BitVec.ofNat 64 (Nat.lor s.tri.fcsr.toNat 0x20) } else s

/-- The rounding that an rm field selects; none for a reserved code (R248). -/
def State.rounding (s : State) (rm : Nat) : Option Rnd :=
  if rm = 0 then some (rmodeOf (bits s.tri.fcsr.toNat 9 8)) else if 4 ≤ rm then some (rmodeOf (rm - 4)) else none

/-- The bits of FCSR that software writes (R245, R248). -/
def fcsrMask : Nat := 0x33F

/-- Division by zero (R93). -/
def flDZ : Nat := 8

/-- The flags of a comparison: a quiet one (EQ, UN) is invalid for a signalling NaN, another for any NaN (R140). -/
def cmpFlags (quiet : Bool) (a b : FVal) : Nat :=
  if (if quiet then a.isSNaN || b.isSNaN else a.isNaN || b.isNaN) then flNV else 0

end Sys2Proof.Machine
end

