-- ==== Sys2Proof/Machine/Trifle.lean ====
section
/-! DEFINITION. Machine/Trifle.lean: how Trifle runs one instruction: the fetch checks (R233, R280), delay slots (R239,
R241), the multiplier's writes (R235), taking a fault (R288 to R294) and an interrupt (R295 to R300), the entry stack; the
commands PRODUCT_WRITE, ILL, INTERRUPT_ENTRY, HOLD_WINDOW_END. -/

namespace Sys2Proof.Machine

/-- A fault as detected: its handler entry (R290), the C register checked, the address, whether it arose at fetch, and
whether a response in M raised it (R290, R304). -/
structure TFault where
  entry : Nat
  creg : Nat
  addr : Nat
  fetch : Bool
  late : Bool
deriving DecidableEq, Repr

def TFault.ill : TFault := ⟨2, 0, 0, false, false⟩
/-- A fault of a check in X. -/
def TFault.check (entry creg addr : Nat) : TFault := ⟨entry, creg, addr, false, false⟩
/-- A bus error on the access at an address. -/
def TFault.bus (creg addr : Nat) : TFault := ⟨4, creg, addr, false, true⟩

/-- What an instruction did. -/
inductive TRes where
  /-- It retired; the next instruction follows. -/
  | done (s : State)
  /-- It retired, holding X or M for n further tc. -/
  | slow (s : State) (n : Nat)
  /-- An RPT: it retired, and its body follows in the same unit (R260, R471). -/
  | unit (s : State)
  /-- A control transfer with a delay slot: where execution goes on, whether the slot is annulled, the tc lost. -/
  | transfer (s : State) (target : BitVec 40) (annul : Bool) (lost : Nat)
  /-- GATE, GRET or HRET: execution goes on at an address, whose first instruction reaches X after n tc. -/
  | goto (s : State) (pc : BitVec 40) (n : Nat)
  /-- It waits at its own address, having started. -/
  | wait (s : State)
  /-- It reached an interruption point: it is issued again from an address. -/
  | pause (s : State) (pc : BitVec 40)
  /-- It faults; what it has already done stays. -/
  | trap (s : State) (f : TFault)

/-- Where an instruction that needs a fault recorded stands: the address a handler returns to. -/
abbrev RetAddr := BitVec 40

/-! The handler table and the entry stack. -/

/-- Entry e of the handler table in force (R288): its two doublewords. -/
def State.tableEntry (s : State) (e : Nat) : Nat × Nat :=
  let a := tLocalBase + bits s.tri.htbUsed.toNat 20 14 * 16384 + 16 * e
  let bs := (s.eccRead a 16).1
  (ofBytes (bs.take 8), ofBytes (bs.drop 8))

/-- A valid entry (R289): GI, ENTRY and HOLD. -/
def State.validEntry (s : State) (e : Nat) : Option (Nat × Nat × Nat) :=
  let (lo, hi) := s.tableEntry e
  let gi := bits lo 43 40
  let a := bits lo 39 0
  let c := s.geIn (2 * gi)
  if bitb lo 63 && decide (hi = 0) && decide (bits lo 62 54 = 0) && c.tag && s.currentCap c && decide (c.sealv = 0) &&
    decide (c.otype = 0) && c.has permX && decide (a % 4 = 0) && c.covers a 4
  then some (gi, a, bits lo 53 44) else none

/-- Where the save area of frame d lies in Trifle Local (R294). -/
def State.saveArea (s : State) (d : Nat) : Nat := tLocalBase + bits s.tri.esbUsed.toNat 20 13 * 8192 + 256 * (d - 1)

/-- C0 to C14 are saved, with their tags (R294, R275). -/
def State.saveCaps (s : State) (a : Nat) : State :=
  (upto 15).foldl (fun t i =>
    let u := ((t.eccWrite (a + 16 * i) (toBytes 16 (s.c i).v.toNat)).1).clearTags (a + 16 * i) 16
    u.when (s.c i).tag (fun w => w.setTag (a + 16 * i))) s

/-- C0 to C14 are restored from the save area (R299). -/
def State.restoreCaps (s : State) (a : Nat) : State :=
  (upto 15).foldl (fun t i =>
    t.setC i ⟨BitVec.ofNat 128 (ofBytes (s.eccRead (a + 16 * i) 16).1), s.tagged (a + 16 * i)⟩) s

/-- What a frame saves of Trifle (R293). -/
def State.frame (s : State) (kind : FrameKind) (ret : RetAddr) (src : Option Nat) : EFrame :=
  ⟨kind, ret, s.tri.fcap, s.c 15, s.tri.mlUsed.toNat, s.tri.actl, s.tri.comp, s.tri.hold, src⟩

/-- A handler or escalation frame is pushed and the handler of GE[gi] entered at an address (R289, R293, R294): n tc pass
until its first instruction reaches X; a hold window of h tc then runs (R300). -/
def State.enter (s : State) (f : EFrame) (gi a h n : Nat) : State :=
  let t := (s.saveCaps (s.saveArea (s.tri.stack.length + 1))).tick n
  { t with tri.stack := f :: s.tri.stack
           tri.c := SMap.set (fun _ => Cap.null) [] 15 (s.geIn (2 * gi + 1))
           tri.fcap := s.geIn (2 * gi)
           tri.comp := gi
           tri.pc := BitVec.ofNat 40 a
           tri.hold := if h = 0 then none else some (t.clk + 16 * h)
           tri.slot := none
           tri.rpt := none
           tri.wait := none
           tri.entered := true
           dbg.step := false }

/-- FCAUSE and FADDR record a fault (R290, R304). -/
def State.faultRecord (s : State) (cause creg addr : Nat) (fetch esc : Bool) (tentry : Nat) : State :=
  { s with tri.fcause := BitVec.ofNat 64 (cause % 16 + creg % 16 * 2 ^ 14 + b2n fetch * 2 ^ 18 + b2n esc * 2 ^ 19 +
             tentry % 1024 * 2 ^ 20)
           tri.faddr := BitVec.ofNat 64 (addr % 2 ^ 40) }

/-- The escalation handler is entered with a frame (R292); an invalid entry 1 is a core reset. -/
def State.escalate (s : State) (f : EFrame) (n : Nat) : State :=
  match s.validEntry 1 with
  | some (gi, a, _) => s.enter { f with kind := .escalation } gi a 0 n
  | none => s.rcCore 4

/-- Trifle takes a fault, with its return address (R290 to R294). -/
def State.takeFault (s : State) (f : TFault) (ret : RetAddr) : State :=
  let s := s.tick (b2n f.late)
  let depth := s.tri.stack.length
  let fr := s.frame .handler ret none
  if s.escalated || decide (32 ≤ depth) then (s.faultRecord f.entry f.creg f.addr f.fetch true 0).rcCore 4
  else if s.tri.mlUsed != 0 then (s.faultRecord f.entry f.creg f.addr f.fetch true 0).escalate fr 14
  else if depth = 31 then (s.faultRecord 0xE f.creg f.addr f.fetch true 0).escalate fr 14
  else match s.validEntry f.entry with
  | none => (s.faultRecord 0xF f.creg f.addr f.fetch true f.entry).escalate fr 16
  | some (gi, a, h) => (s.faultRecord f.entry f.creg f.addr f.fetch false 0).enter fr gi a h 14

/-! Running one instruction. -/

/-- The checks of an instruction fetch (R280, R231, R233), through the window that REMAP selected at the last SYNC (R24). -/
def State.fetchFault (s : State) : Option TFault :=
  let a := s.tri.pc.toNat
  let c := s.tri.fcap
  let at_ (e : Nat) : Option TFault := some ⟨e, 0, a, true, false⟩
  if !(c.tag && s.currentCap c) then at_ 5
  else if !(c.sealv == 0 && c.otype == 0) then at_ 8
  else if !c.has permX then at_ 7
  else if a % 4 != 0 then at_ 3
  else if !c.covers a 4 then at_ 6
  else match regionOf s.tri.remapUsed a with
  | .bootRom _ => none
  | .tLocal _ => none
  | _ => at_ 4

/-- Can Trifle run an instruction: its slices issue, and no wait is in progress? -/
def State.triRuns (s : State) : Bool := s.triClocked && s.tri.wait.isNone

/-- The next instruction enters X: what its time brings has happened. -/
def State.beforeX (s : State) : State := s.mulDue.holdTick

/-- The instruction has retired (R218, R471). -/
def State.retire (s : State) : State :=
  { s.tick 1 with tri.insn := s.tri.insn + 1, tri.entered := false, dbg.step := false }

/-- Execution goes on after the instruction at pc: behind a delay slot, at the transfer's target (R239, R240). -/
def State.advance (s : State) : State :=
  match s.tri.slot with
  | some d => { s.tick d.lost with tri.pc := d.target, tri.slot := none }
  | none => { s with tri.pc := s.tri.pc + 4 }

/-- An annulled delay slot: a bubble (R239), which ends the step of its branch (R471). -/
def State.bubble (s : State) : State := { (s.tick 1).advance with dbg.step := false }

/-- Trifle stops at a fault (R222): the debug logic's step, if one was in progress, is over. -/
def State.stop (s : State) (f : TFault) (ret : RetAddr) : State :=
  ({ s with tri.rpt := none, dbg.step := false }).takeFault f ret

/-- The address a fault of the instruction at pc returns to: that of its control transfer in a delay slot (R241), that of
the RPT for a body (R263). -/
def State.retAddr (s : State) : RetAddr :=
  match s.tri.slot, s.tri.rpt with
  | some d, _ => d.addr
  | none, some r => r.addr
  | none, none => s.tri.pc

/-- What an instruction did takes effect. -/
def State.finish (s : State) (r : TRes) : State :=
  match r with
  | .done t => t.retire.advance
  | .slow t n => (t.retire.tick n).advance
  | .unit t => { t.retire.advance with dbg.step := s.dbg.step }
  | .transfer t a annul lost =>
    { t.retire with
      tri.pc := s.tri.pc + 4, tri.slot := some ⟨s.tri.pc, a, annul, lost⟩, dbg.step := annul && s.dbg.step }
  | .goto t a n => { t.retire.tick (n - 1) with tri.pc := a, tri.slot := none, tri.entered := true }
  | .wait t => { t.tick 1 with tri.entered := false }
  | .pause t a => { t.tick 1 with tri.pc := a, tri.entered := false, dbg.step := false }
  | .trap t f => t.stop f s.retAddr

/-- A halt that was requested takes place at a boundary: not before a delay slot or a body (R469, R197). -/
def State.tryHalt (s : State) : State :=
  if s.dbg.halting && !s.isOn DBG_STAT.HALTED && s.triClocked && s.tri.slot.isNone && s.tri.rpt.isNone then s.haltNow else s

/-- One instruction enters X. `inSlot` says whether it may stand in a delay slot (R239); an instruction that is not the
body that a started RPT holds makes the RPT ILL (R260). -/
def State.issueOne (s : State) (inSlot : Bool) (body : State → TRes) (isBody : RptBody → Bool) : State :=
  let s := s.beforeX
  match s.tri.slot with
  | some d =>
    if d.annul then (if inSlot then s.bubble else s.stop .ill d.addr)
    else match s.fetchFault with
    | some f => s.stop f d.addr
    | none => if inSlot then s.finish (body s) else s.stop .ill d.addr
  | none =>
    match s.fetchFault with
    | some f => s.stop f s.tri.pc
    | none =>
      match s.tri.rpt with
      | some r => if isBody r.body then s.finish (body s) else s.stop .ill r.addr
      | none => s.finish (body s)

/-- Trifle runs one instruction, if it runs and no halt comes first. -/
def State.trifle (s : State) (inSlot : Bool) (body : State → TRes) (isBody : RptBody → Bool := fun _ => false) : State :=
  let s := s.tryHalt
  if s.triRuns then (s.issueOne inSlot body isBody).tryHalt else s

/-- PRODUCT_WRITE (R235): the oldest write of PL and PH in flight takes place, three tc after its X. -/
def execProductWrite (s : State) : Res :=
  match s.tri.mul with
  | [] => next s
  | (due, m) :: rest =>
    if s.rcv.paused.isSome || s.isOn DBG_STAT.FROST then next s
    else
      let t := s.clkUntil due
      next { t.applyMul m with tri.mul := rest }

/-- The word at PC, through the window that fetch uses (R233). -/
def State.fetchWord (s : State) : Nat :=
  match regionOf s.tri.remapUsed s.tri.pc.toNat with
  | .bootRom off => ofBytes (romBytes off 4)
  | .tLocal p => s.num p 4
  | _ => 0

/-- ILL (R224): a reserved or ILL encoding reaches X; in a delay slot, annulled or not, one of opcodes 0x20 to 0x23 is ILL too
(R239). -/
def execIll (s : State) : Res :=
  next (s.trifle (!(decide (0x20 ≤ bits s.fetchWord 31 26) && decide (bits s.fetchWord 31 26 ≤ 0x23))) (fun t => .trap t .ill))

/-! Interrupts. -/

/-- Is a source of priority p eligible (R295)? -/
def State.eligible (s : State) (p : Nat) : Bool :=
  decide (s.tri.mlUsed.toNat ≤ p) && (decide (s.tri.actl = 0) || decide (s.tri.actl < p + 1)) && !s.held &&
    decide (s.tri.stack.length ≤ 29)

/-- Is the next instruction at a boundary (R296)? A waiting WAITEV or WAITT is. -/
def State.atBoundary (s : State) : Bool :=
  s.tri.wait.isSome || (s.tri.slot.isNone && s.tri.rpt.isNone && !s.tri.entered)

/-- May interrupts be taken: Trifle's slices issue, and a step does not mask interrupts (R471)? -/
def State.interruptible (s : State) : Bool := s.triClocked && !(s.isOn DBG_STAT.HALTED && s.isOn DBG_CTL.MASKINT)

/-- The state an interrupt saves: a WAITEV ends with result 2 and returns behind it; every other wait returns to itself
(R268, R269). -/
def State.leaveWait (s : State) : State :=
  match s.tri.wait with
  | some (.event rd _) => s.endWait rd 2
  | _ => { s with tri.wait := none }

/-- An interrupt of source n at priority p is taken (R296 to R298). -/
def State.takeInterrupt (s : State) (n p : Nat) : State :=
  let s := s.leaveWait
  let fr := s.frame .handler s.tri.pc (some n)
  let t := { s.ackSource n with tri.actl := p + 1 }
  match t.validEntry (32 + n) with
  | some (gi, a, h) => t.enter fr gi a h 14
  | none => (t.faultRecord 0xF 0 0 false true (32 + n)).escalate fr 16

/-- INTERRUPT_ENTRY (R296): the source presented, if it is eligible and Trifle stands at a boundary, is taken; its
handler's first instruction reaches X 14 tc later. -/
def execInterruptEntry (s : State) : Res :=
  let t := s.beforeX
  match t.present with
  | some (n, p) => if t.interruptible && t.atBoundary && t.eligible p then next (t.takeInterrupt n p) else next s
  | none => next s

/-- The ends of the hold windows that are open. -/
def State.windowEnds (s : State) : List Nat :=
  ((s.tri.hold.toList ++ s.tri.stack.flatMap (fun f => f.hold.toList))).filter (fun e => decide (s.clk < e))

/-- HOLD_WINDOW_END (R300): a hold window's count ends it, and HOLD_OVR is set. -/
def execHoldWindowEnd (s : State) : Res :=
  match s.windowEnds with
  | [] => next s.holdTick
  | e :: es =>
    if s.rcv.paused.isSome || s.isOn DBG_STAT.FROST then next s
    else next ((s.clkUntil (es.foldl min e)).mulDue.holdTick)

end Sys2Proof.Machine
end

