-- ==== Sys2Proof/Machine/TriCtl.lean ====
section
/-! DEFINITION. Machine/TriCtl.lean: Trifle's multiplier (R234, R235), branches and jumps (R238 to R240), special-register
moves and SYNC (R242 to R244), event instructions (R266 to R270). -/

namespace Sys2Proof.Machine

/-! Multiply. -/

/-- MULT: a write of the product register starts (R234, R235). -/
def State.mult (s : State) (ra rb : Fin 32) (op : Word → Word → MulOp) : Res :=
  next (s.trifle true (fun t => .done (t.startMul (op (t.g ra) (t.g rb)))))

/-- A signed product, truncated to 128 bits. -/
def prodSS (a b : Word) : BitVec 128 := BitVec.ofInt 128 (a.toInt * b.toInt)
def prodUU (a b : Word) : BitVec 128 := BitVec.ofNat 128 (a.toNat * b.toNat)
def prodSU (a b : Word) : BitVec 128 := BitVec.ofInt 128 (a.toInt * (b.toNat : Int))

def execMul (ra rb : Fin 32) (s : State) : Res := s.mult ra rb (fun a b => .set (prodSS a b))
def execMulu (ra rb : Fin 32) (s : State) : Res := s.mult ra rb (fun a b => .set (prodUU a b))
def execMulsu (ra rb : Fin 32) (s : State) : Res := s.mult ra rb (fun a b => .set (prodSU a b))
def execMac (ra rb : Fin 32) (s : State) : Res := s.mult ra rb (fun a b => .add (prodSS a b))
def execMacu (ra rb : Fin 32) (s : State) : Res := s.mult ra rb (fun a b => .add (prodUU a b))

/-! Branches and jumps. -/

/-- A branch target: the branch's address plus 4 times its displacement (R238). -/
def State.target (s : State) (disp : Int) : BitVec 40 := s.tri.pc + BitVec.ofInt 40 (4 * disp)

/-- A conditional branch (R238 to R240): with a set, a branch not taken annuls its slot. It is predicted taken when its
displacement is zero or less. -/
def State.branch (s : State) (taken a : Bool) (disp : Int) : TRes :=
  let predicted := decide (disp ≤ 0)
  let lost := if predicted != taken then 2 else if taken then 1 else 0
  .transfer s (if taken then s.target disp else s.tri.pc + 8) (a && !taken) lost

/-- The conditions of BCMP (R238). -/
def bcmpCond (cond : Nat) (a b : Word) : Bool :=
  match cond with
  | 0 => a == b
  | 1 => a != b
  | 2 => a.slt b
  | 3 => !a.slt b
  | 4 => a.ult b
  | _ => !a.ult b

def execBcmp (ra rb : Fin 32) (cond : Fin 6) (a : Bool) (disp : BitVec 12) (s : State) : Res :=
  next (s.trifle false (fun t => t.branch (bcmpCond cond (t.g ra) (t.g rb)) a disp.toInt))

/-- The conditions of BZ (R238). -/
def bzCond (cond : Nat) (a : Word) : Bool :=
  match cond with
  | 0 => a == 0
  | 1 => a != 0
  | 2 => a.slt 0
  | 3 => !a.slt 0
  | 4 => (0 : Word).slt a
  | _ => !(0 : Word).slt a

def execBz (ra : Fin 32) (cond : Fin 6) (a : Bool) (disp : BitVec 17) (s : State) : Res :=
  next (s.trifle false (fun t => t.branch (bzCond cond (t.g ra)) a disp.toInt))

/-- The link: the address of the instruction after the slot (R238). -/
def State.link (s : State) (rd : Fin 32) : State := s.setG rd ((s.tri.pc + 8).setWidth 64)

def execJal (rd : Fin 32) (disp : BitVec 21) (s : State) : Res :=
  next (s.trifle false (fun t => .transfer (t.link rd) (t.target disp.toInt) false 1))

/-- JALR (R238): rd = ra other than G0 is ILL; a misaligned target is MIS, and nothing is written. -/
def execJalr (rd ra : Fin 32) (imm : BitVec 16) (s : State) : Res :=
  next (s.trifle false (fun t =>
    let a := (t.g ra + imm.signExtend 64).truncate 40
    if rd = ra ∧ rd ≠ 0 then .trap t .ill
    else if a.toNat % 4 ≠ 0 then .trap t (.check 3 0 a.toNat)
    else .transfer (t.link rd) a false 1))

/-! Special registers and SYNC. -/

def execSpecNop (s : State) : Res := next (s.trifle true .done)

/-- A waiting control-register write is applied (R244). -/
def State.applyCtl (s : State) (w : CtlWrite) : State :=
  match w with
  | .htb v => { s with tri.htbUsed := BitVec.ofNat 64 v }
  | .esb v => { s with tri.esbUsed := BitVec.ofNat 64 v }
  | .ml v => { s with tri.mlUsed := BitVec.ofNat 64 v }
  | .epr k v => { s with tri.epr := SMap.set (fun _ => 0) s.tri.epr k v }
  | .ge i c => { s with tri.geUsed := SMap.set (fun _ => Cap.null) s.tri.geUsed i c }
  | .fcause v => { s with tri.fcause := BitVec.ofNat 64 v }
  | .faddr v => { s with tri.faddr := BitVec.ofNat 64 v }

/-- SYNC (R243, R244): every waiting control-register write is applied, in order, and fetch uses the window that REMAP selects;
it costs 4 tc. -/
def execSync (s : State) : Res :=
  next (s.trifle false (fun t =>
    .slow { t.tri.waiting.foldl State.applyCtl t with tri.waiting := [], tri.remapUsed := t.isOn XW_CTL.REMAP } 3))

/-- MFSR (R242, R218). -/
def execMfsr (g : Fin 32) (sr : BitVec 8) (s : State) : Res :=
  next (s.trifle true (fun t =>
    let n := sr.toNat
    if n = 2 then let (v, u) := t.readCt; .done (u.setGN g v)
    else if n = 3 then .done (t.setGN g (t.clk / 16))
    else if n = 4 then .done (t.setG g t.tri.insn)
    else if (spMask n).isSome then .done (t.setG g (t.sp n))
    else .trap t .ill))

/-- MTSR (R242, R218): PL and PH follow the multiplier's timing (R235). -/
def execMtsr (g : Fin 32) (sr : BitVec 8) (s : State) : Res :=
  next (s.trifle true (fun t =>
    let n := sr.toNat
    if n = spPL then .done (t.startMul (.low (t.g g)))
    else if n = spPH then .done (t.startMul (.high (t.g g)))
    else match spMask n with
    | some m => .done (t.setSp n (Nat.land (t.g g).toNat m))
    | none => .trap t .ill))

/-! Events and timed waits. -/

/-- WAITEV (R268): EV ends it at once and clears; a limit that CT has reached ends it with result 1; else it waits. -/
def execWaitev (rd ra : Fin 32) (s : State) : Res :=
  next (s.trifle false (fun t =>
    let limit := if ra = 0 then none else some (t.g ra).toNat
    if t.tri.ev then .done ({ t.setGN rd 0 with tri.ev := false })
    else
      let (v, u) := t.readCt
      if limit.any (fun l => decide (l ≤ v)) then .done (u.setGN rd 1)
      else .wait { t with tri.wait := some (.event rd limit) }))

/-- Time passes until CT has reached a limit: the value of CT that reached it (R21, R269). -/
def State.ctUntil (s : State) (limit : Nat) : Nat × State :=
  let (x, t) := s.fresh 8
  let lag := 2 + x % 5
  let u := t.until (16 * (limit + lag))
  let v := max u.tri.ctLast (u.now - lag)
  (v, { u with tri.ctLast := v })

/-- WAITEV_LIMIT (R268): CT reaches the limit of a waiting WAITEV, which ends with result 1; EV is unchanged. An EV that is set
prevails: it ends the wait with result 0. -/
def execWaitevLimit (s : State) : Res :=
  match s.tri.wait with
  | some (.event rd (some l)) =>
    if !s.triClocked then next s else if s.tri.ev then next s.waitCheck else next ((s.ctUntil l).2.endWait rd 1)
  | _ => next s

/-- SIGEV (R267): an event to Trifle (0), the Chain Controller (1) or the Archive processor (2). -/
def execSigev (tgt : Fin 3) (s : State) : Res :=
  next (s.trifle false (fun t => .done (if tgt = 0 then { t with tri.ev := true } else t)))

/-- WAITT (R269): ends at once with CT when CT has reached the instant, else waits. -/
def execWaitt (rd ra : Fin 32) (s : State) : Res :=
  next (s.trifle false (fun t =>
    let (v, u) := t.readCt
    if (t.g ra).toNat ≤ v then .done (u.setGN rd v) else .wait { t with tri.wait := some (.time rd (t.g ra).toNat) }))

/-- WAITT_END (R269): CT reaches the instant, and G[rd] takes the value that ended the wait. -/
def execWaittEnd (s : State) : Res :=
  match s.tri.wait with
  | some (.time rd l) =>
    if s.triClocked then let (v, t) := s.ctUntil l; next (t.endWait rd v) else next s
  | _ => next s

end Sys2Proof.Machine
end

