-- ==== Sys2Proof/Machine/TriMem.lean ====
section
/-! DEFINITION. Machine/TriMem.lean: Trifle's data accesses through capabilities (R228 to R231), its loads and stores, and
its atomics (R232). -/

namespace Sys2Proof.Machine

/-- The first byte of a range that a capability does not cover. -/
def Cap.firstBad (c : Cap) (ea : Int) : Int := if ea < c.base then ea else max ea (c.base + c.len : Nat)

/-- The checks of an access of n bytes at ea through C[cb], in order (R229): the permissions needed, and the alignment where
one is required (1 where none is). -/
def State.capCheck (s : State) (cb : Nat) (need : List Nat) (align n : Nat) (ea : Int) : Option TFault :=
  let c := s.c cb
  let at_ (e : Nat) (a : Int) : Option TFault := some (.check e cb (a % 2 ^ 40).toNat)
  if !(c.tag && s.currentCap c) then at_ 5 ea
  else if !(c.sealv == 0 && c.otype == 0) then at_ 8 ea
  else if !need.all c.has then at_ 7 ea
  else if ea % align ≠ 0 then at_ 3 ea
  else if ea < c.base ∨ (c.base + c.len : Nat) < ea + n then at_ 6 (c.firstBad ea)
  else none

/-- The two parts of an access that is not a multiple of its size, or the whole of one that is (R230). -/
def splitParts (a n : Nat) : List (Nat × Nat) :=
  if a % n = 0 then [(a, n)] else let b := (a / n + 1) * n; [(a, b - a), (b, a + n - b)]

/-- Is an access one part of a split one, to a peripheral register: it receives a bus error whatever its size (R27)? -/
def State.splitBad (s : State) (split : Bool) (a : Nat) : Bool :=
  split && (match s.region a with | .periph _ => true | _ => false)

/-- Read parts in order, each a transaction (R230); a bus error ends it. `split` says that the access has been split. -/
def State.readParts (s : State) (cb : Nat) (split : Bool) : List (Nat × Nat) → Except TFault (List Byte) × State
  | [] => (.ok [], s)
  | (a, n) :: rest =>
    if s.splitBad split a then (.error (.bus cb a), (s.toPort 0 a).busErr)
    else match s.busGet 0 ((s.c cb).has permSEC) a n with
    | (none, t) => (.error (.bus cb a), t)
    | (some bs, t) =>
      match t.readParts cb split rest with
      | (.ok r, u) => (.ok (bs ++ r), u)
      | (.error f, u) => (.error f, u)

/-- Write parts in order (R230); a bus error ends it, and what was written stays. -/
def State.writeParts (s : State) (cb : Nat) (split : Bool) : List (Nat × Nat) → List Byte → Option TFault × State
  | [], _ => (none, s)
  | (a, n) :: rest, bs =>
    if s.splitBad split a then (some (.bus cb a), (s.toPort 0 a).busErr)
    else match s.busPut 0 ((s.c cb).has permSEC) a (bs.take n) with
    | (false, t) => (some (.bus cb a), t)
    | (true, t) => t.writeParts cb split rest (bs.drop n)

/-- Read n bytes at ea through C[cb] (R228 to R230): their value, or the fault. -/
def State.loadVal (s : State) (cb n : Nat) (ea : Int) : Except TFault Nat × State :=
  match s.capCheck cb [permR] 1 n ea with
  | some f => (.error f, s)
  | none =>
    match s.readParts cb (ea.toNat % n != 0) (splitParts ea.toNat n) with
    | (.ok bs, t) => (.ok (ofBytes bs), t)
    | (.error f, t) => (.error f, t)

/-- Write the low n bytes of a value at ea through C[cb] (R228 to R230); the fault, if one arose. -/
def State.storeVal (s : State) (cb n : Nat) (ea : Int) (v : Nat) : Option TFault × State :=
  match s.capCheck cb [permW] 1 n ea with
  | some f => (some f, s)
  | none => s.writeParts cb (ea.toNat % n != 0) (splitParts ea.toNat n) (toBytes n v)

/-- Read a value and go on with it. -/
def State.loadFrom (s : State) (cb n : Nat) (ea : Int) (k : State → Nat → TRes) : TRes :=
  match s.loadVal cb n ea with
  | (.ok v, t) => k t v
  | (.error f, t) => .trap t f

/-- Write a value and go on. -/
def State.storeTo (s : State) (cb n : Nat) (ea : Int) (v : Nat) (k : State → TRes) : TRes :=
  match s.storeVal cb n ea v with
  | (none, t) => k t
  | (some f, t) => .trap t f

/-- The address of a load or store (R228), exact. -/
def State.ea (s : State) (cb ra : Nat) (imm : Int) (n : Nat) : Int :=
  ((s.c cb).base : Int) + ((s.g ra).toNat : Int) + imm * (n : Int)

/-- The tc that an access of n bytes at a holds M for, beyond one: a split access of Trifle Local takes one more (R230). -/
def State.splitTc (s : State) (a n : Nat) : Nat :=
  match s.region a with
  | .tLocal _ => if a % n = 0 then 0 else 1
  | _ => 0

/-- A load of n bytes at C[cb].base + G[ra] + imm × n, and what is done with the value (R228). -/
def State.loadWith (s : State) (ra : Fin 32) (cb : Fin 16) (imm : BitVec 9) (n : Nat) (k : State → Nat → State) : Res :=
  next (s.trifle true (fun t =>
    let ea := t.ea cb ra imm.toInt n
    t.loadFrom cb n ea (fun u v => .slow (k u v) (t.splitTc ea.toNat n))))

/-- A store of the low n bytes of a value at C[cb].base + G[ra] + imm × n (R228). -/
def State.storeOf (s : State) (ra : Fin 32) (cb : Fin 16) (imm : BitVec 9) (n : Nat) (v : State → Word) : Res :=
  next (s.trifle true (fun t =>
    let ea := t.ea cb ra imm.toInt n
    t.storeTo cb n ea (v t).toNat (fun u => .slow u (t.splitTc ea.toNat n))))

/-- A load of n bytes into G[rd], extended as `ext` says. -/
def State.load (s : State) (rd ra : Fin 32) (cb : Fin 16) (imm : BitVec 9) (n : Nat) (ext : Nat → Nat) : Res :=
  s.loadWith ra cb imm n (fun u v => u.setGN rd (ext v))

/-- A store of the low n bytes of G[rs]. -/
def State.store (s : State) (rs ra : Fin 32) (cb : Fin 16) (imm : BitVec 9) (n : Nat) : Res :=
  s.storeOf ra cb imm n (fun t => t.g rs)

/-- A w-bit value, sign-extended to 64 bits. -/
def sext64 (w x : Nat) : Nat := ofInt (asInt x w) 64

def execLb (rd ra : Fin 32) (cb : Fin 16) (imm : BitVec 9) (s : State) : Res := s.load rd ra cb imm 1 (sext64 8)
def execLbu (rd ra : Fin 32) (cb : Fin 16) (imm : BitVec 9) (s : State) : Res := s.load rd ra cb imm 1 id
def execLh (rd ra : Fin 32) (cb : Fin 16) (imm : BitVec 9) (s : State) : Res := s.load rd ra cb imm 2 (sext64 16)
def execLhu (rd ra : Fin 32) (cb : Fin 16) (imm : BitVec 9) (s : State) : Res := s.load rd ra cb imm 2 id
def execLw (rd ra : Fin 32) (cb : Fin 16) (imm : BitVec 9) (s : State) : Res := s.load rd ra cb imm 4 (sext64 32)
def execLwu (rd ra : Fin 32) (cb : Fin 16) (imm : BitVec 9) (s : State) : Res := s.load rd ra cb imm 4 id
def execLd (rd ra : Fin 32) (cb : Fin 16) (imm : BitVec 9) (s : State) : Res := s.load rd ra cb imm 8 id
def execSb (rs ra : Fin 32) (cb : Fin 16) (imm : BitVec 9) (s : State) : Res := s.store rs ra cb imm 1
def execSh (rs ra : Fin 32) (cb : Fin 16) (imm : BitVec 9) (s : State) : Res := s.store rs ra cb imm 2
def execSw (rs ra : Fin 32) (cb : Fin 16) (imm : BitVec 9) (s : State) : Res := s.store rs ra cb imm 4
def execSd (rs ra : Fin 32) (cb : Fin 16) (imm : BitVec 9) (s : State) : Res := s.store rs ra cb imm 8

/-! Atomics (R232). -/

/-- Does a window support atomics? The Bulk window takes in the spare area, where the transaction receives its bus error (R38). -/
def Region.atomicOk : Region → Bool
  | .tLocal _ => true
  | .toffee _ => true
  | .secure _ => true
  | .bulk _ => true
  | .bulkSpare => true
  | _ => false

/-- An atomic at C[cb].base + G[ra] on 8 bytes, or 4 with w: memory becomes a function of the width in bits, the old value,
G[rb] and G[rd]; G[rd] takes the old value. The read and the write are one transaction. -/
def State.atomicAt (s : State) (rd ra rb cb : Nat) (w : Bool) (f : Nat → Nat → Nat → Nat → Nat) : TRes :=
  let n := if w then 4 else 8
  let ea := s.ea cb ra 0 n
  let sec := (s.c cb).has permSEC
  match s.capCheck cb [permR, permW] n n ea with
  | some x => .trap s x
  | none =>
    if !(s.region ea.toNat).atomicOk then .trap s (.bus cb ea.toNat)
    else match s.busGet 0 sec ea.toNat n with
    | (none, t) => .trap t (.bus cb ea.toNat)
    | (some bs, t) =>
      let old := ofBytes bs
      match t.busPut 0 sec ea.toNat (toBytes n (f (8 * n) old (s.g rb).toNat (s.g rd).toNat)) with
      | (false, u) => .trap u (.bus cb ea.toNat)
      | (true, u) => .slow ({ u with credit := t.credit, xw.turn := t.xw.turn }.setGN rd (if w then sext64 32 old else old)) 1

/-- An atomic command. -/
def State.atomic (s : State) (rd ra rb : Fin 32) (cb : Fin 16) (w : Bool) (f : Nat → Nat → Nat → Nat → Nat) : Res :=
  next (s.trifle true (fun t => t.atomicAt rd ra rb cb w f))

def execAtomicSwap (rd ra rb : Fin 32) (cb : Fin 16) (w : Bool) (s : State) : Res := s.atomic rd ra rb cb w (fun _ _ b _ => b)
def execAtomicAdd (rd ra rb : Fin 32) (cb : Fin 16) (w : Bool) (s : State) : Res :=
  s.atomic rd ra rb cb w (fun _ o b _ => o + b)
def execAtomicAnd (rd ra rb : Fin 32) (cb : Fin 16) (w : Bool) (s : State) : Res :=
  s.atomic rd ra rb cb w (fun _ o b _ => Nat.land o b)
def execAtomicOr (rd ra rb : Fin 32) (cb : Fin 16) (w : Bool) (s : State) : Res :=
  s.atomic rd ra rb cb w (fun _ o b _ => Nat.lor o b)
def execAtomicXor (rd ra rb : Fin 32) (cb : Fin 16) (w : Bool) (s : State) : Res :=
  s.atomic rd ra rb cb w (fun _ o b _ => Nat.xor o b)
def execAtomicMin (rd ra rb : Fin 32) (cb : Fin 16) (w : Bool) (s : State) : Res :=
  s.atomic rd ra rb cb w (fun k o b _ => if asInt b k < asInt o k then b else o)
def execAtomicMax (rd ra rb : Fin 32) (cb : Fin 16) (w : Bool) (s : State) : Res :=
  s.atomic rd ra rb cb w (fun k o b _ => if asInt o k < asInt b k then b else o)
def execAtomicMinu (rd ra rb : Fin 32) (cb : Fin 16) (w : Bool) (s : State) : Res :=
  s.atomic rd ra rb cb w (fun k o b _ => min o (b % 2 ^ k))
def execAtomicMaxu (rd ra rb : Fin 32) (cb : Fin 16) (w : Bool) (s : State) : Res :=
  s.atomic rd ra rb cb w (fun k o b _ => max o (b % 2 ^ k))
def execCas (rd ra rb : Fin 32) (cb : Fin 16) (w : Bool) (s : State) : Res :=
  s.atomic rd ra rb cb w (fun k o b d => if o = d % 2 ^ k then b else o)

end Sys2Proof.Machine
end

