-- ==== Sys2Proof/Machine/TriFp.lean ====
section
/-! DEFINITION. Machine/TriFp.lean: Trifle's floating-point instructions (R245 to R252). The field p selects binary32
(false) or binary64 (true). -/

namespace Sys2Proof.Machine

/-- The format that p selects (R248). -/
def fmtOf (p : Bool) : Fmt := if p then fmt64 else fmt32

/-- An F operand in a precision (R245). -/
def State.fop (s : State) (p : Bool) (r : Nat) : Nat := if p then (s.f r).toNat else (s.f r).toNat % 2 ^ 32

/-- F[r] takes a result, with its flags (R245, R246). -/
def State.putF (s : State) (r : Nat) (x : Nat × Nat) : State := (s.setF r x.1).raise x.2

/-- An instruction that rounds: ILL for a reserved rm (R248). -/
def State.rounded (s : State) (rm : BitVec 3) (k : State → Rnd → State) : Res :=
  next (s.trifle true (fun t =>
    match t.rounding rm.toNat with
    | some m => .done (k t m)
    | none => .trap t .ill))

/-- An instruction that does not round. -/
def State.plain (s : State) (k : State → State) : Res := next (s.trifle true (fun t => .done (k t)))

/-! FOP and FMA. -/

def execFadd (fd fa fb : Fin 32) (p : Bool) (rm : BitVec 3) (s : State) : Res :=
  s.rounded rm (fun t m => t.putF fd (fadd (fmtOf p) m false (t.fop p fa) (t.fop p fb)))
def execFsub (fd fa fb : Fin 32) (p : Bool) (rm : BitVec 3) (s : State) : Res :=
  s.rounded rm (fun t m => t.putF fd (fsub (fmtOf p) m false (t.fop p fa) (t.fop p fb)))
def execFmul (fd fa fb : Fin 32) (p : Bool) (rm : BitVec 3) (s : State) : Res :=
  s.rounded rm (fun t m => t.putF fd (fmul (fmtOf p) m false (t.fop p fa) (t.fop p fb)))

/-- A minimum or maximum (R248, R139). -/
def State.fpick (s : State) (fd fa fb : Fin 32) (p max num : Bool) : Res :=
  s.plain (fun t => t.putF fd (fminmax (fmtOf p) false max num (t.fop p fa) (t.fop p fb)))

def execFmin (fd fa fb : Fin 32) (p : Bool) (s : State) : Res := s.fpick fd fa fb p false false
def execFmax (fd fa fb : Fin 32) (p : Bool) (s : State) : Res := s.fpick fd fa fb p true false
def execFminn (fd fa fb : Fin 32) (p : Bool) (s : State) : Res := s.fpick fd fa fb p false true
def execFmaxn (fd fa fb : Fin 32) (p : Bool) (s : State) : Res := s.fpick fd fa fb p true true

/-- FABS (R248): the sign bit is cleared. -/
def execFabs (fd fa : Fin 32) (p : Bool) (s : State) : Res :=
  s.plain (fun t => t.setF fd (t.fop p fa % 2 ^ ((fmtOf p).w - 1)))

/-- FNEG (R248): the sign bit is inverted. -/
def execFneg (fd fa : Fin 32) (p : Bool) (s : State) : Res :=
  s.plain (fun t => t.setF fd (Nat.xor (t.fop p fa) (2 ^ ((fmtOf p).w - 1))))

/-! Estimates (R250). -/

/-- The pattern of ±n / 256 × 2^k for n from 256 to 511: infinite above the largest finite magnitude, zero below the
smallest normal one. -/
def estPattern (f : Fmt) (neg : Bool) (n : Nat) (k : Int) : Nat :=
  let field := k + (2 ^ (f.eb - 1) - 1 : Nat)
  if (f.emaxField : Int) ≤ field then f.inf neg
  else if field ≤ 0 then f.sgn neg
  else f.sgn neg + field.toNat * 2 ^ (f.p - 1) + (n - 256) * 2 ^ (f.p - 9)

/-- The significand of a finite nonzero value normalised to p bits, and its exponent e (1 ≤ m < 2). -/
def normMant (f : Fmt) (m : Nat) (e : Int) : Nat × Int := (m * 2 ^ (f.p - 1 - Nat.log2 m), e + (Nat.log2 m : Int))

/-- rnd8(2 / mm) × 256 with mm = 1 + (2i + 1) / 256: 131072 / (257 + 2i) rounded; the divisor is odd, so there is no tie. -/
def recipEst (i : Nat) : Nat := (262144 + (257 + 2 * i)) / (2 * (257 + 2 * i))

/-- rnd8(2 / sqrt(mm)) × 256 with mm = (129 + 2i) / 128 × 2^t: the greatest n from 256 with (2n − 1)² (129 + 2i) 2^t ≤ 2^27; no
tie can occur. -/
def rsqrtEst (i t : Nat) : Nat :=
  255 + ((upto 256).filter (fun k => decide ((2 * (256 + k) - 1) ^ 2 * ((129 + 2 * i) * 2 ^ t) ≤ 2 ^ 27))).length

/-- FRSTEP (R250): result and flags. -/
def frstep (f : Fmt) (x : Nat) : Nat × Nat :=
  match fdec f false x with
  | .nan sn => (f.nan, if sn then flNV else 0)
  | .inf neg => (f.sgn neg, 0)
  | .fin neg m e =>
    if m = 0 then (f.inf neg, flDZ)
    else
      let (q, ex) := normMant f m e
      (estPattern f neg (recipEst (bits q (f.p - 2) (f.p - 8))) (-ex - 1), 0)

/-- FSQSTEP (R250): result and flags. -/
def fsqstep (f : Fmt) (x : Nat) : Nat × Nat :=
  match fdec f false x with
  | .nan sn => (f.nan, if sn then flNV else 0)
  | .inf neg => if neg then (f.nan, flNV) else (0, 0)
  | .fin neg m e =>
    if m = 0 then (f.inf neg, flDZ)
    else if neg then (f.nan, flNV)
    else
      let (q, ex) := normMant f m e
      let t := (ex % 2).toNat
      (estPattern f false (rsqrtEst (bits q (f.p - 2) (f.p - 7)) t) (-((ex - t) / 2) - 1), 0)

def execFrstep (fd fa : Fin 32) (p : Bool) (rm : BitVec 3) (s : State) : Res :=
  s.rounded rm (fun t _ => t.putF fd (frstep (fmtOf p) (t.fop p fa)))
def execFsqstep (fd fa : Fin 32) (p : Bool) (rm : BitVec 3) (s : State) : Res :=
  s.rounded rm (fun t _ => t.putF fd (fsqstep (fmtOf p) (t.fop p fa)))

/-- FMA (R248, R137): the product negated with negp, the addend with negc; one rounding. -/
def execFma (fd fa fb fc : Fin 32) (negp negc p : Bool) (rm : BitVec 3) (s : State) : Res :=
  s.rounded rm (fun t m =>
    let dec (r : Nat) (neg : Bool) : FVal := let v := fdec (fmtOf p) false (t.fop p r); if neg then v.flip else v
    t.putF fd (ffmaV (fmtOf p) m false (dec fa negp) (dec fb false) (dec fc negc)))

/-! Memory (R248). -/

def State.fload (s : State) (f ra : Fin 32) (cb : Fin 16) (imm : BitVec 9) (n : Nat) : Res :=
  s.loadWith ra cb imm n (fun u v => u.setF f v)
def State.fstore (s : State) (f ra : Fin 32) (cb : Fin 16) (imm : BitVec 9) (n : Nat) : Res :=
  s.storeOf ra cb imm n (fun t => t.f f)

def execFlw (f ra : Fin 32) (cb : Fin 16) (imm : BitVec 9) (s : State) : Res := s.fload f ra cb imm 4
def execFld (f ra : Fin 32) (cb : Fin 16) (imm : BitVec 9) (s : State) : Res := s.fload f ra cb imm 8
def execFsw (f ra : Fin 32) (cb : Fin 16) (imm : BitVec 9) (s : State) : Res := s.fstore f ra cb imm 4
def execFsd (f ra : Fin 32) (cb : Fin 16) (imm : BitVec 9) (s : State) : Res := s.fstore f ra cb imm 8

/-! Moves and conversions (R248, R249). -/

def execFmv (d r : Fin 32) (s : State) : Res := s.plain (fun t => t.setF d (t.f r).toNat)
def execFmvxf (d r : Fin 32) (s : State) : Res := s.plain (fun t => t.setG d (t.f r))
def execFmvfx (d r : Fin 32) (s : State) : Res := s.plain (fun t => t.setF d (t.g r).toNat)

/-- FCVTFF (R248): from precision p to the other; to binary64 it does not round, and rm must be 0. -/
def execFcvtff (d r : Fin 32) (p : Bool) (rm : BitVec 3) (s : State) : Res :=
  next (s.trifle true (fun t =>
    match t.rounding rm.toNat with
    | some m => if !p && rm != 0 then .trap t .ill else .done (t.putF d (fcvt (fmtOf p) (fmtOf !p) m false (t.fop p r)))
    | none => .trap t .ill))

def execFcvtfs (d r : Fin 32) (p : Bool) (rm : BitVec 3) (s : State) : Res :=
  s.rounded rm (fun t m => t.putF d (itof (fmtOf p) m 0 (t.g r).toInt))
def execFcvtfu (d r : Fin 32) (p : Bool) (rm : BitVec 3) (s : State) : Res :=
  s.rounded rm (fun t m => t.putF d (itof (fmtOf p) m 0 ((t.g r).toNat : Int)))

/-- A conversion to a 64-bit integer in [lo, hi] (R249, R141). -/
def State.fToInt (s : State) (d r : Fin 32) (p : Bool) (rm : BitVec 3) (lo hi : Int) : Res :=
  s.rounded rm (fun t m =>
    let (v, fl) := ftoi (fmtOf p) m false 0 lo hi 0 (t.fop p r)
    (t.setGN d (ofInt v 64)).raise fl)

def execFcvtsf (d r : Fin 32) (p : Bool) (rm : BitVec 3) (s : State) : Res := s.fToInt d r p rm (-(2 ^ 63)) (2 ^ 63 - 1)
def execFcvtuf (d r : Fin 32) (p : Bool) (rm : BitVec 3) (s : State) : Res := s.fToInt d r p rm 0 (2 ^ 64 - 1)

/-- The class of a pattern (R251), as a bit number. -/
def fclassBit (f : Fmt) (x : Nat) : Nat :=
  match fdec f false x with
  | .nan sn => if sn then 8 else 9
  | .inf neg => if neg then 0 else 7
  | .fin neg m _ =>
    if m = 0 then (if neg then 3 else 4)
    else if m < 2 ^ (f.p - 1) then (if neg then 2 else 5)
    else if neg then 1 else 6

def execFclass (d r : Fin 32) (p : Bool) (s : State) : Res :=
  s.plain (fun t => t.setGN d (2 ^ fclassBit (fmtOf p) (t.fop p r)))
def execFrcsr (d : Fin 32) (s : State) : Res := s.plain (fun t => t.setG d t.tri.fcsr)
def execFwcsr (r : Fin 32) (s : State) : Res :=
  s.plain (fun t => { t with tri.fcsr := BitVec.ofNat 64 (Nat.land (t.g r).toNat fcsrMask) })

/-- FCMP (R248, R140): EQ, LT, LE, UN. -/
def execFcmp (rd fa fb : Fin 32) (cond : Fin 4) (p : Bool) (s : State) : Res :=
  s.plain (fun t =>
    let a := fdec (fmtOf p) false (t.fop p fa)
    let b := fdec (fmtOf p) false (t.fop p fb)
    let r := fcmpV a b
    let holds := match cond with
      | 0 => r == .eq
      | 1 => r == .lt
      | 2 => r == .lt || r == .eq
      | 3 => r == .un
    (t.setGN rd (b2n holds)).raise (cmpFlags (cond == 0 || cond == 3) a b))

end Sys2Proof.Machine
end

