-- ==== Sys2Proof/Machine/TriCap.lean ====
section
/-! DEFINITION. Machine/TriCap.lean: Trifle's capability instructions (R275, R276, R281, R282), gates and returns (R286,
R287, R299, R300) and system instructions (R303, R304). -/

namespace Sys2Proof.Machine

/-! Capability memory (R276). -/

/-- CAPLD (R276): the stored tag stays if its memory holds tags and C[cb] has TL. -/
def execCapld (cd : Fin 16) (ra : Fin 32) (cb : Fin 16) (imm : BitVec 12) (s : State) : Res :=
  next (s.trifle true (fun t =>
    let ea := t.ea cb ra imm.toInt 16
    match t.capCheck cb [permR] 16 16 ea with
    | some f => .trap t f
    | none =>
      match t.readParts cb false [(ea.toNat, 16)] with
      | (.error f, u) => .trap u f
      | (.ok bs, u) =>
        let tag := match t.tagAt ea.toNat with | some p => t.tagged p && (t.c cb).has permTL | none => false
        .done (u.setC cd ⟨BitVec.ofNat 128 (ofBytes bs), tag⟩)))

/-- CAPST (R276, R275): a tagged capability needs TS; the granule's tag follows where the memory holds tags. -/
def execCapst (cd : Fin 16) (ra : Fin 32) (cb : Fin 16) (imm : BitVec 12) (s : State) : Res :=
  next (s.trifle true (fun t =>
    let ea := t.ea cb ra imm.toInt 16
    let c := t.c cd
    match t.capCheck cb [permW] 16 16 ea with
    | some f => .trap t f
    | none =>
      if c.tag && !(t.c cb).has permTS then .trap t (.check 7 cb ea.toNat)
      else match t.writeParts cb false [(ea.toNat, 16)] (toBytes 16 c.v.toNat) with
      | (some f, u) => .trap u f
      | (none, u) =>
        match u.tagAt ea.toNat with
        | some p => .done (u.when c.tag (fun w => w.setTag p))
        | none => .done u))

/-! CAPOP (R281, R282). -/

/-- Checks in order: each a failure's handler entry and the C register checked. -/
def firstFault : List (Bool × Nat × Nat) → Option TFault
  | [] => none
  | (ok, e, cr) :: rest => if ok then firstFault rest else some (.check e cr 0)

/-- C[cd] takes a derived capability, if the checks pass. -/
def State.derive (s : State) (cd : Fin 16) (checks : State → List (Bool × Nat × Nat)) (c : State → Cap) : Res :=
  next (s.trifle true (fun t =>
    match firstFault (checks t) with
    | some f => .trap t f
    | none => .done (t.setC cd (c t))))

/-- Tagged and current; unsealed (R281). -/
def State.openChecks (s : State) (cs : Fin 16) : List (Bool × Nat × Nat) :=
  let c := s.c cs
  [(c.tag && s.currentCap c, 5, cs), (c.sealv == 0, 8, cs)]

/-- A capability with other bounds. -/
def Cap.withRange (c : Cap) (base len : Nat) : Cap := .make base len c.perm c.otype c.sealv c.epoch c.tag
def Cap.withPerm (c : Cap) (p : Nat) : Cap := .make c.base c.len p c.otype c.sealv c.epoch c.tag
def Cap.withSeal (c : Cap) (v : Nat) : Cap := .make c.base c.len c.perm c.otype v c.epoch c.tag
def Cap.withEpoch (c : Cap) (e : Nat) : Cap := .make c.base c.len c.perm c.otype c.sealv e c.tag

def execCapmv (cd cs : Fin 16) (s : State) : Res := s.derive cd (fun _ => []) (fun t => t.c cs)
def execCapnul (cd : Fin 16) (s : State) : Res := s.derive cd (fun _ => []) (fun _ => Cap.null)

def execCapsub (cd cs : Fin 16) (ra rb : Fin 32) (s : State) : Res :=
  s.derive cd
    (fun t => t.openChecks cs ++ [(decide ((t.g ra).toNat + (t.g rb).toNat ≤ (t.c cs).len), 6, cs.val)])
    (fun t => (t.c cs).withRange ((t.c cs).base + (t.g ra).toNat) (t.g rb).toNat)

def execCaprst (cd cs : Fin 16) (ra : Fin 32) (s : State) : Res :=
  s.derive cd (fun t => t.openChecks cs) (fun t => (t.c cs).withPerm (Nat.land (t.c cs).perm (t.g ra).toNat))

/-- The checks on a sealer (R282), with the permission needed and check 4. -/
def State.sealerChecks (s : State) (ck : Fin 16) (perm : Nat) (range : Bool) : List (Bool × Nat × Nat) :=
  let c := s.c ck
  [(c.tag && s.currentCap c, 5, ck), (c.sealv == 0 && c.otype == 6, 8, ck), (c.has perm, 7, ck), (range, 6, ck)]

def execCapseal (cd cs ck : Fin 16) (s : State) : Res :=
  s.derive cd
    (fun t => t.openChecks cs ++ t.sealerChecks ck permSEAL
      (decide (1 ≤ (t.c ck).len) && decide (1 ≤ (t.c ck).base) && decide ((t.c ck).base ≤ 4095)))
    (fun t => (t.c cs).withSeal (t.c ck).base)

def execCapopen (cd cs ck : Fin 16) (s : State) : Res :=
  s.derive cd
    (fun t =>
      let c := t.c cs
      [(c.tag && t.currentCap c, 5, cs.val), (c.sealv != 0, 8, cs.val)] ++
        t.sealerChecks ck permUNSEAL ((t.c ck).covers c.sealv 1))
    (fun t => (t.c cs).withSeal 0)

def execCapslot (cd cs : Fin 16) (ra : Fin 32) (s : State) : Res :=
  s.derive cd
    (fun t => t.openChecks cs ++ [((t.c cs).slot == 0, 7, cs.val)])
    (fun t =>
      let k := (t.g ra).toNat % 16
      (t.c cs).withEpoch (k * 4096 + SMap.get (fun _ => 0) t.tri.epr k % 4096))

def execCapfch (cd : Fin 16) (s : State) : Res := s.derive cd (fun _ => []) (fun t => t.tri.fcap)

def execCaprb (cs : Fin 16) (ra : Fin 32) (s : State) : Res := s.plain (fun t => t.setGN ra (t.c cs).base)
def execCaprl (cs : Fin 16) (ra : Fin 32) (s : State) : Res := s.plain (fun t => t.setGN ra (t.c cs).len)
def execCaprm (cs : Fin 16) (ra : Fin 32) (s : State) : Res :=
  s.plain (fun t => t.setGN ra (bits (t.c cs).v.toNat 111 80))
def execCaprv (cs : Fin 16) (ra : Fin 32) (s : State) : Res :=
  s.plain (fun t => t.setGN ra (b2n (t.c cs).tag + 2 * b2n (t.currentCap (t.c cs))))
def execCapre (cs : Fin 16) (ra : Fin 32) (s : State) : Res := s.plain (fun t => t.setGN ra (t.c cs).epoch)

/-! Gates and returns. -/

/-- Each Cj of 0 to 14 whose keep bit is 0 is cleared (R287). -/
def State.keepCaps (s : State) (keep : BitVec 15) : State :=
  (upto 15).foldl (fun t j => if keep.getLsbD j then t else t.setC j Cap.null) s

/-- GATE (R287, R294): the checks of GE[n].CODE in force, the gate frame, the callee's authority; 4 tc to its target. -/
def execGate (n : Fin 16) (keep : BitVec 15) (s : State) : Res :=
  next (s.trifle false (fun t =>
    let c := t.geIn (2 * n)
    if !(c.tag && t.currentCap c && c.sealv == 0 && c.otype == 0 && c.has permX && c.base % 4 == 0 && decide (4 ≤ c.len)) ||
      decide (30 ≤ t.tri.stack.length) then .trap t (.check 9 0 0)
    else
      let fr := { t.frame .gate (t.tri.pc + 4) none with hold := none }
      let u := (t.keepCaps keep).setC 15 (t.geIn (2 * n + 1))
      .goto { u with tri.stack := fr :: u.tri.stack, tri.fcap := c, tri.comp := n } (BitVec.ofNat 40 c.base) 4))

/-- ML takes a frame's value; a write that waits for SYNC still waits (R299, R244). -/
def State.restoreMl (s : State) (ml : Nat) : State :=
  let waits := s.tri.waiting.any (fun w => match w with | .ml _ => true | _ => false)
  { s with tri.mlUsed := BitVec.ofNat 64 ml, tri.ml := if waits then s.tri.ml else BitVec.ofNat 64 ml }

/-- GRET (R287): a gate frame on top is popped. -/
def execGret (keep : BitVec 15) (s : State) : Res :=
  next (s.trifle false (fun t =>
    match t.tri.stack with
    | fr :: rest =>
      if fr.kind = .gate then
        let u := ((t.keepCaps keep).setC 15 fr.c15).restoreMl fr.ml
        .goto { u with tri.stack := rest, tri.fcap := fr.fcap, tri.comp := fr.comp } fr.pc 4
      else .trap t (.check 9 0 0)
    | [] => .trap t (.check 9 0 0)))

/-- HRET (R299, R308): a handler or escalation frame on top is popped, C0 to C14 come back from the save area, and the
frame's interrupt source completes; 8 tc. -/
def execHret (s : State) : Res :=
  next (s.trifle true (fun t =>
    match t.tri.stack with
    | fr :: rest =>
      if fr.kind = .gate then .trap t (.check 9 0 0)
      else
        let u := ((t.restoreCaps (t.saveArea t.tri.stack.length)).setC 15 fr.c15).restoreMl fr.ml
        let u := { u with tri.stack := rest, tri.fcap := fr.fcap, tri.comp := fr.comp, tri.actl := fr.actl, tri.hold := fr.hold }
        .goto (match fr.src with | some n => u.completeSource n | none => u) fr.pc 8
    | [] => .trap t (.check 9 0 0)))

/-- HREL (R300): the current handler's hold window ends. -/
def execHrel (s : State) : Res := next (s.trifle true (fun t => .done { t with tri.hold := none }))

/-! System registers. -/

/-- A read of a system register (R303, R304); none for an unlisted number. -/
def State.sysRead (s : State) (n : Nat) : Option Nat :=
  match n with
  | 0 => some s.tri.htb.toNat
  | 1 => some s.tri.esb.toNat
  | 2 => some s.tri.ml.toNat
  | 3 => some s.tstat
  | 4 => some s.tri.fcause.toNat
  | 5 => some s.tri.faddr.toNat
  | 6 => some (match s.tri.stack with | fr :: _ => fr.pc.toNat | [] => 0)
  | n => if 0x10 ≤ n ∧ n ≤ 0x1F then some (SMap.get (fun _ => 0) s.tri.eprW (n - 0x10)) else none

/-- A write that waits for SYNC (R244). -/
def State.await (s : State) (w : CtlWrite) : State := { s with tri.waiting := s.tri.waiting ++ [w] }

/-- A write of an epoch register (R277): it gains 1; at 0xFFF the write is ignored and sets EPX; EPR0 stays 0. -/
def State.epochWrite (s : State) (k : Nat) : State :=
  let e := SMap.get (fun _ => 0) s.tri.eprW k
  if k = 0 then s
  else if e = 0xFFF then { s with tri.epx := true }
  else ({ s with tri.eprW := SMap.set (fun _ => 0) s.tri.eprW k (e + 1) }).await (.epr k (e + 1))

/-- A write of a system register (R304). -/
def State.sysWrite (s : State) (n v : Nat) : State :=
  match n with
  | 0 => let x := Nat.land v 0x1FC000; ({ s with tri.htb := BitVec.ofNat 64 x }).await (.htb x)
  | 1 => let x := Nat.land v 0x1FE000; ({ s with tri.esb := BitVec.ofNat 64 x }).await (.esb x)
  | 2 => let x := v % 16; ({ s with tri.ml := BitVec.ofNat 64 x }).await (.ml x)
  | 3 => { s with tri.holdOvr := s.tri.holdOvr && !bitb v 31, tri.epx := s.tri.epx && !bitb v 28 }
  | 4 => let x := Nat.land v 0x3FFFC00F; ({ s with tri.fcause := BitVec.ofNat 64 x }).await (.fcause x)
  | 5 => let x := v % 2 ^ 40; ({ s with tri.faddr := BitVec.ofNat 64 x }).await (.faddr x)
  | 6 => { s with tri.stack := match s.tri.stack with | fr :: rest => { fr with pc := BitVec.ofNat 40 v } :: rest | [] => [] }
  | n => s.epochWrite (n - 0x10)

/-- The checks of the capability that authorises a system write (R303, R279 without check 4; R272). -/
def State.authChecks (s : State) (cb : Fin 16) (perm : Nat) : List (Bool × Nat × Nat) :=
  let c := s.c cb
  [(c.tag && s.currentCap c, 5, cb), (c.sealv == 0 && decide (c.otype ≤ 6), 8, cb), (c.has perm, 7, cb)]

def execMfsys (g : Fin 32) (n : BitVec 10) (s : State) : Res :=
  next (s.trifle true (fun t =>
    match t.sysRead n.toNat with
    | some v => .done (t.setGN g v)
    | none => .trap t .ill))

def execMtsys (g : Fin 32) (cb : Fin 16) (n : BitVec 10) (s : State) : Res :=
  next (s.trifle true (fun t =>
    match t.sysRead n.toNat with
    | none => .trap t .ill
    | some _ =>
      match firstFault (t.authChecks cb (if n = 2 then permMASK else permSYS)) with
      | some f => .trap t f
      | none => .done (t.sysWrite n.toNat (t.g g).toNat)))

/-- CTOGE (R303): GE[n].CODE or .DATA takes C[c] at the next SYNC; a read returns it at once. -/
def execCtoge (c cb : Fin 16) (n : Fin 16) (data : Bool) (s : State) : Res :=
  next (s.trifle true (fun t =>
    let i := 2 * n.val + b2n data
    match firstFault (t.authChecks cb permSYS) with
    | some f => .trap t f
    | none => .done (({ t with tri.ge := SMap.set (fun _ => Cap.null) t.tri.ge i (t.c c) }).await (.ge i (t.c c)))))

/-- GETOC (R303). -/
def execGetoc (c cb : Fin 16) (n : Fin 16) (data : Bool) (s : State) : Res :=
  next (s.trifle true (fun t =>
    match firstFault (t.authChecks cb permSYS) with
    | some f => .trap t f
    | none => .done (t.setC c (t.geRead (2 * n.val + b2n data)))))

end Sys2Proof.Machine
end

