-- ==== Sys2Proof/Machine/Debug.lean ====
section
/-! DEFINITION. Machine/Debug.lean: the debug wire and its tunnel (R458 to R466), access levels and unlock (R467, R468), run
control (R469 to R474), the virtual terminal (R475). -/

namespace Sys2Proof.Machine

/-! STATUS codes (R464). -/

abbrev dOk : Nat := 1
abbrev dWait : Nat := 2
abbrev dBadcrc : Nat := 3
abbrev dFault : Nat := 4
abbrev dLocked : Nat := 5
abbrev dBadcmd : Nat := 6

/-- A command of the probe (R463). -/
inductive DCmd where
  | drd (idx : Nat)
  | dwr (idx data : Nat)
  | mrd (addr : Nat)
  | mwr (addr data : Nat)
  | mrdn
  | mwrn (data : Nat)
  | rslt
  | unknown
deriving DecidableEq, Repr

/-- What a command answers: STATUS, DATA where it applies, and the state after it. -/
structure DAns where
  status : Nat
  data : Option Nat
  state : State

/-- Do the rails of the debug domain stand (R458)? -/
def State.dbgPowered (s : State) : Bool := s.pwr.state == .run || s.pwr.state == .idle

/-! Access levels (R467). -/

/-- May the probe use everything: by the lifecycle, or by an unlock with SCOPE[0] (R467, R468)? -/
def State.dbgFree (s : State) : Bool := s.dbgOpen || (s.isOn DBG_STAT.UNLOCKED && s.dbg.run)

/-- Does the probe's scope include SEC? -/
def State.dbgSec (s : State) : Bool := s.dbgOpen || s.isOn DBG_STAT.SCOPESEC

/-- The commands of a locked probe (R467). -/
def DCmd.lockedOk : DCmd → Bool
  | .drd i => i == 0 || i == 8 || i == 9 || i == 14 || (decide (16 ≤ i) && decide (i < 24))
  | .dwr i _ => i == 10 || (decide (32 ≤ i) && decide (i < 48))
  | _ => false

/-! Memory access as master 1 (R463). -/

/-- One access of 4 bytes: a read, or a write of `data`. -/
def State.dbgMem (s : State) (a : Nat) (data : Option Nat) : DAns :=
  if a % 4 ≠ 0 then ⟨dBadcmd, none, s⟩
  else
    let t := s.wr2 DBG_MADDR_LO.ADDR_LO DBG_MADDR_HI.ADDR_HI 0
    let b := (a + 4) % 2 ^ 40
    let t := (t.wr DBG_MADDR_LO.ADDR_LO (b % 2 ^ 32 / 4)).wr DBG_MADDR_HI.ADDR_HI (b / 2 ^ 32)
    let sec := s.isOn DBG_CTL.SECURE && s.dbgSec
    match data with
    | none =>
      match t.busGet 1 sec a 4 with
      | (some bs, u) => ⟨dOk, some (ofBytes bs), u⟩
      | (none, u) => ⟨dFault, none, u.on DBG_STAT.ERR⟩
    | some v =>
      match t.busPut 1 sec a (toBytes 4 v) with
      | (true, u) => ⟨dOk, none, u⟩
      | (false, u) => ⟨dFault, none, u.on DBG_STAT.ERR⟩

/-- DBG_MADDR. -/
def State.dbgMaddr (s : State) : Nat := s.rd DBG_MADDR_LO.ADDR_LO * 4 + s.rd DBG_MADDR_HI.ADDR_HI * 2 ^ 32

/-! The debug slice's registers (R474). -/

/-- The GE register half that NUM names. -/
def geNum (n : Nat) : Option Nat := if 32 ≤ n ∧ n < 64 then some (n - 32) else none

/-- Part PART of a 128-bit value with a tag. -/
def partOf (part v : Nat) (tag : Bool) : Nat :=
  match part with | 0 => v % 2 ^ 64 | 1 => v / 2 ^ 64 | 2 => b2n tag | _ => 0

/-- A value with part 0 or 1 replaced. -/
def putPart (part v x : Nat) : Nat :=
  match part with | 0 => v / 2 ^ 64 * 2 ^ 64 + x % 2 ^ 64 | 1 => v % 2 ^ 64 + x % 2 ^ 64 * 2 ^ 64 | _ => v

/-- The register that DBG_RSEL selects. -/
def State.dbgSel (s : State) : Nat × State :=
  let n := s.rd DBG_RSEL.NUM
  let part := s.rd DBG_RSEL.PART
  match s.rd DBG_RSEL.FILE with
  | 0 => (if n < 32 then (s.g n).toNat else 0, s)
  | 1 => (if n < 32 then (s.f n).toNat else 0, s)
  | 2 => (if n < 32 then partOf part (s.v n).toNat false else 0, s)
  | 3 => (if n < 8 then (s.p n).toNat else 0, s)
  | 4 =>
    let c := if n < 16 then s.c n else if n = 16 then s.tri.fcap else match geNum n with | some i => s.geRead i | none => Cap.null
    (partOf part c.v.toNat c.tag, s)
  | 5 =>
    if n = 2 then s.readCt else if n = 3 then (s.clk / 16, s) else if n = 4 then (s.tri.insn.toNat, s)
    else (if (spMask n).isSome then (s.sp n).toNat else 0, s)
  | 6 => ((s.sysRead n).getD 0, s)
  | _ => (s.tri.pc.toNat, s)

/-- A control register is written, and applies at once (R474, R244). -/
def State.dbgSys (s : State) (n v : Nat) : State :=
  let before := s.tri.waiting
  let t := s.sysWrite n v
  let new := t.tri.waiting.drop before.length
  { new.foldl State.applyCtl t with tri.waiting := before }

/-- A capability with a part replaced: a data part clears the tag, part 2 writes it. -/
def Cap.putPart (c : Cap) (part x : Nat) : Cap :=
  if part = 2 then { c with tag := bitb x 0 } else ⟨BitVec.ofNat 128 (Machine.putPart part c.v.toNat x), false⟩

/-- A write of the selected register (R474). -/
def State.dbgPut (s : State) (x : Nat) : State :=
  let n := s.rd DBG_RSEL.NUM
  let part := s.rd DBG_RSEL.PART
  match s.rd DBG_RSEL.FILE with
  | 0 => if n < 32 then s.setGN n x else s
  | 1 => if n < 32 then s.setF n x else s
  | 2 => if n < 32 then s.setV n (putPart part (s.v n).toNat x) else s
  | 3 => if n < 8 then s.setP n (BitVec.ofNat 64 x) else s
  | 4 =>
    if part = 3 then s
    else if n < 16 then s.setC n ((s.c n).putPart part x)
    else if n = 16 then { s with tri.fcap := s.tri.fcap.putPart part x }
    else match geNum n with
    | some i =>
      let c := (s.geRead i).putPart part x
      { s with tri.ge := SMap.set (fun _ => Cap.null) s.tri.ge i c, tri.geUsed := SMap.set (fun _ => Cap.null) s.tri.geUsed i c }
    | none => s
  | 5 => match spMask n with | some m => s.setSp n (Nat.land x m) | none => s
  | 6 => if (s.sysRead n).isSome then s.dbgSys n x else s
  | _ => { s with tri.pc := BitVec.ofNat 40 x }

/-! Run control. -/

/-- RESUME (R472): HALT clears, a resynchronisation is requested, for which Trifle, stopped already, waits no longer (R203): Frost
ends, and chain time is no longer locked. -/
def State.dbgResume (s : State) : State :=
  if !s.isOn DBG_STAT.HALTED then s
  else
    let t := ({ s.unpause.off DBG_CTL.HALT with dbg.step := false }).off DBG_STAT.HALTED
    let t := (t.off DBG_STAT.FROST).setLock false
    (execResync t).stateOr t

/-- A write of DBG_CTL (R469 to R473, R468, R476). -/
def State.dbgCtl (s : State) (v : Nat) : State :=
  let s := s.pauseFrom (s.wr DBG_CTL.MODE (bit v 28))
  let s := ((s.wr DBG_CTL.HALTRST (bit v 27)).wr DBG_CTL.MASKINT (bit v 26)).wr DBG_CTL.SECURE (bit v 25)
  let s := s.when (bitb v 24) State.endUnlock
  let s := s.when (bits v 23 22 != 0) (fun t => t.callReset (bits v 23 22) 9)
  let s := s.when (bitb v 31) (fun t =>
    if t.isOn DBG_STAT.HALTED then t.on DBG_CTL.HALT else ({ t.on DBG_CTL.HALT with dbg.halting := true }).tryHalt)
  let s := s.when (bitb v 30) State.dbgResume
  s.when (bitb v 29 && s.isOn DBG_STAT.HALTED) (fun t => ({ t with dbg.step := true }).waitCheck)

/-- A write of DBG_UNLOCK (R468): with GO the signature is verified; a new nonce is drawn at every write. -/
def State.dbgUnlock (s : State) (v : Nat) : State :=
  let scope := v % 256
  let msg := nonceBytes s.sec.dbgNonce ++ toBytes 8 s.sec.serial.toNat ++ [0x08] ++ toBytes 1 scope
  let good := decide (scope < 4) && s.slotSigned (fun _ => true) msg (s.words16 DBG_AUTH.AUTH)
  let t := { s with sec.dbgNonce := s.free, free := s.free + 1 }
  if !bitb v 31 then t
  else if good then { (t.on DBG_STAT.UNLOCKED).put DBG_STAT.SCOPESEC (bitb v 1) with dbg.run := bitb v 0 }
  else t.on DBG_STAT.UNLKFAIL

/-- A byte for firmware (R475). -/
def State.vtSend (s : State) (v : Nat) : State :=
  if s.dbg.rx.length < 64 then { s with dbg.rx := s.dbg.rx ++ [BitVec.ofNat 8 v] } else s.bump DBG_VTSTAT.LOST

/-- A byte from firmware, popped by the probe (R475). -/
def State.vtPop (s : State) : Nat × State :=
  match s.dbg.tx with
  | b :: rest => (b.toNat + 2 ^ 31, { s with dbg.tx := rest })
  | [] => (0, s)

/-! Commands. -/

/-- DRD of an assigned register (R463, R474, R476). -/
def State.dbgRead (s : State) (idx : Nat) : DAns :=
  let a := 0x60030000 + 4 * idx
  let ok (v : Nat) : DAns := ⟨dOk, some v, s⟩
  match specAt a with
  | none => ⟨dBadcmd, none, s⟩
  | some r =>
    match idx with
    | 0 => ok (s.viewDbgStat (readable r (s.rdReg a)))
    | 4 =>
      if s.isOn DBG_STAT.HALTED then let (v, t) := s.dbgSel; ⟨dOk, some (v % 2 ^ 32), t⟩
      else ⟨dFault, none, s.on DBG_STAT.ERR⟩
    | 5 =>
      if s.isOn DBG_STAT.HALTED then let (v, t) := s.dbgSel; ⟨dOk, some (v / 2 ^ 32 % 2 ^ 32), t⟩
      else ⟨dFault, none, s.on DBG_STAT.ERR⟩
    | 8 => ok (s.sec.serial.toNat % 2 ^ 32)
    | 9 => ok (s.sec.serial.toNat / 2 ^ 32)
    | 12 => let (v, t) := s.vtPop; ⟨dOk, some v, t⟩
    | 13 => ok 0
    | 14 => ok (s.viewVt (readable r (s.rdReg a)))
    | i => if 16 ≤ i ∧ i < 24 then ok (wordAt (nonceBytes s.sec.dbgNonce) (i - 16)) else ok (readable r (s.rdReg a))

/-- DWR of an assigned register (R463, R474, R476). -/
def State.dbgWrite (s : State) (idx v : Nat) : DAns :=
  let a := 0x60030000 + 4 * idx
  let ok (t : State) : DAns := ⟨dOk, none, t⟩
  match specAt a with
  | none => ⟨dBadcmd, none, s⟩
  | some r =>
    match idx with
    | 1 => ok (s.dbgCtl v)
    | 2 => ok (s.pauseFrom (s.plainWrite a v r))
    | 5 =>
      if s.isOn DBG_STAT.HALTED then
        if s.rd DBG_RSEL.FILE = 4 ∧ s.rd DBG_RSEL.PART = 2 ∧ !s.dbgSec then ⟨dLocked, none, s⟩
        else ok ((s.wr DBG_RDATA_HI.DATA v).dbgPut (s.rd DBG_RDATA_LO.DATA + v * 2 ^ 32))
      else ok (s.wr DBG_RDATA_HI.DATA v)
    | 10 => if s.lifecycle = 4 then ⟨dLocked, none, s⟩ else ok (s.dbgUnlock v)
    | 12 => ok s
    | 13 => ok (s.vtSend v)
    | i => if 32 ≤ i then ok (s.wr (DBG_AUTH.AUTH (i - 32)) v) else ok (s.plainWrite a v r)

/-- A command runs (R463, R464, R467); RSLT without an access that answered WAIT is no command (log entry 54). -/
def State.dbgRun (s : State) (c : DCmd) : DAns :=
  if !s.dbgFree && !c.lockedOk then ⟨dLocked, none, s⟩
  else match c with
  | .drd i => s.dbgRead i
  | .dwr i v => s.dbgWrite i v
  | .mrd a => s.dbgMem a none
  | .mwr a v => s.dbgMem a (some v)
  | .mrdn => s.dbgMem s.dbgMaddr none
  | .mwrn v => s.dbgMem s.dbgMaddr (some v)
  | .rslt => if s.dbg.waits then ⟨s.dbg.last.1, if s.dbg.last.1 = dOk then some s.dbg.last.2 else none, { s with dbg.waits := false }⟩
             else ⟨dBadcmd, none, s⟩
  | .unknown => ⟨dBadcmd, none, s⟩

/-! The wire (R459 to R462). -/

/-- The fields of a command as the probe sends them (R462, R463): (width, value). -/
def DCmd.fields : DCmd → List (Nat × Nat)
  | .drd i => [(8, 1), (8, i)]
  | .dwr i v => [(8, 2), (8, i), (32, v)]
  | .mrd a => [(8, 3), (40, a)]
  | .mwr a v => [(8, 4), (40, a), (32, v)]
  | .mrdn => [(8, 5)]
  | .mwrn v => [(8, 6), (32, v)]
  | .rslt => [(8, 7)]
  | .unknown => []

/-- The reply on the wire: STATUS, DATA if it is sent, CRC-8 (R462). -/
def DAns.reply (r : DAns) : State :=
  let fs := (4, r.status) :: (match r.data with | some d => [(32, d)] | none => [])
  (r.state.answer (.code r.status (r.data.getD 0))).send .debugWire 0
    (toBytes 1 r.status ++ (match r.data with | some d => toBytes 4 d | none => []) ++ toBytes 1 (crc8 fs))

/-- A command on the wire, with its CRC (R459, R462, R464): in SLEEP nothing answers; while an access has still to answer,
every command but RSLT answers WAIT. `slow` says that a memory access does not complete in time. -/
def State.wire (s : State) (c : DCmd) (crc : BitVec 8) (slow : Bool := false) : Res :=
  if !s.dbgPowered || !s.isOn DBG_STAT.LINK then next s
  else
    let s := { s with dbg.edgeAt := s.refNow }
    if crc8 c.fields ≠ crc.toNat then next (⟨dBadcrc, none, s.on DBG_STAT.BADCRC⟩ : DAns).reply
    else if s.dbg.waits && c != .rslt then next (⟨dWait, none, s⟩ : DAns).reply
    else
      let r := s.dbgRun c
      if slow && (r.status == dOk || r.status == dFault) then
        next (⟨dWait, none, { r.state with dbg.last := (r.status, r.data.getD 0), dbg.waits := true }⟩ : DAns).reply
      else next r.reply

def execDrd (idx crc : BitVec 8) (s : State) : Res := s.wire (.drd idx.toNat) crc
def execDwr (idx : BitVec 8) (data : BitVec 32) (crc : BitVec 8) (s : State) : Res := s.wire (.dwr idx.toNat data.toNat) crc
def execMrd (addr : BitVec 40) (crc : BitVec 8) (slow : Bool) (s : State) : Res := s.wire (.mrd addr.toNat) crc slow
def execMwr (addr : BitVec 40) (data : BitVec 32) (crc : BitVec 8) (slow : Bool) (s : State) : Res :=
  s.wire (.mwr addr.toNat data.toNat) crc slow
def execMrdn (crc : BitVec 8) (slow : Bool) (s : State) : Res := s.wire .mrdn crc slow
def execMwrn (data : BitVec 32) (crc : BitVec 8) (slow : Bool) (s : State) : Res := s.wire (.mwrn data.toNat) crc slow
def execRslt (crc : BitVec 8) (s : State) : Res := s.wire .rslt crc

/-- WAKE_SEQUENCE (R460): eight pulses with their periods in ns; the module drives a presence low and is ACTIVE. -/
def execWakeSequence (periods : List Nat) (s : State) : Res :=
  let sum := periods.foldl (· + ·) 0
  if !s.dbgPowered || s.isOn DBG_STAT.LINK || periods.length != 8 ||
    !periods.all (fun p => decide (10 * p ≤ 11 * periods.headD 0) && decide (9 * periods.headD 0 ≤ 10 * p)) ||
    decide (sum < 16000) || decide (112000 < sum) then next s
  else next ((({ s with dbg.edgeAt := s.refNow }).on DBG_STAT.LINK).wr DBG_STAT.TC (sum / 500) |>.send .debugWire 0 [])

/-- LONG_LOW (R459): a low of 8.5 µs. -/
def execLongLow (s : State) : Res := if s.dbgPowered then next (s.linkSleep.on DBG_STAT.RESETSEEN) else next s

/-- LINK_TIMEOUT (R459): 1 ms without a falling edge. -/
def execLinkTimeout (s : State) : Res :=
  if s.dbgPowered && s.isOn DBG_STAT.LINK then next ((s.fabUntil (16 * (s.dbg.edgeAt + 1000000))).linkSleep) else next s

/-! Writes of debug registers by name. -/

/-- A DWR that has reached the debug logic, by either path. -/
def State.dbgDo (s : State) (idx v : Nat) : Res :=
  if !s.dbgPowered then next s
  else let r := s.dbgRun (.dwr idx v); next (r.state.answer (.code r.status 0))

def execHalt (value : BitVec 32) (s : State) : Res := s.dbgDo 1 (setBits value.toNat 31 31 1)
def execStep (value : BitVec 32) (s : State) : Res := s.dbgDo 1 (setBits value.toNat 29 29 1)
def execResume (value : BitVec 32) (s : State) : Res := s.dbgDo 1 (setBits value.toNat 30 30 1)
def execLock (value : BitVec 32) (s : State) : Res := s.dbgDo 1 (setBits value.toNat 24 24 1)
def execDbgCoreReset (value : BitVec 32) (s : State) : Res := s.dbgDo 1 (setBits value.toNat 23 22 1)
def execDbgWarmReset (value : BitVec 32) (s : State) : Res := s.dbgDo 1 (setBits value.toNat 23 22 2)
def execDbgColdReset (value : BitVec 32) (s : State) : Res := s.dbgDo 1 (setBits value.toNat 23 22 3)

/-- UNLOCK (R468): GO with a SCOPE. -/
def execUnlock (scope : BitVec 8) (s : State) : Res := s.dbgDo 10 (scope.toNat + 2 ^ 31)

/-- DBG_RDATA (R474): a write of DBG_RDATA_HI. -/
def execDbgRdata (hi : BitVec 32) (s : State) : Res := s.dbgDo 5 hi.toNat

/-- DBG_TXD (R475): firmware pushes a byte, or the probe pops one. -/
def execDbgTxd (push : Option Byte) (s : State) : Res :=
  if !s.dbgPowered then next s
  else match push with
  | some b => next ((s.vtPush b.toNat).answer .done)
  | none => let r := s.dbgRun (.drd 12); next (r.state.answer (.code r.status (r.data.getD 0)))

/-- DBG_RXD (R475): the probe pushes a byte, or firmware pops one. -/
def execDbgRxd (push : Option Byte) (s : State) : Res :=
  if !s.dbgPowered then next s
  else match push with
  | some b => s.dbgDo 13 b.toNat
  | none =>
    match s.dbg.rx with
    | b :: rest => next (({ s with dbg.rx := rest }).answer (.data (toBytes 4 (b.toNat + 2 ^ 31))))
    | [] => next (s.answer (.data (toBytes 4 0)))

/-! The tunnel (R466). -/

/-- The first command of a batch and the bytes after it (R466); a payload cut short is no command. -/
def dcmdParse (bs : List Byte) : DCmd × List Byte :=
  let n (off k : Nat) : Nat := fieldOf bs off k
  let take (k : Nat) (c : DCmd) : DCmd × List Byte := if bs.length < k then (.unknown, []) else (c, bs.drop k)
  match n 0 1 with
  | 1 => take 2 (.drd (n 1 1))
  | 2 => take 6 (.dwr (n 1 1) (n 2 4))
  | 3 => take 6 (.mrd (n 1 5))
  | 4 => take 10 (.mwr (n 1 5) (n 6 4))
  | 5 => take 1 .mrdn
  | 6 => take 5 (.mwrn (n 1 4))
  | 7 => take 1 .rslt
  | _ => (.unknown, [])

/-- A batch runs in order and stops after the first command that is not OK: its reply. -/
def State.dbgBatch (s : State) : Nat → List Byte → List Byte × State
  | 0, _ => ([], s)
  | _, [] => ([], s)
  | f + 1, bs =>
    let (c, rest) := dcmdParse bs
    let r := s.dbgRun c
    let ans := toBytes 1 r.status ++ (match r.data with | some d => toBytes 4 d | none => [])
    if r.status ≠ dOk then (ans, r.state)
    else
      let (more, t) := r.state.dbgBatch f rest
      (ans ++ more, t)

/-- DEBUG_BATCH (R466): a DEBUG frame, SUB 0, under a key with the DEBUG right; its answer goes back under that key. -/
def execDebugBatch (s : State) : Res :=
  match s.ccTake (fun r => r.frame.cls == clsDebug && r.frame.sub == 0) with
  | none => next s
  | some (r, t) =>
    if !r.frame.enc then next t
    else
      let (ans, u) := t.dbgBatch r.text.length r.text
      next (u.chnPostEnc clsDebug r.frame.src 1 0 (r.frame.h2 / 2 ^ 56) ans)

/-- DEBUG_REPLY (R466): the answer to a batch reaches the module that sent it. -/
def execDebugReply (s : State) : Res :=
  match s.ccTake (fun r => r.frame.cls == clsDebug && r.frame.sub == 1) with
  | none => next s
  | some (r, t) => next (t.answer (.data r.text))

end Sys2Proof.Machine
end

