-- ==== Sys2Proof/Machine/DevReq.lean ====
section
/-! DEFINITION. Machine/DevReq.lean: DEVREQ (R284): the operations of soft entries (R285), mailbox channels (R319), queues
(R326), field ports and movers (R389), each a command by its code. -/

namespace Sys2Proof.Machine

/-- The permissions that a code needs of a capability, beyond R279: USE or CFG (R284), ENQ or DEQ (R326), SEC for the
secure channels (R319). -/
def devPerms (otype code obj : Nat) : List Nat :=
  [if code < 0x200 then permUSE else permCFG] ++
    (if otype = 2 then (if code = 0 then [permENQ] else if code = 1 ∨ code = 2 then [permDEQ] else []) else []) ++
    (if otype = 3 ∧ 32 ≤ obj then [permSEC] else [])

/-- The checks of a DEVREQ through C[cb] on an object, in order (R279, R284). -/
def State.devChecks (s : State) (cb : Fin 16) (code obj : Nat) : List (Bool × Nat × Nat) :=
  let c := s.c cb
  [(c.tag && s.currentCap c, 5, cb), (c.sealv == 0 && decide (1 ≤ c.otype) && decide (c.otype ≤ 5), 8, cb),
   ((devPerms c.otype code obj).all c.has, 7, cb), (c.covers obj 1, 6, cb)]

/-- The schedule sequencer's operations (R285); false for a refusal. -/
def State.devChain (s : State) (code obj arg : Nat) : Bool × State :=
  let e := bits arg 9 0
  if 2 ≤ code then (false, s)
  else if !s.schActive then (true, s)
  else if entryKind (s.softEntry e) = 0 ∨ entryChain (s.softEntry e) ≠ obj then (false, s)
  else (true, if code = 0 then s.softArm e else s.softCancel e)

/-- The mailbox's operations (R319). -/
def State.devChannel (s : State) (code n arg : Nat) : Bool × State :=
  if 64 ≤ n then (false, s)
  else match code with
  | 0x000 => if s.rd (MBX_CFG.SENDER n) = 0 then (true, s.mbxPost n arg) else (false, s)
  | 0x001 => if s.rd (MBX_CFG.RECEIVER n) = 0 then (true, s.mbxAck n) else (false, s)
  | 0x002 => (true, s.mbxRing n arg)
  | 0x200 => (true, s.mbxCfg n arg)
  | _ => (false, s)

/-- The queue engine's operations (R326), on the staging slot of the compartment. -/
def State.devQueue (s : State) (code q : Nat) : Bool × State :=
  if code < 4 ∨ code = 0x200 ∨ code = 0x201 then (true, s.queOp s.tri.comp code q) else (false, s)

/-- The field blocks' operations (R389). -/
def State.devField (s : State) (code p arg : Nat) : Bool × State :=
  match code with
  | 0x000 => s.fldIdent p
  | 0x001 => s.fldClear p
  | 0x200 => s.fldSetCfg p arg
  | _ => (false, s)

/-- The movers' operations (R389); `blocks` is the blocks a STOP finds completed. -/
def State.devMover (s : State) (code n arg blocks : Nat) : Bool × State :=
  if 8 ≤ n then (false, s)
  else match code with
  | 0x000 => if s.isOn (MV_STAT.BUSY n) then (false, s) else (true, s.mvStart n (arg % 256) false)
  | 0x001 => (true, s.mvStop n blocks)
  | _ => (false, s)

/-- Does the block that owns an object type hold the capability for current: by the epochs it uses since the last round boundary
(R278); the mailbox and the sequencer use Trifle's? -/
def State.devCurrent (s : State) (c : Cap) : Bool :=
  if c.otype = 3 ∨ c.otype = 5 then s.currentCap c else c.current s.tri.eprUsed

/-- DEVREQ with an operation code, through C[cb], with object and argument in G[g] (R284): the block that owns the
capability's object type acts; one that refuses, or does not define the code, raises BUS. -/
def State.devReq (s : State) (cb : Fin 16) (g : Fin 32) (code : Nat) (blocks : Nat := 0) : Res :=
  next (s.trifle true (fun t =>
    let obj := (t.g g).toNat % 2 ^ 32
    let arg := (t.g g).toNat / 2 ^ 32
    match firstFault (t.devChecks cb code obj) with
    | some f => .trap t f
    | none =>
      let (ok, u) := if !t.devCurrent (t.c cb) then (false, t) else match (t.c cb).otype with
        | 1 => t.devField code obj arg
        | 2 => t.devQueue code obj
        | 3 => t.devChannel code obj arg
        | 4 => t.devMover code obj arg blocks
        | _ => t.devChain code obj arg
      if ok then .done u else .trap u.busErr (.bus cb 0)))

def execArm (cb : Fin 16) (g : Fin 32) (s : State) : Res := s.devReq cb g 0x000
def execCancel (cb : Fin 16) (g : Fin 32) (s : State) : Res := s.devReq cb g 0x001
def execPost (cb : Fin 16) (g : Fin 32) (s : State) : Res := s.devReq cb g 0x000
def execAck (cb : Fin 16) (g : Fin 32) (s : State) : Res := s.devReq cb g 0x001
def execRing (cb : Fin 16) (g : Fin 32) (s : State) : Res := s.devReq cb g 0x002
def execSetep (cb : Fin 16) (g : Fin 32) (s : State) : Res := s.devReq cb g 0x200
def execEnq (cb : Fin 16) (g : Fin 32) (s : State) : Res := s.devReq cb g 0x000
def execDeq (cb : Fin 16) (g : Fin 32) (s : State) : Res := s.devReq cb g 0x001
def execDrop (cb : Fin 16) (g : Fin 32) (s : State) : Res := s.devReq cb g 0x002
def execStat (cb : Fin 16) (g : Fin 32) (s : State) : Res := s.devReq cb g 0x003
def execAttach (cb : Fin 16) (g : Fin 32) (s : State) : Res := s.devReq cb g 0x200
def execDetach (cb : Fin 16) (g : Fin 32) (s : State) : Res := s.devReq cb g 0x201
def execIdent (cb : Fin 16) (g : Fin 32) (s : State) : Res := s.devReq cb g 0x000
def execClrcnt (cb : Fin 16) (g : Fin 32) (s : State) : Res := s.devReq cb g 0x001
def execSetcfg (cb : Fin 16) (g : Fin 32) (s : State) : Res := s.devReq cb g 0x200
def execStart (cb : Fin 16) (g : Fin 32) (s : State) : Res := s.devReq cb g 0x000

/-- STOP (R392): `blocks` is how many 64 B blocks have completed. -/
def execStop (cb : Fin 16) (g : Fin 32) (blocks : Nat) (s : State) : Res := s.devReq cb g 0x001 blocks

end Sys2Proof.Machine
end

