-- ==== Sys2Proof/Machine/TriInt.lean ====
section
/-! DEFINITION. Machine/TriInt.lean: Trifle's integer operations (R225 to R227). -/

namespace Sys2Proof.Machine

/-- G[rd] takes a function of G[ra] and G[rb] (R225). -/
def State.intOp (s : State) (rd ra rb : Fin 32) (f : Word → Word → Word) : Res :=
  next (s.trifle true (fun t => .done (t.setG rd (f (t.g ra) (t.g rb)))))

/-- G[rd] takes a function of G[ra] (R225, R226). -/
def State.intOp1 (s : State) (rd ra : Fin 32) (f : Word → Word) : Res :=
  next (s.trifle true (fun t => .done (t.setG rd (f (t.g ra)))))

/-- A 32-bit result sign-extended (R225). -/
def sextW (x : BitVec 32) : Word := x.signExtend 64

/-- The low 32 bits of a register. -/
def lowW (a : Word) : BitVec 32 := a.truncate 32

def execAdd (rd ra rb : Fin 32) (s : State) : Res := s.intOp rd ra rb (fun a b => a + b)
def execSub (rd ra rb : Fin 32) (s : State) : Res := s.intOp rd ra rb (fun a b => a - b)
def execAnd (rd ra rb : Fin 32) (s : State) : Res := s.intOp rd ra rb (fun a b => a &&& b)
def execOr (rd ra rb : Fin 32) (s : State) : Res := s.intOp rd ra rb (fun a b => a ||| b)
def execXor (rd ra rb : Fin 32) (s : State) : Res := s.intOp rd ra rb (fun a b => a ^^^ b)
def execAndn (rd ra rb : Fin 32) (s : State) : Res := s.intOp rd ra rb (fun a b => a &&& ~~~b)
def execSll (rd ra rb : Fin 32) (s : State) : Res := s.intOp rd ra rb (fun a b => a <<< (b.toNat % 64))
def execSrl (rd ra rb : Fin 32) (s : State) : Res := s.intOp rd ra rb (fun a b => a >>> (b.toNat % 64))
def execSra (rd ra rb : Fin 32) (s : State) : Res := s.intOp rd ra rb (fun a b => a.sshiftRight (b.toNat % 64))
def execSlt (rd ra rb : Fin 32) (s : State) : Res := s.intOp rd ra rb (fun a b => if a.slt b then 1 else 0)
def execSltu (rd ra rb : Fin 32) (s : State) : Res := s.intOp rd ra rb (fun a b => if a.ult b then 1 else 0)
def execMin (rd ra rb : Fin 32) (s : State) : Res := s.intOp rd ra rb (fun a b => if b.slt a then b else a)
def execMax (rd ra rb : Fin 32) (s : State) : Res := s.intOp rd ra rb (fun a b => if a.slt b then b else a)
def execMinu (rd ra rb : Fin 32) (s : State) : Res := s.intOp rd ra rb (fun a b => if b.ult a then b else a)
def execMaxu (rd ra rb : Fin 32) (s : State) : Res := s.intOp rd ra rb (fun a b => if a.ult b then b else a)
def execAddw (rd ra rb : Fin 32) (s : State) : Res := s.intOp rd ra rb (fun a b => sextW (lowW a + lowW b))
def execSubw (rd ra rb : Fin 32) (s : State) : Res := s.intOp rd ra rb (fun a b => sextW (lowW a - lowW b))
def execSllw (rd ra rb : Fin 32) (s : State) : Res := s.intOp rd ra rb (fun a b => sextW (lowW a <<< (b.toNat % 32)))
def execSrlw (rd ra rb : Fin 32) (s : State) : Res := s.intOp rd ra rb (fun a b => sextW (lowW a >>> (b.toNat % 32)))
def execSraw (rd ra rb : Fin 32) (s : State) : Res :=
  s.intOp rd ra rb (fun a b => (sextW (lowW a)).sshiftRight (b.toNat % 32))
def execClz (rd ra : Fin 32) (s : State) : Res := s.intOp1 rd ra (fun a => BitVec.ofNat 64 (clz 64 a.toNat))
def execCtz (rd ra : Fin 32) (s : State) : Res := s.intOp1 rd ra (fun a => BitVec.ofNat 64 (ctz 64 a.toNat))
def execPopc (rd ra : Fin 32) (s : State) : Res := s.intOp1 rd ra (fun a => BitVec.ofNat 64 (popcount 64 a.toNat))

/-! OPI (R226): the immediate is sign-extended; a shift's amount is 6 bits. -/

/-- An immediate, sign-extended to 64 bits (R224). -/
def immW {w : Nat} (imm : BitVec w) : Word := imm.signExtend 64

def execAddi (rd ra : Fin 32) (imm : BitVec 12) (s : State) : Res := s.intOp1 rd ra (fun a => a + immW imm)
def execAndi (rd ra : Fin 32) (imm : BitVec 12) (s : State) : Res := s.intOp1 rd ra (fun a => a &&& immW imm)
def execOri (rd ra : Fin 32) (imm : BitVec 12) (s : State) : Res := s.intOp1 rd ra (fun a => a ||| immW imm)
def execXori (rd ra : Fin 32) (imm : BitVec 12) (s : State) : Res := s.intOp1 rd ra (fun a => a ^^^ immW imm)
def execSlti (rd ra : Fin 32) (imm : BitVec 12) (s : State) : Res :=
  s.intOp1 rd ra (fun a => if a.slt (immW imm) then 1 else 0)
def execSltiu (rd ra : Fin 32) (imm : BitVec 12) (s : State) : Res :=
  s.intOp1 rd ra (fun a => if a.ult (immW imm) then 1 else 0)
def execSlli (rd ra : Fin 32) (sh : Fin 64) (s : State) : Res := s.intOp1 rd ra (fun a => a <<< sh.val)
def execSrli (rd ra : Fin 32) (sh : Fin 64) (s : State) : Res := s.intOp1 rd ra (fun a => a >>> sh.val)
def execSrai (rd ra : Fin 32) (sh : Fin 64) (s : State) : Res := s.intOp1 rd ra (fun a => a.sshiftRight sh.val)
def execAddiw (rd ra : Fin 32) (imm : BitVec 12) (s : State) : Res :=
  s.intOp1 rd ra (fun a => sextW (lowW (a + immW imm)))

/-- LUI (R227): G[rd] := sext(imm × 2^11, 32). -/
def execLui (rd : Fin 32) (imm : BitVec 21) (s : State) : Res :=
  next (s.trifle true (fun t => .done (t.setG rd (sextW (BitVec.ofNat 32 (imm.toNat * 2048))))))

end Sys2Proof.Machine
end

