-- ==== Sys2Proof/Machine/TriRep.lean ====
section
/-! DEFINITION. Machine/TriRep.lean: division steps (R236), RPT and the string instructions (R260 to R265). -/

namespace Sys2Proof.Machine

/-! Division steps. -/

/-- One restoring step on (r, q) with divisor t in n bits (R236). -/
def divStep (n t : Nat) (x : Nat × Nat) : Nat × Nat :=
  let r := 2 * x.1 + bit x.2 (n - 1)
  let q := 2 * x.2 % 2 ^ n
  if t ≤ r then (r - t, q + 1) else (r, q)

/-- DSTEP's operands are three different registers, rd and rs not G0 (R236). -/
def dstepOk (rd rs rt : Fin 32) : Bool := rd != rs && rd != rt && rs != rt && rd != 0 && rs != 0

/-- The effect of a DSTEP on its registers (R236). -/
def State.dstep (s : State) (rd rs rt : Fin 32) (w : Bool) : State :=
  let n := if w then 32 else 64
  let t := (s.g rt).toNat % 2 ^ n
  let (r, q) := divStep n t (divStep n t ((s.g rd).toNat % 2 ^ n, (s.g rs).toNat % 2 ^ n))
  (s.setGN rd r).setGN rs q

/-! Repeat state (R260, R262, R265). -/

def State.lpCnt (s : State) : Nat := (s.sp spCnt).toNat
def State.lpSrc (s : State) : Nat := (s.sp spSrc).toNat
def State.lpDst (s : State) : Nat := (s.sp spDst).toNat
def State.lpAct (s : State) : Bool := bitb (s.sp spSt).toNat 0
def State.lpDir (s : State) : Bool := bitb (s.sp spSt).toNat 1
def State.lpSz (s : State) : Nat := bits (s.sp spSt).toNat 3 2
def State.lpKind (s : State) : Nat := bits (s.sp spSt).toNat 6 4

/-- LP_ST.ACT := 0, with HIT as given. -/
def State.lpEnd (s : State) (hit : Bool) : State :=
  s.setSp spSt (setBits (setBits (s.sp spSt).toNat 0 0 0) 7 7 (b2n hit))

/-- KIND of a body (R265); none for one that makes the RPT ILL. -/
def bodyKind : RptBody → Option Nat
  | .smov .. => some 0
  | .sset .. => some 1
  | .scmp .. => some 2
  | .sscan .. => some 3
  | .dstep .. => some 4
  | .other => none

/-- The registers ra and rb of a string body (R260, R261). -/
def bodyRegs : RptBody → Nat × Nat
  | .smov ra rb _ _ => (ra, rb)
  | .sset _ rb _ _ => (0, rb)
  | .scmp _ ra rb _ _ _ => (ra, rb)
  | .sscan _ ra rb _ _ => (ra, rb)
  | _ => (0, 0)

/-- DIR at the start, with the count and the element size (R262): for SMOV from the physical addresses. -/
def State.bodyDir (s : State) (b : RptBody) (cnt sz : Nat) : Bool :=
  match b with
  | .smov ra rb cs cd =>
    let src := (s.c cs).base + (s.g ra).toNat
    let dst := (s.c cd).base + (s.g rb).toNat
    decide (src < dst) && decide (dst < src + cnt * 2 ^ sz)
  | .sset _ _ _ d => d
  | .scmp _ _ _ _ _ d => d
  | .sscan _ _ _ _ d => d
  | _ => false

/-- The LP_ registers at the start of a repeat (R260). -/
def State.rptStart (s : State) (cnt sz kind : Nat) (b : RptBody) : State :=
  let st := 1 + b2n (s.bodyDir b cnt sz) * 2 + sz * 4 + kind * 16
  let (ra, rb) := bodyRegs b
  let t := (s.setSp spCnt cnt).setSp spSt st
  if kind = 4 then t else (t.setSp spSrc (s.g ra).toNat).setSp spDst (s.g rb).toNat

/-- RPT (R260): starts or continues the repeat of its body, the next instruction; `limit` is the number of elements before
an interruption point stops it. -/
def execRpt (rc : Fin 32) (sz : Fin 4) (imm : BitVec 16) (body : RptBody) (limit : Nat) (s : State) : Res :=
  next (s.trifle false (fun t =>
    match bodyKind body with
    | none => .trap t .ill
    | some kind =>
      let ok := if t.lpAct then t.lpKind == kind && t.lpSz == sz.val else true
      if (kind = 4 ∧ sz ≠ 0) ∨ !ok then .trap t .ill
      else
        let u := if t.lpAct then t else t.rptStart (if rc = 0 then imm.toNat else (t.g rc).toNat) sz kind body
        .unit { u with tri.rpt := some ⟨t.tri.pc, body, if t.dbg.step then 1 else limit⟩ }))

/-! String elements (R261, R262). -/

/-- What one element did. -/
inductive ERes where
  | ok (s : State)
  | early (s : State)
  | fault (s : State) (f : TFault)

/-- The element size. -/
def State.lpSize (s : State) : Nat := 2 ^ s.lpSz

/-- The offset of the next element from a start offset (R262). -/
def State.lpOff (s : State) (start : Nat) : Nat := if s.lpDir then start + (s.lpCnt - 1) * s.lpSize else start

/-- Read the element of C[cb] at a start offset, and go on with its value. -/
def State.elemGet (s : State) (cb start : Nat) (k : State → Nat → ERes) : ERes :=
  match s.loadVal cb s.lpSize ((s.c cb).base + s.lpOff start : Nat) with
  | (.ok v, t) => k t v
  | (.error f, t) => .fault t f

/-- Write the element of C[cb] at a start offset. -/
def State.elemPut (s : State) (cb start v : Nat) : ERes :=
  match s.storeVal cb s.lpSize ((s.c cb).base + s.lpOff start : Nat) v with
  | (none, t) => .ok t
  | (some f, t) => .fault t f

/-- An element's size in bits, and a value cut to it. -/
def State.lpCut (s : State) (v : Nat) : Nat := v % 2 ^ (8 * s.lpSize)

/-- One element of a body. -/
def State.bodyElem (s : State) (b : RptBody) : ERes :=
  match b with
  | .smov _ _ cs cd => s.elemGet cs s.lpSrc (fun t v => (t.elemPut cd t.lpDst v))
  | .sset rd _ cd _ => s.elemPut cd s.lpDst (s.lpCut (s.g rd).toNat)
  | .scmp _ _ _ cs cd _ =>
    s.elemGet cs s.lpSrc (fun t v => t.elemGet cd t.lpDst (fun u w => if v = w then .ok u else .early u))
  | .sscan _ _ rb cs _ =>
    s.elemGet cs s.lpSrc (fun t v => if v = t.lpCut (t.g rb).toNat then .early t else .ok t)
  | .dstep rd rs rt w => if dstepOk rd rs rt then .ok (s.dstep rd rs rt w) else .fault s .ill
  | .other => .fault s .ill

/-- The tc of an element in Trifle Local (R263). -/
def bodyTc : RptBody → Nat
  | .smov .. => 2
  | .scmp .. => 2
  | _ => 1

/-- The LP_ registers after an element (R262). -/
def State.lpNext (s : State) : State :=
  let t := s.setSp spCnt (s.lpCnt - 1)
  if s.lpKind = 4 ∨ s.lpDir then t
  else (t.setSp spSrc (s.lpSrc + s.lpSize)).setSp spDst (s.lpDst + s.lpSize)

/-- The register that records how SCMP or SSCAN ended, and the start offset of the source. -/
def bodyResult : RptBody → Option Nat
  | .scmp rd .. => some rd
  | .sscan rd .. => some rd
  | _ => none

/-- Completion (R261, R263). -/
def State.bodyDone (s : State) (b : RptBody) : TRes :=
  let u := { s with tri.rpt := none }.lpEnd false
  .done (match bodyResult b with | some rd => u.setG rd (BitVec.allOnes 64) | none => u)

/-- An early stop at the next element (R261, R263). -/
def State.bodyEarly (s : State) (b : RptBody) : TRes :=
  let u := { s with tri.rpt := none }.lpEnd true
  .done (match bodyResult b with | some rd => u.setGN rd (s.lpOff s.lpSrc) | none => u)

/-- The body's elements in order (`more` says that one has gone before): its end, an early stop, a fault, or an interruption
point after `left` elements (R263). -/
def State.bodyRun (s : State) (b : RptBody) (rptAt : BitVec 40) (more : Bool) : Nat → TRes
  | 0 => if s.lpCnt = 0 then s.bodyDone b else .pause { s with tri.rpt := none } rptAt
  | left + 1 =>
    if s.lpCnt = 0 then s.bodyDone b
    else match (s.tick (b2n more)).bodyElem b with
    | .ok t => ((t.tick (bodyTc b - 1)).lpNext).bodyRun b rptAt true left
    | .early t => (t.tick (bodyTc b - 1)).bodyEarly b
    | .fault t f => .trap t f

/-- A body command: it runs as the body of the RPT before it, or as it does alone. -/
def State.runBody (s : State) (b : RptBody) (inSlot : Bool) (alone : State → TRes) : Res :=
  next (s.trifle inSlot (fun t =>
    match t.tri.rpt with
    | some r => t.bodyRun b r.addr false r.limit
    | none => alone t) (fun x => x == b))

/-- A string instruction that is not the body of an RPT is ILL (R261). -/
def notBody (s : State) : TRes := .trap s .ill

def execSmov (ra rb : Fin 32) (cs cd : Fin 16) (s : State) : Res := s.runBody (.smov ra rb cs cd) false notBody
def execSset (rd rb : Fin 32) (cd : Fin 16) (down : Bool) (s : State) : Res := s.runBody (.sset rd rb cd down) false notBody
def execScmp (rd ra rb : Fin 32) (cs cd : Fin 16) (down : Bool) (s : State) : Res :=
  s.runBody (.scmp rd ra rb cs cd down) false notBody
def execSscan (rd ra rb : Fin 32) (cs : Fin 16) (down : Bool) (s : State) : Res :=
  s.runBody (.sscan rd ra rb cs down) false notBody

/-- DSTEP (R236, R264): two steps of restoring division, or the steps that an RPT repeats. -/
def execDstep (rd rs rt : Fin 32) (w : Bool) (s : State) : Res :=
  s.runBody (.dstep rd rs rt w) true (fun t => if dstepOk rd rs rt then .done (t.dstep rd rs rt w) else .trap t .ill)

end Sys2Proof.Machine
end

