-- ==== Sys2Proof/Machine/TriVec.lean ====
section
/-! DEFINITION. Machine/TriVec.lean: Trifle's short vectors (R253 to R259): element operations, compares, predicates, moves
and interruptible memory access. `grp` codes groups of 1, 2 and 4 registers as 0 to 2. -/

namespace Sys2Proof.Machine

/-! Element operations (R255): on patterns of w bits, with the saturation of the result. -/

/-- A signed value saturated to w bits. -/
def satS (w : Nat) (v : Int) : Nat × Bool :=
  let lo : Int := -(2 ^ (w - 1) : Nat)
  let hi : Int := (2 ^ (w - 1) : Nat) - 1
  (ofInt (min (max v lo) hi) w, decide (v < lo) || decide (hi < v))

/-- An integer saturated to w bits unsigned. -/
def satU (w : Nat) (v : Int) : Nat × Bool :=
  let hi : Int := (2 ^ w : Nat) - 1
  (ofInt (min (max v 0) hi) w, decide (v < 0) || decide (hi < v))

/-- A result that does not saturate. -/
def noSat (v : Nat) : Nat × Bool := (v, false)

/-- A VOP: for each active element, a function of the width and of the elements of va and vb (R254, R255). -/
def State.vop (s : State) (vd va vb : Fin 32) (grp : Fin 3) (es : Fin 4) (pr : Fin 8)
    (f : Nat → Nat → Nat → Nat × Bool) : Res :=
  next (s.trifle true (fun t =>
    if !(grpOk grp vd && grpOk grp va && grpOk grp vb) then .trap t .ill
    else
      let a := t.vgroup grp va
      let b := t.vgroup grp vb
      let r := (upto (grpElems grp es)).foldl (fun (acc : Nat × Bool) k =>
        if t.active pr k then
          let (x, sat) := f (8 * elemBytes es) (velem es a k) (velem es b k)
          (setVelem es acc.1 k x, acc.2 || sat)
        else acc) (t.vgroup grp vd, false)
      .done ((t.setVgroup grp vd r.1).raiseSat r.2)))

def execVadd (vd va vb : Fin 32) (grp : Fin 3) (es : Fin 4) (pr : Fin 8) (s : State) : Res :=
  s.vop vd va vb grp es pr (fun _ a b => noSat (a + b))
def execVsub (vd va vb : Fin 32) (grp : Fin 3) (es : Fin 4) (pr : Fin 8) (s : State) : Res :=
  s.vop vd va vb grp es pr (fun w a b => noSat (a + 2 ^ w - b))
def execVadds (vd va vb : Fin 32) (grp : Fin 3) (es : Fin 4) (pr : Fin 8) (s : State) : Res :=
  s.vop vd va vb grp es pr (fun w a b => satS w (asInt a w + asInt b w))
def execVsubs (vd va vb : Fin 32) (grp : Fin 3) (es : Fin 4) (pr : Fin 8) (s : State) : Res :=
  s.vop vd va vb grp es pr (fun w a b => satS w (asInt a w - asInt b w))
def execVaddus (vd va vb : Fin 32) (grp : Fin 3) (es : Fin 4) (pr : Fin 8) (s : State) : Res :=
  s.vop vd va vb grp es pr (fun w a b => satU w ((a + b : Nat) : Int))
def execVsubus (vd va vb : Fin 32) (grp : Fin 3) (es : Fin 4) (pr : Fin 8) (s : State) : Res :=
  s.vop vd va vb grp es pr (fun w a b => satU w ((a : Int) - b))
def execVand (vd va vb : Fin 32) (grp : Fin 3) (es : Fin 4) (pr : Fin 8) (s : State) : Res :=
  s.vop vd va vb grp es pr (fun _ a b => noSat (Nat.land a b))
def execVor (vd va vb : Fin 32) (grp : Fin 3) (es : Fin 4) (pr : Fin 8) (s : State) : Res :=
  s.vop vd va vb grp es pr (fun _ a b => noSat (Nat.lor a b))
def execVxor (vd va vb : Fin 32) (grp : Fin 3) (es : Fin 4) (pr : Fin 8) (s : State) : Res :=
  s.vop vd va vb grp es pr (fun _ a b => noSat (Nat.xor a b))
def execVandn (vd va vb : Fin 32) (grp : Fin 3) (es : Fin 4) (pr : Fin 8) (s : State) : Res :=
  s.vop vd va vb grp es pr (fun w a b => noSat (Nat.land a (2 ^ w - 1 - b)))
def execVmin (vd va vb : Fin 32) (grp : Fin 3) (es : Fin 4) (pr : Fin 8) (s : State) : Res :=
  s.vop vd va vb grp es pr (fun w a b => noSat (if asInt b w < asInt a w then b else a))
def execVmax (vd va vb : Fin 32) (grp : Fin 3) (es : Fin 4) (pr : Fin 8) (s : State) : Res :=
  s.vop vd va vb grp es pr (fun w a b => noSat (if asInt a w < asInt b w then b else a))
def execVminu (vd va vb : Fin 32) (grp : Fin 3) (es : Fin 4) (pr : Fin 8) (s : State) : Res :=
  s.vop vd va vb grp es pr (fun _ a b => noSat (min a b))
def execVmaxu (vd va vb : Fin 32) (grp : Fin 3) (es : Fin 4) (pr : Fin 8) (s : State) : Res :=
  s.vop vd va vb grp es pr (fun _ a b => noSat (max a b))
def execVmul (vd va vb : Fin 32) (grp : Fin 3) (es : Fin 4) (pr : Fin 8) (s : State) : Res :=
  s.vop vd va vb grp es pr (fun _ a b => noSat (a * b))

/-- VQMULE and VQMULH: elements of 2 or 4 bytes only (R255). -/
def State.vqmul (s : State) (vd va vb : Fin 32) (grp : Fin 3) (es : Fin 4) (pr : Fin 8) (q : Bool) : Res :=
  if es = 1 ∨ es = 2 then
    s.vop vd va vb grp es pr (fun w a b => satS w (rndQ (asInt a w * asInt b w) (w - 1) q))
  else next (s.trifle true (fun t => .trap t .ill))

def execVqmule (vd va vb : Fin 32) (grp : Fin 3) (es : Fin 4) (pr : Fin 8) (s : State) : Res :=
  s.vqmul vd va vb grp es pr false
def execVqmulh (vd va vb : Fin 32) (grp : Fin 3) (es : Fin 4) (pr : Fin 8) (s : State) : Res :=
  s.vqmul vd va vb grp es pr true

def execVshl (vd va vb : Fin 32) (grp : Fin 3) (es : Fin 4) (pr : Fin 8) (s : State) : Res :=
  s.vop vd va vb grp es pr (fun _ a b => noSat (a * 2 ^ (b % 256)))
def execVshls (vd va vb : Fin 32) (grp : Fin 3) (es : Fin 4) (pr : Fin 8) (s : State) : Res :=
  s.vop vd va vb grp es pr (fun w a b => satS w (asInt a w * (2 ^ (b % 256) : Nat)))
def execVsrl (vd va vb : Fin 32) (grp : Fin 3) (es : Fin 4) (pr : Fin 8) (s : State) : Res :=
  s.vop vd va vb grp es pr (fun _ a b => noSat (a / 2 ^ (b % 256)))
def execVsra (vd va vb : Fin 32) (grp : Fin 3) (es : Fin 4) (pr : Fin 8) (s : State) : Res :=
  s.vop vd va vb grp es pr (fun w a b => noSat (ofInt (asInt a w / (2 ^ (b % 256) : Nat)) w))
def execVrshre (vd va vb : Fin 32) (grp : Fin 3) (es : Fin 4) (pr : Fin 8) (s : State) : Res :=
  s.vop vd va vb grp es pr (fun w a b => satS w (rndQ (asInt a w) (b % 256) false))
def execVrshrh (vd va vb : Fin 32) (grp : Fin 3) (es : Fin 4) (pr : Fin 8) (s : State) : Res :=
  s.vop vd va vb grp es pr (fun w a b => satS w (rndQ (asInt a w) (b % 256) true))

/-! Compares and predicates (R256). -/

/-- The relations of VCMP. -/
def vcmpRel (fn w a b : Nat) : Bool :=
  match fn with
  | 0 => a == b
  | 1 => a != b
  | 2 => decide (asInt a w < asInt b w)
  | 3 => decide (asInt a w ≤ asInt b w)
  | 4 => decide (a < b)
  | _ => decide (a ≤ b)

/-- VCMP (R256). -/
def execVcmp (pd : Fin 8) (va vb : Fin 32) (fn : Fin 6) (es : Fin 4) (grp : Fin 3) (pr : Fin 8) (s : State) : Res :=
  next (s.trifle true (fun t =>
    if !(grpOk grp va && grpOk grp vb) then .trap t .ill
    else
      let a := t.vgroup grp va
      let b := t.vgroup grp vb
      .done (t.setP pd (BitVec.ofNat 64 ((upto (grpElems grp es)).foldl (fun acc k =>
        acc + b2n (t.active pr k && vcmpRel fn (8 * elemBytes es) (velem es a k) (velem es b k)) * 2 ^ k) 0)))))

def execPand (pd pa pb : Fin 8) (s : State) : Res := s.plain (fun t => t.setP pd (t.p pa &&& t.p pb))
def execPor (pd pa pb : Fin 8) (s : State) : Res := s.plain (fun t => t.setP pd (t.p pa ||| t.p pb))
def execPxor (pd pa pb : Fin 8) (s : State) : Res := s.plain (fun t => t.setP pd (t.p pa ^^^ t.p pb))
def execPandn (pd pa pb : Fin 8) (s : State) : Res := s.plain (fun t => t.setP pd (t.p pa &&& ~~~t.p pb))
def execPnot (pd pa : Fin 8) (s : State) : Res := s.plain (fun t => t.setP pd (~~~t.p pa))
def execPfromg (pd : Fin 8) (rg : Fin 32) (s : State) : Res := s.plain (fun t => t.setP pd (t.g rg))
def execPtog (pa : Fin 8) (rg : Fin 32) (s : State) : Res := s.plain (fun t => t.setG rg (t.p pa))
def execPcnt (pa : Fin 8) (rg : Fin 32) (s : State) : Res := s.plain (fun t => t.setGN rg (popcount 64 (t.p pa).toNat))
def execPfirst (pa : Fin 8) (rg : Fin 32) (s : State) : Res := s.plain (fun t => t.setGN rg (ctz 64 (t.p pa).toNat))

/-! Moves (R257): an index of n or more is ILL, and so is a register that names no group. -/

def execVins (d r : Fin 32) (es : Fin 4) (idx : Fin 64) (grp : Fin 3) (s : State) : Res :=
  next (s.trifle true (fun t =>
    if !grpOk grp d || decide (grpElems grp es ≤ idx.val) then .trap t .ill
    else .done (t.setVgroup grp d (setVelem es (t.vgroup grp d) idx (t.g r).toNat))))
def execVext (d r : Fin 32) (es : Fin 4) (idx : Fin 64) (grp : Fin 3) (s : State) : Res :=
  next (s.trifle true (fun t =>
    if !grpOk grp r || decide (grpElems grp es ≤ idx.val) then .trap t .ill
    else .done (t.setGN d (velem es (t.vgroup grp r) idx))))
def execVsplat (d r : Fin 32) (es : Fin 4) (grp : Fin 3) (s : State) : Res :=
  next (s.trifle true (fun t =>
    if !grpOk grp d then .trap t .ill
    else .done (t.setVgroup grp d ((upto (grpElems grp es)).foldl (fun v k => setVelem es v k (t.g r).toNat) 0))))
def execVmovv (d r : Fin 32) (grp : Fin 3) (s : State) : Res :=
  next (s.trifle true (fun t =>
    if !(grpOk grp d && grpOk grp r) then .trap t .ill else .done (t.setVgroup grp d (t.vgroup grp r))))

/-! Memory access (R258, R259). -/

/-- A part of a vector access: its first element, its elements, its address and bytes. -/
structure VPart where
  elem : Nat
  count : Nat
  addr : Int
  len : Nat
deriving DecidableEq, Repr

/-- The parts from element k, in ascending order: runs of consecutive active elements within one aligned 64 B block; an
element that crosses a block is a part by itself. `fuel` is the number of elements left. -/
def vparts (act : Nat → Bool) (base : Int) (e : Nat) : Nat → Nat → List VPart
  | 0, _ => []
  | fuel + 1, k =>
    let rest := vparts act base e fuel (k + 1)
    if !act k then rest
    else
      let a := base + (k * e : Nat)
      let inBlock := decide (a / 64 = (a + e - 1) / 64)
      match rest with
      | p :: ps =>
        if inBlock && decide (p.elem = k + 1) && decide (p.addr / 64 = a / 64) && decide (a / 64 = (p.addr + p.len - 1) / 64)
        then ⟨k, p.count + 1, a, p.len + e⟩ :: ps else ⟨k, 1, a, e⟩ :: rest
      | [] => [⟨k, 1, a, e⟩]

/-- Does a part cross a 64 B block: an element by itself? -/
def VPart.crosses (p : VPart) : Bool := p.addr / 64 != (p.addr + p.len - 1) / 64

/-- The transactions of a part: two for an element that crosses a block. -/
def VPart.pieces (p : VPart) (e : Nat) : List (Nat × Nat) :=
  if p.crosses then splitParts p.addr.toNat e else [(p.addr.toNat, p.len)]

/-- The parts are made in order, each checked first, one tc apart (`more` says that a part has gone before); a fault or the
interruption point after `left` parts leaves VX_IDX at the next element, the end leaves it 0. -/
def State.vaccess (s : State) (store : Bool) (v grp cb e es : Nat) (more : Bool) : List VPart → Nat → TRes
  | [], _ => .done (s.setSp spVx 0)
  | p :: _, 0 => .pause (s.setSp spVx p.elem) s.tri.pc
  | p :: ps, left + 1 =>
    let s := s.tick (b2n more)
    match s.capCheck cb [if store then permW else permR] 1 p.len p.addr with
    | some f => .trap (s.setSp spVx p.elem) f
    | none =>
      if store then
        let bs := ((upto p.count).map (fun i => toBytes e (velem es (s.vgroup grp v) (p.elem + i)))).flatten
        match s.writeParts cb p.crosses (p.pieces e) bs with
        | (some f, t) => .trap (t.setSp spVx p.elem) f
        | (none, t) => t.vaccess store v grp cb e es true ps left
      else
        match s.readParts cb p.crosses (p.pieces e) with
        | (.error f, t) => .trap (t.setSp spVx p.elem) f
        | (.ok bs, t) =>
          let xs := elemsOf p.count e bs
          let val := (upto p.count).foldl (fun acc i => setVelem es acc (p.elem + i) (nth xs i)) (t.vgroup grp v)
          (t.setVgroup grp v val).vaccess store v grp cb e es true ps left

/-- VMEM (R258, R259): `limit` is the number of parts before an interruption point ends it; a delay slot has none (R241). A
VX_IDX of n or more is ILL. -/
def State.vmem (s : State) (store : Bool) (v ra : Fin 32) (cb : Fin 16) (grp : Fin 3) (es : Fin 4) (pr : Fin 8)
    (limit : Nat) : Res :=
  next (s.trifle true (fun t =>
    let n := grpElems grp es
    let k := (t.sp spVx).toNat
    if !grpOk grp v || decide (n ≤ k) then .trap t .ill
    else t.vaccess store v grp cb (elemBytes es) es false
      (vparts (t.active pr) (t.ea cb ra 0 1) (elemBytes es) (n - k) k)
      (if t.tri.slot.isSome then n else if t.dbg.step then 1 else limit)))

def execVmemLoad (v ra : Fin 32) (cb : Fin 16) (grp : Fin 3) (es : Fin 4) (pr : Fin 8) (limit : Nat) (s : State) : Res :=
  s.vmem false v ra cb grp es pr limit
def execVmemStore (v ra : Fin 32) (cb : Fin 16) (grp : Fin 3) (es : Fin 4) (pr : Fin 8) (limit : Nat) (s : State) : Res :=
  s.vmem true v ra cb grp es pr limit

end Sys2Proof.Machine
end

