-- ==== Sys2Proof/Machine/Dispatch.lean ====
section
/-! DEFINITION. Machine/Dispatch.lean: each command's meaning, one arm per constructor, in the table's order. -/

namespace Sys2Proof.Machine

def exec (i : Instr) (s : State) : Host.Outcome State Fault Refusal :=
  match i with
  | .registerWrite master secure addr value => Sys2Proof.Machine.execRegisterWrite master secure addr value s
  | .bulkAccess asker write addr len data upsets => Sys2Proof.Machine.execBulkAccess asker write addr len data upsets s
  | .bulkReRead addr => Sys2Proof.Machine.execBulkReRead addr s
  | .latticeAccess reqs upsets => Sys2Proof.Machine.execLatticeAccess reqs upsets s
  | .readData => Sys2Proof.Machine.execReadData s
  | .writeHalf bank => Sys2Proof.Machine.execWriteHalf bank s
  | .eccWriteBack pbank => Sys2Proof.Machine.execEccWriteBack pbank s
  | .eccReRead pbank => Sys2Proof.Machine.execEccReRead pbank s
  | .phaseTableActivate => Sys2Proof.Machine.execPhaseTableActivate s
  | .scrub upsets => Sys2Proof.Machine.execScrub upsets s
  | .spareCmd lbank => Sys2Proof.Machine.execSpareCmd lbank s
  | .sparePendClear n mask => Sys2Proof.Machine.execSparePendClear n mask s
  | .copyStart => Sys2Proof.Machine.execCopyStart s
  | .rowCopy => Sys2Proof.Machine.execRowCopy s
  | .spareSwitch => Sys2Proof.Machine.execSpareSwitch s
  | .spareEntryWrite spare state lbank => Sys2Proof.Machine.execSpareEntryWrite spare state lbank s
  | .descriptorFetch chain dec => Sys2Proof.Machine.execDescriptorFetch chain dec s
  | .tableLoad load => Sys2Proof.Machine.execTableLoad load s
  | .streamRead chain port dec => Sys2Proof.Machine.execStreamRead chain port dec s
  | .streamWrite chain port diff => Sys2Proof.Machine.execStreamWrite chain port diff s
  | .stopWriteBack chain diff => Sys2Proof.Machine.execStopWriteBack chain diff s
  | .qsinkMessage chain port diff => Sys2Proof.Machine.execQsinkMessage chain port diff s
  | .load => Sys2Proof.Machine.execLoad s
  | .cctLoadDone => Sys2Proof.Machine.execCctLoadDone s
  | .commit => Sys2Proof.Machine.execCommit s
  | .ribDone => Sys2Proof.Machine.execRibDone s
  | .lanemapWrite strand value => Sys2Proof.Machine.execLanemapWrite strand value s
  | .runSet => Sys2Proof.Machine.execRunSet s
  | .runClear => Sys2Proof.Machine.execRunClear s
  | .checkPass => Sys2Proof.Machine.execCheckPass s
  | .stoppedEntry => Sys2Proof.Machine.execStoppedEntry s
  | .roundBoundary => Sys2Proof.Machine.execRoundBoundary s
  | .nop => Sys2Proof.Machine.execNop s
  | .wait cyc => Sys2Proof.Machine.execWait cyc s
  | .launch strands chain => Sys2Proof.Machine.execLaunch strands chain s
  | .slot lead list strands endRcr => Sys2Proof.Machine.execSlot lead list strands endRcr s
  | .reserve endRcr => Sys2Proof.Machine.execReserve endRcr s
  | .exch deadline dir count first => Sys2Proof.Machine.execExch deadline dir count first s
  | .move desc mover => Sys2Proof.Machine.execMove desc mover s
  | .ptab table => Sys2Proof.Machine.execPtab table s
  | .mark stamp irq n => Sys2Proof.Machine.execMark stamp irq n s
  | .eventDoorbell bells chan => Sys2Proof.Machine.execEventDoorbell bells chan s
  | .sendEvent => Sys2Proof.Machine.execSendEvent s
  | .eventArm list entry => Sys2Proof.Machine.execEventArm list entry s
  | .eventCancel list entry => Sys2Proof.Machine.execEventCancel list entry s
  | .skipr n m k => Sys2Proof.Machine.execSkipr n m k s
  | .roundend => Sys2Proof.Machine.execRoundend s
  | .launchDecision list => Sys2Proof.Machine.execLaunchDecision list s
  | .preempt list => Sys2Proof.Machine.execPreempt list s
  | .slotEnd list => Sys2Proof.Machine.execSlotEnd list s
  | .softcmdArm list entry => Sys2Proof.Machine.execSoftcmdArm list entry s
  | .softcmdCancel list entry => Sys2Proof.Machine.execSoftcmdCancel list entry s
  | .depthMet list entry => Sys2Proof.Machine.execDepthMet list entry s
  | .retry => Sys2Proof.Machine.execRetry s
  | .reserveEnd => Sys2Proof.Machine.execReserveEnd s
  | .exchDeadline => Sys2Proof.Machine.execExchDeadline s
  | .swapRequest sched cct fw => Sys2Proof.Machine.execSwapRequest sched cct fw s
  | .abort => Sys2Proof.Machine.execAbort s
  | .swapCheck => Sys2Proof.Machine.execSwapCheck s
  | .swapCommit => Sys2Proof.Machine.execSwapCommit s
  | .swap => Sys2Proof.Machine.execSwap s
  | .voterDisagreement v0 v1 v2 alarm => Sys2Proof.Machine.execVoterDisagreement v0 v1 v2 alarm s
  | .resynchronisation check => Sys2Proof.Machine.execResynchronisation check s
  | .resyncRestart => Sys2Proof.Machine.execResyncRestart s
  | .voterSelfTest disturbed pass => Sys2Proof.Machine.execVoterSelfTest disturbed pass s
  | .mismatchEvent => Sys2Proof.Machine.execMismatchEvent s
  | .testStep strand found => Sys2Proof.Machine.execTestStep strand found s
  | .rcUpset machines => Sys2Proof.Machine.execRcUpset machines s
  | .watcherExpiry => Sys2Proof.Machine.execWatcherExpiry s
  | .resync => Sys2Proof.Machine.execResync s
  | .ltest strand => Sys2Proof.Machine.execLtest strand s
  | .clrhist => Sys2Proof.Machine.execClrhist s
  | .add rd ra rb => Sys2Proof.Machine.execAdd rd ra rb s
  | .sub rd ra rb => Sys2Proof.Machine.execSub rd ra rb s
  | .and rd ra rb => Sys2Proof.Machine.execAnd rd ra rb s
  | .or rd ra rb => Sys2Proof.Machine.execOr rd ra rb s
  | .xor rd ra rb => Sys2Proof.Machine.execXor rd ra rb s
  | .andn rd ra rb => Sys2Proof.Machine.execAndn rd ra rb s
  | .sll rd ra rb => Sys2Proof.Machine.execSll rd ra rb s
  | .srl rd ra rb => Sys2Proof.Machine.execSrl rd ra rb s
  | .sra rd ra rb => Sys2Proof.Machine.execSra rd ra rb s
  | .slt rd ra rb => Sys2Proof.Machine.execSlt rd ra rb s
  | .sltu rd ra rb => Sys2Proof.Machine.execSltu rd ra rb s
  | .min rd ra rb => Sys2Proof.Machine.execMin rd ra rb s
  | .max rd ra rb => Sys2Proof.Machine.execMax rd ra rb s
  | .minu rd ra rb => Sys2Proof.Machine.execMinu rd ra rb s
  | .maxu rd ra rb => Sys2Proof.Machine.execMaxu rd ra rb s
  | .addw rd ra rb => Sys2Proof.Machine.execAddw rd ra rb s
  | .subw rd ra rb => Sys2Proof.Machine.execSubw rd ra rb s
  | .sllw rd ra rb => Sys2Proof.Machine.execSllw rd ra rb s
  | .srlw rd ra rb => Sys2Proof.Machine.execSrlw rd ra rb s
  | .sraw rd ra rb => Sys2Proof.Machine.execSraw rd ra rb s
  | .clz rd ra => Sys2Proof.Machine.execClz rd ra s
  | .ctz rd ra => Sys2Proof.Machine.execCtz rd ra s
  | .popc rd ra => Sys2Proof.Machine.execPopc rd ra s
  | .addi rd ra imm => Sys2Proof.Machine.execAddi rd ra imm s
  | .andi rd ra imm => Sys2Proof.Machine.execAndi rd ra imm s
  | .ori rd ra imm => Sys2Proof.Machine.execOri rd ra imm s
  | .xori rd ra imm => Sys2Proof.Machine.execXori rd ra imm s
  | .slti rd ra imm => Sys2Proof.Machine.execSlti rd ra imm s
  | .sltiu rd ra imm => Sys2Proof.Machine.execSltiu rd ra imm s
  | .slli rd ra sh => Sys2Proof.Machine.execSlli rd ra sh s
  | .srli rd ra sh => Sys2Proof.Machine.execSrli rd ra sh s
  | .srai rd ra sh => Sys2Proof.Machine.execSrai rd ra sh s
  | .addiw rd ra imm => Sys2Proof.Machine.execAddiw rd ra imm s
  | .lui rd imm => Sys2Proof.Machine.execLui rd imm s
  | .lb rd ra cb imm => Sys2Proof.Machine.execLb rd ra cb imm s
  | .lbu rd ra cb imm => Sys2Proof.Machine.execLbu rd ra cb imm s
  | .lh rd ra cb imm => Sys2Proof.Machine.execLh rd ra cb imm s
  | .lhu rd ra cb imm => Sys2Proof.Machine.execLhu rd ra cb imm s
  | .lw rd ra cb imm => Sys2Proof.Machine.execLw rd ra cb imm s
  | .lwu rd ra cb imm => Sys2Proof.Machine.execLwu rd ra cb imm s
  | .ld rd ra cb imm => Sys2Proof.Machine.execLd rd ra cb imm s
  | .sb rs ra cb imm => Sys2Proof.Machine.execSb rs ra cb imm s
  | .sh rs ra cb imm => Sys2Proof.Machine.execSh rs ra cb imm s
  | .sw rs ra cb imm => Sys2Proof.Machine.execSw rs ra cb imm s
  | .sd rs ra cb imm => Sys2Proof.Machine.execSd rs ra cb imm s
  | .atomicSwap rd ra rb cb w => Sys2Proof.Machine.execAtomicSwap rd ra rb cb w s
  | .atomicAdd rd ra rb cb w => Sys2Proof.Machine.execAtomicAdd rd ra rb cb w s
  | .atomicAnd rd ra rb cb w => Sys2Proof.Machine.execAtomicAnd rd ra rb cb w s
  | .atomicOr rd ra rb cb w => Sys2Proof.Machine.execAtomicOr rd ra rb cb w s
  | .atomicXor rd ra rb cb w => Sys2Proof.Machine.execAtomicXor rd ra rb cb w s
  | .atomicMin rd ra rb cb w => Sys2Proof.Machine.execAtomicMin rd ra rb cb w s
  | .atomicMax rd ra rb cb w => Sys2Proof.Machine.execAtomicMax rd ra rb cb w s
  | .atomicMinu rd ra rb cb w => Sys2Proof.Machine.execAtomicMinu rd ra rb cb w s
  | .atomicMaxu rd ra rb cb w => Sys2Proof.Machine.execAtomicMaxu rd ra rb cb w s
  | .cas rd ra rb cb w => Sys2Proof.Machine.execCas rd ra rb cb w s
  | .mul ra rb => Sys2Proof.Machine.execMul ra rb s
  | .mulu ra rb => Sys2Proof.Machine.execMulu ra rb s
  | .mulsu ra rb => Sys2Proof.Machine.execMulsu ra rb s
  | .mac ra rb => Sys2Proof.Machine.execMac ra rb s
  | .macu ra rb => Sys2Proof.Machine.execMacu ra rb s
  | .productWrite => Sys2Proof.Machine.execProductWrite s
  | .dstep rd rs rt w => Sys2Proof.Machine.execDstep rd rs rt w s
  | .bcmp ra rb cond a disp => Sys2Proof.Machine.execBcmp ra rb cond a disp s
  | .bz ra cond a disp => Sys2Proof.Machine.execBz ra cond a disp s
  | .jal rd disp => Sys2Proof.Machine.execJal rd disp s
  | .jalr rd ra imm => Sys2Proof.Machine.execJalr rd ra imm s
  | .specNop => Sys2Proof.Machine.execSpecNop s
  | .sync => Sys2Proof.Machine.execSync s
  | .mfsr g sr => Sys2Proof.Machine.execMfsr g sr s
  | .mtsr g sr => Sys2Proof.Machine.execMtsr g sr s
  | .fadd fd fa fb p rm => Sys2Proof.Machine.execFadd fd fa fb p rm s
  | .fsub fd fa fb p rm => Sys2Proof.Machine.execFsub fd fa fb p rm s
  | .fmul fd fa fb p rm => Sys2Proof.Machine.execFmul fd fa fb p rm s
  | .fmin fd fa fb p => Sys2Proof.Machine.execFmin fd fa fb p s
  | .fmax fd fa fb p => Sys2Proof.Machine.execFmax fd fa fb p s
  | .fminn fd fa fb p => Sys2Proof.Machine.execFminn fd fa fb p s
  | .fmaxn fd fa fb p => Sys2Proof.Machine.execFmaxn fd fa fb p s
  | .fabs fd fa p => Sys2Proof.Machine.execFabs fd fa p s
  | .fneg fd fa p => Sys2Proof.Machine.execFneg fd fa p s
  | .frstep fd fa p rm => Sys2Proof.Machine.execFrstep fd fa p rm s
  | .fsqstep fd fa p rm => Sys2Proof.Machine.execFsqstep fd fa p rm s
  | .fma fd fa fb fc negp negc p rm => Sys2Proof.Machine.execFma fd fa fb fc negp negc p rm s
  | .flw f ra cb imm => Sys2Proof.Machine.execFlw f ra cb imm s
  | .fld f ra cb imm => Sys2Proof.Machine.execFld f ra cb imm s
  | .fsw f ra cb imm => Sys2Proof.Machine.execFsw f ra cb imm s
  | .fsd f ra cb imm => Sys2Proof.Machine.execFsd f ra cb imm s
  | .fmv d r => Sys2Proof.Machine.execFmv d r s
  | .fmvxf d r => Sys2Proof.Machine.execFmvxf d r s
  | .fmvfx d r => Sys2Proof.Machine.execFmvfx d r s
  | .fcvtff d r p rm => Sys2Proof.Machine.execFcvtff d r p rm s
  | .fcvtfs d r p rm => Sys2Proof.Machine.execFcvtfs d r p rm s
  | .fcvtfu d r p rm => Sys2Proof.Machine.execFcvtfu d r p rm s
  | .fcvtsf d r p rm => Sys2Proof.Machine.execFcvtsf d r p rm s
  | .fcvtuf d r p rm => Sys2Proof.Machine.execFcvtuf d r p rm s
  | .fclass d r p => Sys2Proof.Machine.execFclass d r p s
  | .frcsr d => Sys2Proof.Machine.execFrcsr d s
  | .fwcsr r => Sys2Proof.Machine.execFwcsr r s
  | .fcmp rd fa fb cond p => Sys2Proof.Machine.execFcmp rd fa fb cond p s
  | .vadd vd va vb grp es pr => Sys2Proof.Machine.execVadd vd va vb grp es pr s
  | .vsub vd va vb grp es pr => Sys2Proof.Machine.execVsub vd va vb grp es pr s
  | .vadds vd va vb grp es pr => Sys2Proof.Machine.execVadds vd va vb grp es pr s
  | .vsubs vd va vb grp es pr => Sys2Proof.Machine.execVsubs vd va vb grp es pr s
  | .vaddus vd va vb grp es pr => Sys2Proof.Machine.execVaddus vd va vb grp es pr s
  | .vsubus vd va vb grp es pr => Sys2Proof.Machine.execVsubus vd va vb grp es pr s
  | .vand vd va vb grp es pr => Sys2Proof.Machine.execVand vd va vb grp es pr s
  | .vor vd va vb grp es pr => Sys2Proof.Machine.execVor vd va vb grp es pr s
  | .vxor vd va vb grp es pr => Sys2Proof.Machine.execVxor vd va vb grp es pr s
  | .vandn vd va vb grp es pr => Sys2Proof.Machine.execVandn vd va vb grp es pr s
  | .vmin vd va vb grp es pr => Sys2Proof.Machine.execVmin vd va vb grp es pr s
  | .vmax vd va vb grp es pr => Sys2Proof.Machine.execVmax vd va vb grp es pr s
  | .vminu vd va vb grp es pr => Sys2Proof.Machine.execVminu vd va vb grp es pr s
  | .vmaxu vd va vb grp es pr => Sys2Proof.Machine.execVmaxu vd va vb grp es pr s
  | .vmul vd va vb grp es pr => Sys2Proof.Machine.execVmul vd va vb grp es pr s
  | .vqmule vd va vb grp es pr => Sys2Proof.Machine.execVqmule vd va vb grp es pr s
  | .vqmulh vd va vb grp es pr => Sys2Proof.Machine.execVqmulh vd va vb grp es pr s
  | .vshl vd va vb grp es pr => Sys2Proof.Machine.execVshl vd va vb grp es pr s
  | .vshls vd va vb grp es pr => Sys2Proof.Machine.execVshls vd va vb grp es pr s
  | .vsrl vd va vb grp es pr => Sys2Proof.Machine.execVsrl vd va vb grp es pr s
  | .vsra vd va vb grp es pr => Sys2Proof.Machine.execVsra vd va vb grp es pr s
  | .vrshre vd va vb grp es pr => Sys2Proof.Machine.execVrshre vd va vb grp es pr s
  | .vrshrh vd va vb grp es pr => Sys2Proof.Machine.execVrshrh vd va vb grp es pr s
  | .vcmp pd va vb fn es grp pr => Sys2Proof.Machine.execVcmp pd va vb fn es grp pr s
  | .pand pd pa pb => Sys2Proof.Machine.execPand pd pa pb s
  | .por pd pa pb => Sys2Proof.Machine.execPor pd pa pb s
  | .pxor pd pa pb => Sys2Proof.Machine.execPxor pd pa pb s
  | .pandn pd pa pb => Sys2Proof.Machine.execPandn pd pa pb s
  | .pnot pd pa => Sys2Proof.Machine.execPnot pd pa s
  | .pfromg pd rg => Sys2Proof.Machine.execPfromg pd rg s
  | .ptog pa rg => Sys2Proof.Machine.execPtog pa rg s
  | .pcnt pa rg => Sys2Proof.Machine.execPcnt pa rg s
  | .pfirst pa rg => Sys2Proof.Machine.execPfirst pa rg s
  | .vins d r es idx grp => Sys2Proof.Machine.execVins d r es idx grp s
  | .vext d r es idx grp => Sys2Proof.Machine.execVext d r es idx grp s
  | .vsplat d r es grp => Sys2Proof.Machine.execVsplat d r es grp s
  | .vmovv d r grp => Sys2Proof.Machine.execVmovv d r grp s
  | .vmemLoad v ra cb grp es pr limit => Sys2Proof.Machine.execVmemLoad v ra cb grp es pr limit s
  | .vmemStore v ra cb grp es pr limit => Sys2Proof.Machine.execVmemStore v ra cb grp es pr limit s
  | .rpt rc sz imm body limit => Sys2Proof.Machine.execRpt rc sz imm body limit s
  | .smov ra rb cs cd => Sys2Proof.Machine.execSmov ra rb cs cd s
  | .sset rd rb cd down => Sys2Proof.Machine.execSset rd rb cd down s
  | .scmp rd ra rb cs cd down => Sys2Proof.Machine.execScmp rd ra rb cs cd down s
  | .sscan rd ra rb cs down => Sys2Proof.Machine.execSscan rd ra rb cs down s
  | .waitev rd ra => Sys2Proof.Machine.execWaitev rd ra s
  | .waitevLimit => Sys2Proof.Machine.execWaitevLimit s
  | .sigev tgt => Sys2Proof.Machine.execSigev tgt s
  | .waitt rd ra => Sys2Proof.Machine.execWaitt rd ra s
  | .waittEnd => Sys2Proof.Machine.execWaittEnd s
  | .capld cd ra cb imm => Sys2Proof.Machine.execCapld cd ra cb imm s
  | .capst cd ra cb imm => Sys2Proof.Machine.execCapst cd ra cb imm s
  | .capmv cd cs => Sys2Proof.Machine.execCapmv cd cs s
  | .capnul cd => Sys2Proof.Machine.execCapnul cd s
  | .capsub cd cs ra rb => Sys2Proof.Machine.execCapsub cd cs ra rb s
  | .caprst cd cs ra => Sys2Proof.Machine.execCaprst cd cs ra s
  | .capseal cd cs ck => Sys2Proof.Machine.execCapseal cd cs ck s
  | .capopen cd cs ck => Sys2Proof.Machine.execCapopen cd cs ck s
  | .capslot cd cs ra => Sys2Proof.Machine.execCapslot cd cs ra s
  | .capfch cd => Sys2Proof.Machine.execCapfch cd s
  | .caprb cs ra => Sys2Proof.Machine.execCaprb cs ra s
  | .caprl cs ra => Sys2Proof.Machine.execCaprl cs ra s
  | .caprm cs ra => Sys2Proof.Machine.execCaprm cs ra s
  | .caprv cs ra => Sys2Proof.Machine.execCaprv cs ra s
  | .capre cs ra => Sys2Proof.Machine.execCapre cs ra s
  | .gate n keep => Sys2Proof.Machine.execGate n keep s
  | .gret keep => Sys2Proof.Machine.execGret keep s
  | .hret => Sys2Proof.Machine.execHret s
  | .hrel => Sys2Proof.Machine.execHrel s
  | .mfsys g n => Sys2Proof.Machine.execMfsys g n s
  | .mtsys g cb n => Sys2Proof.Machine.execMtsys g cb n s
  | .ctoge c cb n data => Sys2Proof.Machine.execCtoge c cb n data s
  | .getoc c cb n data => Sys2Proof.Machine.execGetoc c cb n data s
  | .interruptEntry => Sys2Proof.Machine.execInterruptEntry s
  | .holdWindowEnd => Sys2Proof.Machine.execHoldWindowEnd s
  | .arm cb g => Sys2Proof.Machine.execArm cb g s
  | .cancel cb g => Sys2Proof.Machine.execCancel cb g s
  | .sourceEdge n => Sys2Proof.Machine.execSourceEdge n s
  | .unpend k mask => Sys2Proof.Machine.execUnpend k mask s
  | .slotLatch slot => Sys2Proof.Machine.execSlotLatch slot s
  | .mbxPost master secure chan bells => Sys2Proof.Machine.execMbxPost master secure chan bells s
  | .mbxAck master secure chan ack => Sys2Proof.Machine.execMbxAck master secure chan ack s
  | .mbxCfg master secure chan value => Sys2Proof.Machine.execMbxCfg master secure chan value s
  | .post cb g => Sys2Proof.Machine.execPost cb g s
  | .ack cb g => Sys2Proof.Machine.execAck cb g s
  | .ring cb g => Sys2Proof.Machine.execRing cb g s
  | .setep cb g => Sys2Proof.Machine.execSetep cb g s
  | .enq cb g => Sys2Proof.Machine.execEnq cb g s
  | .deq cb g => Sys2Proof.Machine.execDeq cb g s
  | .drop cb g => Sys2Proof.Machine.execDrop cb g s
  | .stat cb g => Sys2Proof.Machine.execStat cb g s
  | .attach cb g => Sys2Proof.Machine.execAttach cb g s
  | .detach cb g => Sys2Proof.Machine.execDetach cb g s
  | .stallVisit queue => Sys2Proof.Machine.execStallVisit queue s
  | .queStallq => Sys2Proof.Machine.execQueStallq s
  | .queNote f => Sys2Proof.Machine.execQueNote f s
  | .portUp port => Sys2Proof.Machine.execPortUp port s
  | .segmentDown port => Sys2Proof.Machine.execSegmentDown port s
  | .lack port lseq good => Sys2Proof.Machine.execLack port lseq good s
  | .lackTimeout port => Sys2Proof.Machine.execLackTimeout port s
  | .frameForward port lseq bytes good => Sys2Proof.Machine.execFrameForward port lseq bytes good s
  | .peerDelay port => Sys2Proof.Machine.execPeerDelay port s
  | .pdreq port seq turn => Sys2Proof.Machine.execPdreq port seq turn s
  | .pdresp port t4 => Sys2Proof.Machine.execPdresp port t4 s
  | .syncSend => Sys2Proof.Machine.execSyncSend s
  | .timeSync port stamp residence => Sys2Proof.Machine.execTimeSync port stamp residence s
  | .syncTimeout => Sys2Proof.Machine.execSyncTimeout s
  | .helloListen => Sys2Proof.Machine.execHelloListen s
  | .mgmtEnum => Sys2Proof.Machine.execMgmtEnum s
  | .hello => Sys2Proof.Machine.execHello s
  | .enumEnd => Sys2Proof.Machine.execEnumEnd s
  | .topo => Sys2Proof.Machine.execTopo s
  | .chal => Sys2Proof.Machine.execChal s
  | .cert => Sys2Proof.Machine.execCert s
  | .trust => Sys2Proof.Machine.execTrust s
  | .mgmtWake => Sys2Proof.Machine.execMgmtWake s
  | .mgmtReset => Sys2Proof.Machine.execMgmtReset s
  | .resetInstant => Sys2Proof.Machine.execResetInstant s
  | .sessionOffer => Sys2Proof.Machine.execSessionOffer s
  | .sessionAccept => Sys2Proof.Machine.execSessionAccept s
  | .sessionConfirm => Sys2Proof.Machine.execSessionConfirm s
  | .msgPost => Sys2Proof.Machine.execMsgPost s
  | .msgEnq => Sys2Proof.Machine.execMsgEnq s
  | .nak => Sys2Proof.Machine.execNak s
  | .snapshotRequest id => Sys2Proof.Machine.execSnapshotRequest id s
  | .snap => Sys2Proof.Machine.execSnap s
  | .snapshotStrobe => Sys2Proof.Machine.execSnapshotStrobe s
  | .recipeOffer => Sys2Proof.Machine.execRecipeOffer s
  | .recipeData => Sys2Proof.Machine.execRecipeData s
  | .recipeStatus => Sys2Proof.Machine.execRecipeStatus s
  | .recipeCommit => Sys2Proof.Machine.execRecipeCommit s
  | .debugBatch => Sys2Proof.Machine.execDebugBatch s
  | .debugReply => Sys2Proof.Machine.execDebugReply s
  | .enum => Sys2Proof.Machine.execEnum s
  | .wakeU => Sys2Proof.Machine.execWakeU s
  | .wakeD => Sys2Proof.Machine.execWakeD s
  | .chnTset hi => Sys2Proof.Machine.execChnTset hi s
  | .chainCtrlMm => Sys2Proof.Machine.execChainCtrlMm s
  | .ccRestartEnd => Sys2Proof.Machine.execCcRestartEnd s
  | .inboundExchange b => Sys2Proof.Machine.execInboundExchange b s
  | .outboundExchange b => Sys2Proof.Machine.execOutboundExchange b s
  | .exchangeComplete b => Sys2Proof.Machine.execExchangeComplete b s
  | .down b k => Sys2Proof.Machine.execDown b k s
  | .up b k frame codeErr delay => Sys2Proof.Machine.execUp b k frame codeErr delay s
  | .upTimeout b k => Sys2Proof.Machine.execUpTimeout b k s
  | .hubDown b k => Sys2Proof.Machine.execHubDown b k s
  | .hubUp b k frame codeErr delay => Sys2Proof.Machine.execHubUp b k frame codeErr delay s
  | .ident cb g => Sys2Proof.Machine.execIdent cb g s
  | .identFrame b k frame codeErr delay => Sys2Proof.Machine.execIdentFrame b k frame codeErr delay s
  | .clrcnt cb g => Sys2Proof.Machine.execClrcnt cb g s
  | .setcfg cb g => Sys2Proof.Machine.execSetcfg cb g s
  | .ssiTransfer b k value => Sys2Proof.Machine.execSsiTransfer b k value s
  | .captureEdge b k rising => Sys2Proof.Machine.execCaptureEdge b k rising s
  | .pulseEntry b k => Sys2Proof.Machine.execPulseEntry b k s
  | .markPulse b k => Sys2Proof.Machine.execMarkPulse b k s
  | .uartTransmit b k => Sys2Proof.Machine.execUartTransmit b k s
  | .uartReceive b k char bad => Sys2Proof.Machine.execUartReceive b k char bad s
  | .start cb g => Sys2Proof.Machine.execStart cb g s
  | .stop cb g blocks => Sys2Proof.Machine.execStop cb g blocks s
  | .moverComplete n => Sys2Proof.Machine.execMoverComplete n s
  | .frameStart n stream0 fmt => Sys2Proof.Machine.execFrameStart n stream0 fmt s
  | .frameEnd n rows => Sys2Proof.Machine.execFrameEnd n rows s
  | .camDone n => Sys2Proof.Machine.execCamDone n s
  | .camRel n go slot => Sys2Proof.Machine.execCamRel n go slot s
  | .trigger n => Sys2Proof.Machine.execTrigger n s
  | .camCcmd n value => Sys2Proof.Machine.execCamCcmd n value s
  | .controlAck n error data => Sys2Proof.Machine.execControlAck n error data s
  | .controlTimeout n => Sys2Proof.Machine.execControlTimeout n s
  | .archiveStart => Sys2Proof.Machine.execArchiveStart s
  | .reprobe probe => Sys2Proof.Machine.execReprobe probe s
  | .archiveRecovery probes => Sys2Proof.Machine.execArchiveRecovery probes s
  | .archiveWatchdog => Sys2Proof.Machine.execArchiveWatchdog s
  | .append => Sys2Proof.Machine.execAppend s
  | .read => Sys2Proof.Machine.execRead s
  | .flush drive => Sys2Proof.Machine.execFlush drive s
  | .completionRetry => Sys2Proof.Machine.execCompletionRetry s
  | .commandTimeout drive => Sys2Proof.Machine.execCommandTimeout drive s
  | .wearCheck drive used => Sys2Proof.Machine.execWearCheck drive used s
  | .idle => Sys2Proof.Machine.execIdle s
  | .dormant => Sys2Proof.Machine.execDormant s
  | .idleWake => Sys2Proof.Machine.execIdleWake s
  | .thaw => Sys2Proof.Machine.execThaw s
  | .linePowerOn => Sys2Proof.Machine.execLinePowerOn s
  | .powerFail => Sys2Proof.Machine.execPowerFail s
  | .powerLoss => Sys2Proof.Machine.execPowerLoss s
  | .bor => Sys2Proof.Machine.execBor s
  | .pin => Sys2Proof.Machine.execPin s
  | .coldReset => Sys2Proof.Machine.execColdReset s
  | .warmReset => Sys2Proof.Machine.execWarmReset s
  | .coreReset => Sys2Proof.Machine.execCoreReset s
  | .resetRelease => Sys2Proof.Machine.execResetRelease s
  | .startWindow => Sys2Proof.Machine.execStartWindow s
  | .rstStarted => Sys2Proof.Machine.execRstStarted s
  | .swCoreReset => Sys2Proof.Machine.execSwCoreReset s
  | .swWarmReset => Sys2Proof.Machine.execSwWarmReset s
  | .swColdReset => Sys2Proof.Machine.execSwColdReset s
  | .watchdogExpiry => Sys2Proof.Machine.execWatchdogExpiry s
  | .kick key => Sys2Proof.Machine.execKick key s
  | .flashRead value => Sys2Proof.Machine.execFlashRead value s
  | .program value => Sys2Proof.Machine.execProgram value s
  | .erase value => Sys2Proof.Machine.execErase value s
  | .raw value => Sys2Proof.Machine.execRaw value s
  | .drst value => Sys2Proof.Machine.execDrst value s
  | .flashDone failed => Sys2Proof.Machine.execFlashDone failed s
  | .pwrDown value => Sys2Proof.Machine.execPwrDown value s
  | .provision debug => Sys2Proof.Machine.execProvision debug s
  | .deploy => Sys2Proof.Machine.execDeploy s
  | .service arg => Sys2Proof.Machine.execService arg s
  | .lifecycleResume => Sys2Proof.Machine.execLifecycleResume s
  | .retire arg => Sys2Proof.Machine.execRetire arg s
  | .keyprog slot => Sys2Proof.Machine.execKeyprog slot s
  | .revoke slot => Sys2Proof.Machine.execRevoke slot s
  | .wipe => Sys2Proof.Machine.execWipe s
  | .tamper sources => Sys2Proof.Machine.execTamper sources s
  | .wakeSequence periods => Sys2Proof.Machine.execWakeSequence periods s
  | .longLow => Sys2Proof.Machine.execLongLow s
  | .linkTimeout => Sys2Proof.Machine.execLinkTimeout s
  | .drd idx crc => Sys2Proof.Machine.execDrd idx crc s
  | .dwr idx data crc => Sys2Proof.Machine.execDwr idx data crc s
  | .mrd addr crc slow => Sys2Proof.Machine.execMrd addr crc slow s
  | .mwr addr data crc slow => Sys2Proof.Machine.execMwr addr data crc slow s
  | .mrdn crc slow => Sys2Proof.Machine.execMrdn crc slow s
  | .mwrn data crc slow => Sys2Proof.Machine.execMwrn data crc slow s
  | .rslt crc => Sys2Proof.Machine.execRslt crc s
  | .halt value => Sys2Proof.Machine.execHalt value s
  | .step value => Sys2Proof.Machine.execStep value s
  | .resume value => Sys2Proof.Machine.execResume value s
  | .lock value => Sys2Proof.Machine.execLock value s
  | .dbgCoreReset value => Sys2Proof.Machine.execDbgCoreReset value s
  | .dbgWarmReset value => Sys2Proof.Machine.execDbgWarmReset value s
  | .dbgColdReset value => Sys2Proof.Machine.execDbgColdReset value s
  | .unlock scope => Sys2Proof.Machine.execUnlock scope s
  | .dbgRdata hi => Sys2Proof.Machine.execDbgRdata hi s
  | .dbgTxd push => Sys2Proof.Machine.execDbgTxd push s
  | .dbgRxd push => Sys2Proof.Machine.execDbgRxd push s
  | .ill => Sys2Proof.Machine.execIll s
  | .cameraLinkUp n speed => Sys2Proof.Machine.execCameraLinkUp n speed s
  | .cameraLinkLoss n => Sys2Proof.Machine.execCameraLinkLoss n s
  | .pcieLinkDown drive retrains => Sys2Proof.Machine.execPcieLinkDown drive retrains s
  | .nvmeFatalError drive => Sys2Proof.Machine.execNvmeFatalError drive s
  | .portDrawChange port vin => Sys2Proof.Machine.execPortDrawChange port vin s
  | .superblockRewrite drive => Sys2Proof.Machine.execSuperblockRewrite drive s

end Sys2Proof.Machine
end

