-- ==== Sys2Proof/Machine/Step.lean ====
section
/-! DEFINITION. Machine/Step.lean: one step of the block: the command at the front of its queue. -/

namespace Sys2Proof.Machine

/-- On an empty queue one rc passes, in Run and Idle; under Frost the fabric counter alone runs on (R21, R358, R414, R469; log
entry 2). -/
def State.idle (s : State) : State := if s.pwr.state = .run ∨ s.pwr.state = .idle then s.pass rc16 else s

/-- One step: the command at the front of the queue runs with the rest waiting; on an empty queue the block idles. -/
def step (s : State) : Host.Outcome State Fault Refusal :=
  match s.pending with
  | [] => .next s.idle
  | c :: rest => exec c { s with pending := rest }

/-- s with the command that a word spells at the front of its queue. -/
def State.withFetchWord (s : State) (nbits w : Nat) : State :=
  match decodeTableWord nbits w with
  | some c => { s with pending := c :: s.pending }
  | none => s

end Sys2Proof.Machine
end

