-- ==== Sys2Proof/WellFormed.lean ====
section
/-! DEFINITION. WellFormed.lean: the operand values that the spec allows a command: register groups (R253), indices (R257),
rounding codes (R248), registers that must differ (R236, R238), transaction sizes (R8, R33) and counts. A command that is
not well-formed still has a meaning: Trifle raises ILL, a block ignores or refuses it. -/

namespace Sys2Proof

/-- An upset inverts at least one bit. -/
def Upset.wf (u : Upset) : Bool := u.mask != 0

/-- A request of the Lattice names one of its 0x300000 words; a read carries no data (R43, R44). -/
def LatReq.wf (r : LatReq) : Bool := decide (r.word.toNat < 0x300000) && (r.write || (r.mask == 0 && r.data == 0))

/-- A transaction of 1 to 64 bytes within one 64 B block (R33). -/
def transfer (addr : Nat) (len : Fin 65) : Bool := len != 0 && decide (addr % 64 + len.val ≤ 64)

/-- Three different registers, the first two not G0 (R236). -/
def distinct (rd rs rt : Fin 32) : Bool := rd != rs && rd != rt && rs != rt && rd != 0 && rs != 0

/-- A rounding code that is not reserved (R248). -/
def rmOk (rm : BitVec 3) : Bool := rm == 0 || decide (4 ≤ rm.toNat)

/-- Registers that name groups of 1, 2 or 4 (R253). -/
def vgroups (grp : Fin 3) (rs : List (Fin 32)) : Bool := rs.all (fun r => r.val % 2 ^ grp.val == 0)

/-- An element index within a group (R257). -/
def inGroup (grp : Fin 3) (es : Fin 4) (idx : Fin 64) : Bool := decide (idx.val < 16 * 2 ^ grp.val / 2 ^ es.val)

/-- Is a body a DSTEP? -/
def RptBody.isDstep : RptBody → Bool
  | .dstep .. => true
  | .smov .. | .sset .. | .scmp .. | .sscan .. | .other => false

/-- A body that RPT accepts (R260, R236). -/
def RptBody.wf : RptBody → Bool
  | .dstep rd rs rt _ => distinct rd rs rt
  | .smov .. | .sset .. | .scmp .. | .sscan .. => true
  | .other => false

/-- Well-formed commands. -/
def Instr.wf : Instr → Bool
  | .registerWrite _ _ addr _ => addr.toNat % 4 == 0
  | .bulkAccess _ w addr len data us => transfer addr.toNat len && (if w then data.length == len.val else data.isEmpty) && us.all Upset.wf
  | .latticeAccess reqs us => reqs.all LatReq.wf && us.all Upset.wf
  | .scrub us => us.all Upset.wf
  | .dstep rd rs rt _ => distinct rd rs rt
  | .jalr rd ra _ => rd == 0 || rd != ra
  | .fadd _ _ _ _ rm => rmOk rm
  | .fsub _ _ _ _ rm => rmOk rm
  | .fmul _ _ _ _ rm => rmOk rm
  | .frstep _ _ _ rm => rmOk rm
  | .fsqstep _ _ _ rm => rmOk rm
  | .fma _ _ _ _ _ _ _ rm => rmOk rm
  | .fcvtff _ _ p rm => rmOk rm && (p || rm == 0)
  | .fcvtfs _ _ _ rm => rmOk rm
  | .fcvtfu _ _ _ rm => rmOk rm
  | .fcvtsf _ _ _ rm => rmOk rm
  | .fcvtuf _ _ _ rm => rmOk rm
  | .vadd vd va vb grp _ _ => vgroups grp [vd, va, vb]
  | .vsub vd va vb grp _ _ => vgroups grp [vd, va, vb]
  | .vadds vd va vb grp _ _ => vgroups grp [vd, va, vb]
  | .vsubs vd va vb grp _ _ => vgroups grp [vd, va, vb]
  | .vaddus vd va vb grp _ _ => vgroups grp [vd, va, vb]
  | .vsubus vd va vb grp _ _ => vgroups grp [vd, va, vb]
  | .vand vd va vb grp _ _ => vgroups grp [vd, va, vb]
  | .vor vd va vb grp _ _ => vgroups grp [vd, va, vb]
  | .vxor vd va vb grp _ _ => vgroups grp [vd, va, vb]
  | .vandn vd va vb grp _ _ => vgroups grp [vd, va, vb]
  | .vmin vd va vb grp _ _ => vgroups grp [vd, va, vb]
  | .vmax vd va vb grp _ _ => vgroups grp [vd, va, vb]
  | .vminu vd va vb grp _ _ => vgroups grp [vd, va, vb]
  | .vmaxu vd va vb grp _ _ => vgroups grp [vd, va, vb]
  | .vmul vd va vb grp _ _ => vgroups grp [vd, va, vb]
  | .vqmule vd va vb grp es _ => vgroups grp [vd, va, vb] && (es == 1 || es == 2)
  | .vqmulh vd va vb grp es _ => vgroups grp [vd, va, vb] && (es == 1 || es == 2)
  | .vshl vd va vb grp _ _ => vgroups grp [vd, va, vb]
  | .vshls vd va vb grp _ _ => vgroups grp [vd, va, vb]
  | .vsrl vd va vb grp _ _ => vgroups grp [vd, va, vb]
  | .vsra vd va vb grp _ _ => vgroups grp [vd, va, vb]
  | .vrshre vd va vb grp _ _ => vgroups grp [vd, va, vb]
  | .vrshrh vd va vb grp _ _ => vgroups grp [vd, va, vb]
  | .vcmp _ va vb _ _ grp _ => vgroups grp [va, vb]
  | .vins d _ es idx grp => vgroups grp [d] && inGroup grp es idx
  | .vext _ r es idx grp => vgroups grp [r] && inGroup grp es idx
  | .vsplat d _ _ grp => vgroups grp [d]
  | .vmovv d r grp => vgroups grp [d, r]
  | .vmemLoad v _ _ grp _ _ _ => vgroups grp [v]
  | .vmemStore v _ _ grp _ _ _ => vgroups grp [v]
  | .rpt _ sz _ body _ => body.wf && (!body.isDstep || sz == 0)
  | .controlAck _ _ data => decide (data.length ≤ 8)
  | .archiveRecovery probes => decide (probes.length ≤ 4)
  | .wakeSequence periods => periods.length == 8
  | .bulkReRead .. | .readData .. | .writeHalf .. | .eccWriteBack .. | .eccReRead .. | .phaseTableActivate ..
  | .spareCmd .. | .sparePendClear .. | .copyStart .. | .rowCopy .. | .spareSwitch .. | .spareEntryWrite ..
  | .descriptorFetch .. | .tableLoad .. | .streamRead .. | .streamWrite .. | .stopWriteBack .. | .qsinkMessage ..
  | .load .. | .cctLoadDone .. | .commit .. | .ribDone .. | .lanemapWrite .. | .runSet .. | .runClear ..
  | .checkPass .. | .stoppedEntry .. | .roundBoundary .. | .nop .. | .wait .. | .launch .. | .slot .. | .reserve ..
  | .exch .. | .move .. | .ptab .. | .mark .. | .eventDoorbell .. | .sendEvent | .eventArm .. | .eventCancel ..
  | .skipr .. | .roundend .. | .launchDecision .. | .preempt .. | .slotEnd .. | .softcmdArm .. | .softcmdCancel ..
  | .depthMet .. | .retry .. | .reserveEnd .. | .exchDeadline .. | .swapRequest .. | .abort .. | .swapCheck ..
  | .swapCommit .. | .swap .. | .voterDisagreement .. | .resynchronisation .. | .resyncRestart .. | .voterSelfTest ..
  | .mismatchEvent .. | .testStep .. | .rcUpset .. | .watcherExpiry .. | .resync .. | .ltest .. | .clrhist ..
  | .add .. | .sub .. | .and .. | .or .. | .xor .. | .andn .. | .sll .. | .srl .. | .sra .. | .slt .. | .sltu ..
  | .min .. | .max .. | .minu .. | .maxu .. | .addw .. | .subw .. | .sllw .. | .srlw .. | .sraw .. | .clz ..
  | .ctz .. | .popc .. | .addi .. | .andi .. | .ori .. | .xori .. | .slti .. | .sltiu .. | .slli .. | .srli ..
  | .srai .. | .addiw .. | .lui .. | .lb .. | .lbu .. | .lh .. | .lhu .. | .lw .. | .lwu .. | .ld .. | .sb ..
  | .sh .. | .sw .. | .sd .. | .atomicSwap .. | .atomicAdd .. | .atomicAnd .. | .atomicOr .. | .atomicXor ..
  | .atomicMin .. | .atomicMax .. | .atomicMinu .. | .atomicMaxu .. | .cas .. | .mul .. | .mulu .. | .mulsu ..
  | .mac .. | .macu .. | .productWrite .. | .bcmp .. | .bz .. | .jal .. | .specNop .. | .sync .. | .mfsr ..
  | .mtsr .. | .fmin .. | .fmax .. | .fminn .. | .fmaxn .. | .fabs .. | .fneg .. | .flw .. | .fld .. | .fsw ..
  | .fsd .. | .fmv .. | .fmvxf .. | .fmvfx .. | .fclass .. | .frcsr .. | .fwcsr .. | .fcmp .. | .pand .. | .por ..
  | .pxor .. | .pandn .. | .pnot .. | .pfromg .. | .ptog .. | .pcnt .. | .pfirst .. | .smov .. | .sset .. | .scmp ..
  | .sscan .. | .waitev .. | .waitevLimit .. | .sigev .. | .waitt .. | .waittEnd .. | .capld .. | .capst ..
  | .capmv .. | .capnul .. | .capsub .. | .caprst .. | .capseal .. | .capopen .. | .capslot .. | .capfch ..
  | .caprb .. | .caprl .. | .caprm .. | .caprv .. | .capre .. | .gate .. | .gret .. | .hret .. | .hrel .. | .mfsys ..
  | .mtsys .. | .ctoge .. | .getoc .. | .interruptEntry .. | .holdWindowEnd .. | .arm .. | .cancel ..
  | .sourceEdge .. | .unpend .. | .slotLatch .. | .mbxPost .. | .mbxAck .. | .mbxCfg .. | .post .. | .ack ..
  | .ring .. | .setep .. | .enq .. | .deq .. | .drop .. | .stat .. | .attach .. | .detach .. | .stallVisit ..
  | .queStallq .. | .queNote .. | .portUp .. | .segmentDown .. | .lack .. | .lackTimeout .. | .frameForward ..
  | .peerDelay .. | .pdreq .. | .pdresp .. | .syncSend .. | .timeSync .. | .syncTimeout .. | .helloListen ..
  | .mgmtEnum .. | .hello .. | .enumEnd .. | .topo .. | .chal .. | .cert .. | .trust .. | .mgmtWake ..
  | .mgmtReset .. | .resetInstant .. | .sessionOffer .. | .sessionAccept .. | .sessionConfirm .. | .msgPost ..
  | .msgEnq .. | .nak .. | .snapshotRequest .. | .snap .. | .snapshotStrobe .. | .recipeOffer .. | .recipeData ..
  | .recipeStatus .. | .recipeCommit .. | .debugBatch .. | .debugReply .. | .enum .. | .wakeU .. | .wakeD ..
  | .chnTset .. | .chainCtrlMm .. | .ccRestartEnd .. | .inboundExchange .. | .outboundExchange ..
  | .exchangeComplete .. | .down .. | .up .. | .upTimeout .. | .hubDown .. | .hubUp .. | .ident .. | .identFrame ..
  | .clrcnt .. | .setcfg .. | .ssiTransfer .. | .captureEdge .. | .pulseEntry .. | .markPulse .. | .uartTransmit ..
  | .uartReceive .. | .start .. | .stop .. | .moverComplete .. | .frameStart .. | .frameEnd .. | .camDone ..
  | .camRel .. | .trigger .. | .camCcmd .. | .controlTimeout .. | .archiveStart .. | .reprobe ..
  | .archiveWatchdog .. | .append .. | .read .. | .flush .. | .completionRetry .. | .commandTimeout ..
  | .wearCheck .. | .idle .. | .dormant .. | .idleWake .. | .thaw .. | .linePowerOn .. | .powerFail ..
  | .powerLoss .. | .bor .. | .pin .. | .coldReset .. | .warmReset .. | .coreReset .. | .resetRelease ..
  | .startWindow .. | .rstStarted .. | .swCoreReset .. | .swWarmReset .. | .swColdReset .. | .watchdogExpiry ..
  | .kick .. | .flashRead .. | .program .. | .erase .. | .raw .. | .drst .. | .flashDone .. | .pwrDown ..
  | .provision .. | .deploy .. | .service .. | .lifecycleResume .. | .retire .. | .keyprog .. | .revoke .. | .wipe ..
  | .tamper .. | .longLow .. | .linkTimeout .. | .drd .. | .dwr .. | .mrd .. | .mwr .. | .mrdn .. | .mwrn ..
  | .rslt .. | .halt .. | .step .. | .resume .. | .lock .. | .dbgCoreReset .. | .dbgWarmReset .. | .dbgColdReset ..
  | .unlock .. | .dbgRdata .. | .dbgTxd .. | .dbgRxd .. | .ill | .cameraLinkUp .. | .cameraLinkLoss ..
  | .pcieLinkDown .. | .nvmeFatalError .. | .portDrawChange .. | .superblockRewrite .. => true

end Sys2Proof
end

