-- ==== Sys2Proof/Safety.lean ====
section
/-! DEFINITION. Safety.lean: the words that the statements use: when Trifle runs an instruction by its own effect, the state
after it, what it leaves as it was, and the invariants. -/

namespace Sys2Proof.Machine

/-! Running one Trifle instruction. -/

/-- Trifle is about to run an instruction by its own effect: its slices issue, no wait, body of an RPT or halt is pending, no
product write or hold window is due, the delay slot to come (if any) is not annulled, and the fetch checks pass. -/
def State.issues (s : State) : Bool :=
  s.triClocked && s.tri.wait.isNone && s.tri.rpt.isNone && !s.dbg.halting && s.tri.slot.all (fun d => !d.annul) &&
    s.tri.mul.all (fun w => decide (s.clk < w.1)) && s.tri.hold.all (fun e => decide (s.clk < e)) &&
    s.tri.stack.all (fun f => f.hold.all (fun e => decide (s.clk < e))) && s.fetchFault.isNone

/-- The same, outside a delay slot. -/
def State.ready (s : State) : Bool := s.issues && s.tri.slot.isNone

/-- The state after an instruction that has left Trifle in state s: one tc, `late` further ones and one retired instruction
later, at the next address, or behind a delay slot at its transfer's target, the lost tc having passed (R218, R239, R240). -/
def State.goOn (s : State) (late : Nat := 0) : State :=
  let t := (s.tick 1).tick late
  match s.tri.slot with
  | none => { t with tri.pc := s.tri.pc + 4, tri.insn := s.tri.insn + 1, tri.entered := false, dbg.step := false }
  | some d => { t.tick d.lost with
      tri.pc := d.target
      tri.slot := none
      tri.insn := s.tri.insn + 1
      tri.entered := false
      dbg.step := false }

/-- The state after a control transfer at the address of s (R239): the delay slot follows. A step of the debug logic ends with the
transfer, unless its slot is annulled (R471). -/
def State.goTo (s : State) (target : BitVec 40) (annul : Bool) (lost : Nat) : State :=
  { s.tick 1 with
    tri.pc := s.tri.pc + 4
    tri.slot := some ⟨s.tri.pc, target, annul, lost⟩
    tri.insn := s.tri.insn + 1
    tri.entered := false
    dbg.step := annul && s.dbg.step }

/-- n tc more stand on Trifle's clock, and chain time has gone on by as much within the drift (R7, R218). -/
def State.clockBy (s t : State) (n : Nat) : Prop :=
  t.tri.clk = s.tri.clk + 16 * n ∧ (t.time : Int) = s.time + 16 * n + (t.tri.skew - s.tri.skew)

/-- Registers of Trifle that an instruction that writes neither them nor memory leaves as they were: everything but the
registers named g, f, v, p, sp (by file), FCSR, and what every instruction moves (pc, slot, insn, entered). -/
def TriS.sameSystem (t u : TriS) : Prop :=
  u.c = t.c ∧ u.fcap = t.fcap ∧ u.ge = t.ge ∧ u.geUsed = t.geUsed ∧ u.htb = t.htb ∧ u.esb = t.esb ∧ u.ml = t.ml ∧
    u.htbUsed = t.htbUsed ∧ u.esbUsed = t.esbUsed ∧ u.mlUsed = t.mlUsed ∧ u.fcause = t.fcause ∧ u.faddr = t.faddr ∧
    u.eprW = t.eprW ∧ u.epr = t.epr ∧ u.eprUsed = t.eprUsed ∧ u.waiting = t.waiting ∧ u.holdOvr = t.holdOvr ∧
    u.epx = t.epx ∧ u.remapUsed = t.remapUsed ∧ u.actl = t.actl ∧ u.comp = t.comp ∧ u.hold = t.hold ∧ u.stack = t.stack

/-- Two states agree on everything outside Trifle but chain time, the free values used and the debug logic's step. -/
def State.sameBlock (s t : State) : Prop :=
  t.regs = s.regs ∧ t.syn = s.syn ∧ t.stuck = s.stuck ∧ t.tags = s.tags ∧ t.credit = s.credit ∧ t.xw = s.xw ∧
    t.resp = s.resp ∧ t.out = s.out ∧ t.bulk = s.bulk ∧ t.lat = s.lat ∧ t.rib = s.rib ∧ t.sch = s.sch ∧ t.rcv = s.rcv ∧
    t.icu = s.icu ∧ t.que = s.que ∧ t.fld = s.fld ∧ t.mv = s.mv ∧ t.cam = s.cam ∧ t.chn = s.chn ∧ t.arc = s.arc ∧
    t.pwr = s.pwr ∧ t.sec = s.sec ∧ t.pending = s.pending

/-- Every stored byte reads as before. -/
def State.sameBytes (s t : State) : Prop := ∀ a, t.byte a = s.byte a

/-! Data accesses. -/

/-- No stored bit of granule g (of 8 bytes) is inverted, and none of its cells is stuck (R30, R65). -/
def State.sound (s : State) (g : Nat) : Prop :=
  SMap.get (fun _ => (0 : BitVec 8)) s.syn g = 0 ∧ SMap.get (fun _ => (0 : BitVec 72)) s.stuck g = 0

/-- C[cb] allows an access of n bytes at ea (R229): it is tagged and current, unsealed and a memory capability, has the
permissions, ea is aligned, and the bytes lie in its range. -/
def State.allows (s : State) (cb : Nat) (need : List Nat) (align n : Nat) (ea : Int) : Prop :=
  let c := s.c cb
  (c.tag = true ∧ s.currentCap c = true) ∧ (c.sealv = 0 ∧ c.otype = 0) ∧ (∀ p ∈ need, c.has p = true) ∧ ea % align = 0 ∧
    (c.base : Int) ≤ ea ∧ ea + n ≤ (c.base + c.len : Nat)

/-- The n bytes at ea are sound bytes of Trifle Local, at its address of reset (R23). -/
def State.inLocal (s : State) (n : Nat) (ea : Int) : Prop :=
  s.rd XW_CTL.REMAP = 0 ∧ s.pwr.asserted = 0 ∧ 0x10000000 ≤ ea ∧ ea + n ≤ 0x10200000 ∧
    ∀ g, ea.toNat / 8 ≤ g → g ≤ (ea.toNat + n - 1) / 8 → s.sound g

/-- Bytes were stored at a (R228, R275): they read back, every other byte of memory reads as before, the 16-byte granules
they touch lose their tags and no other does; besides, only stored check bits and the matrix's arbitration may differ. -/
def State.stored (s u : State) (a : Nat) (bs : List Byte) : Prop :=
  u = { s with mem := u.mem, syn := u.syn, tags := u.tags, credit := u.credit, xw.turn := u.xw.turn } ∧
    (∀ i (h : i < bs.length), u.byte (a + i) = bs[i]) ∧
    (∀ x, x < a ∨ a + bs.length ≤ x → u.byte x = s.byte x) ∧
    (∀ x, u.tagged x = (s.tagged x && !(decide (a / 16 ≤ x / 16) && decide (x / 16 ≤ (a + bs.length - 1) / 16))))

/-- Only the matrix's arbitration differs (R34). -/
def State.arbitrated (s u : State) : Prop := u = { s with credit := u.credit, xw.turn := u.xw.turn }

/-! Registers and requests. -/

/-- A counter field one higher, or at its greatest value. -/
def State.more (s : State) (f : Fld) : Nat := min (s.rd f + 1) (2 ^ (f.hi + 1 - f.lo) - 1)

/-- The fields of l take the values beside them, and no other bit of a register changes. -/
def State.sets (s t : State) (l : List (Fld × Nat)) : Prop :=
  (∀ p ∈ l, t.rd p.1 = p.2) ∧
    ∀ a b, (∀ p ∈ l, ¬(p.1.addr = a ∧ p.1.lo ≤ b ∧ b ≤ p.1.hi)) → bitb (t.rdReg a) b = bitb (s.rdReg a) b

/-- The same, and nothing but registers changes. -/
def State.setsOnly (s t : State) (l : List (Fld × Nat)) : Prop := t = { s with regs := t.regs } ∧ s.sets t l

/-- Every register of the peripheral bus but those at the addresses as holds what it held. -/
def State.regsBut (s t : State) (as : List Nat) : Prop := ∀ a, a ∉ as → t.rdReg a = s.rdReg a

/-- Object and argument of a device request (R284). -/
def State.devObj (s : State) (g : Fin 32) : Nat := (s.g g).toNat % 2 ^ 32
def State.devArg (s : State) (g : Fin 32) : Nat := (s.g g).toNat / 2 ^ 32

/-- Trifle is about to run a device request whose checks pass (R279, R284): C[cb] is tagged and current, unsealed, of an
object type, has the permissions and covers the object; the field ports, the queue engine and the movers hold it for current
too (R278). -/
def State.asks (s : State) (cb : Fin 16) (g : Fin 32) (otype : Nat) (need : List Nat) : Prop :=
  let c := s.c cb
  s.issues = true ∧ c.tag = true ∧ s.currentCap c = true ∧ c.sealv = 0 ∧ c.otype = otype ∧ (∀ p ∈ need, c.has p = true) ∧
    c.base ≤ s.devObj g ∧ s.devObj g < c.base + c.len ∧
    (otype = 1 ∨ otype = 2 ∨ otype = 4 → c.current s.tri.eprUsed = true)

/-! The sequencer and the queues. -/

/-- The sequencer is about to issue the instruction of a word by its own effect (R161, R163, R164): in RUNNING or STOPPING, its
program not over, no LAUNCH held, the word at its index in the active buffer, and sound. -/
def State.schIssues (s : State) (word : Nat) : Prop :=
  let a := schWordAt (s.rd SCH_STAT.ACT) (1032 + s.rd SCH_PC.PC)
  s.live = true ∧ (s.rd SCH_STAT.STATE = 3 ∨ s.rd SCH_STAT.STATE = 4) ∧ s.sch.ended = false ∧ s.sch.held = none ∧
    s.rd SCH_PC.PC < s.sch.plen ∧ s.sound (a / 8) ∧ s.num a 8 = word

/-- The state at the instant of the issue: in the rc in hand, or that of its turn if that is later; the next instruction issues
one rc later (R163). -/
def State.atIssue (s : State) : State :=
  let t := s.until (max s.sch.nextRc (s.time / 10 * 10))
  { t with sch.nextRc := t.time / 10 * 10 + 10 }

/-- The state after an instruction that left the sequencer in s: the index moves on, and past PLEN the program is over
(R163). -/
def State.issued (s : State) : State :=
  let t := s.wr SCH_PC.PC (s.rd SCH_PC.PC + 1)
  if s.sch.plen ≤ t.rd SCH_PC.PC then { t with sch.ended := true } else t

/-- Is a breach of a cause the one that the log holds (R181, R187): the first, or of a lower CAUSE than the first of its rc? -/
def State.breachLogged (s : State) (cause : Nat) : Bool :=
  s.rd SCH_BREACH_INFO.VALID == 0 || (s.sch.breachRc == s.time / 10 && decide (cause < s.rd SCH_BREACH_INFO.CAUSE))

/-- The registers that a breach of a cause sets (R181, R187): counted, and logged with its rcr and index, or as a further one. -/
def State.breaches (s : State) (cause : Nat) : List (Fld × Nat) :=
  [(SCH_BREACH_CNT.COUNT, s.more SCH_BREACH_CNT.COUNT), (SCH_BREACH_INFO.OVF, s.rd SCH_BREACH_INFO.VALID),
    (SCH_BREACH_INFO.VALID, 1)] ++
    if s.breachLogged cause then [(SCH_BREACH_INFO.CAUSE, cause),
      (SCH_BREACH_INFO.RCR, (s.time - s.sch.roundStart) / 10 % 2 ^ 21), (SCH_BREACH_PC.PC, s.rd SCH_PC.PC)] else []

/-- The state with the rc of the logged breach as a breach of a cause leaves it (R187). -/
def State.breachAt (s : State) (cause : Nat) : State :=
  if s.breachLogged cause then { s with sch.breachRc := s.time / 10 } else s

/-- Soft entry e takes the state st (R174), and nothing else changes. -/
def State.softSets (s t : State) (e st : Nat) : Prop :=
  t = { s with sch.soft := t.sch.soft } ∧ ∀ x, t.softState x = if x = e then st else s.softState x

/-- Queue q accepts operations with descriptor d (R323, R326): the engine is on, q attached, d well formed and enabled;
descriptor and ring lie apart in sound Bulk, out of reset, of which no page is redirected or awaits retirement; at most 4,096
descriptors are cached, and a cached copy of it agrees with Bulk (R324). -/
def State.queueAt (s : State) (q : Nat) (d : QDesc) : Prop :=
  s.isOn QUE_CTL.EN = true ∧ q ∈ s.que.attached ∧ qdescOf (s.bytes (s.queDescAddr q) 32) = d ∧ d.ok = true ∧ d.enable = true ∧
    inBulk (s.queDescAddr q) 32 = true ∧ bulkBase ≤ d.slotAddr 0 ∧
    (s.queDescAddr q + 32 ≤ d.slotAddr 0 ∨ d.slotAddr d.n ≤ s.queDescAddr q) ∧
    s.que.cache.length ≤ 4096 ∧ (∀ x ∈ s.que.cache, x.1 = q → x.2 = d) ∧ s.pwr.asserted ≤ 1 ∧ s.bulk.redir = [] ∧
    s.bulk.ueGran = [] ∧ ∀ g, bulkBase / 8 ≤ g → g < bulkEnd / 8 → s.sound g

/-- Is the descriptor of queue q in the cache (R324)? -/
def State.queCached (s : State) (q : Nat) : Bool := s.que.cache.any (fun x => x.1 == q)

/-- The cache with the descriptor of queue q as the most recently used (R324). -/
def State.queCache (s : State) (q : Nat) (d : QDesc) : List (Nat × QDesc) :=
  s.que.cache.filter (fun x => x.1 != q) ++ [(q, d)]

/-- The registers that show which strands run what (R126). -/
def strandRegs : List Nat := RIB_STAT.BUSY.addr :: (upto 3).map RIB_STRAND.addr

/-- A chain is launched (R80, R106): r joins the runs and the strand registers show it; besides, u may differ from s in its
soft entries and their retry marks only. -/
def State.launches (s u : State) (r : RibRun) : Prop :=
  u = { s with regs := u.regs, rib.runs := s.rib.runs ++ [r], sch.soft := u.sch.soft, sch.retryNext := u.sch.retryNext } ∧
    s.regsBut u strandRegs ∧ u.rd RIB_STAT.BUSY = Nat.lor s.heldStrands r.strands % 8

/-! The Recovery Controller's log. -/

/-- An event stands newly in the log at its slot, and LOG_HEAD has moved on (R214, R215). -/
def State.logs (s t : State) (code unit info arg : Nat) : Prop :=
  t.rd RCV_LOG_HEAD.HEAD = (s.rd RCV_LOG_HEAD.HEAD + 1) % 2 ^ 32 ∧
    (∀ x, SMap.get (fun _ => (0 : BitVec 128)) t.rcv.log x = if x = s.rd RCV_LOG_HEAD.HEAD % 64 then
      BitVec.ofNat 128 (s.now % 2 ^ 64 + 2 ^ 64 * (info % 2 ^ 20 + unit % 16 * 2 ^ 20 + code % 256 * 2 ^ 24) +
        2 ^ 96 * (arg % 2 ^ 32)) else SMap.get (fun _ => 0) s.rcv.log x)

/-- A reset of a kind (1 core, 2 warm, 3 cold) is called for with its cause (R420, R424). -/
def State.calls (s t : State) (kind cause : Nat) : Prop :=
  bitb (t.rd RST_CAUSE.CAUSE) cause = true ∧
    t.pwr = { s.pwr with req := if kind ≤ s.pwr.asserted then s.pwr.req else max s.pwr.req kind }

/-- Has slice x had a single-slice mismatch in the last 10 s (R199)? -/
def State.mismatchedLately (s : State) (x : Nat) : Bool :=
  match s.rcv.sliceAt.find? (fun p => p.1 == x) with
  | some p => decide (s.now ≤ p.2 + 10000000000)
  | none => false

/-! The Lattice and the field ports. -/

/-- Word w of the Lattice is sound where it stands. -/
def State.soundWord (s : State) (w : Nat) : Prop := ∀ g, g < 4 → s.sound (s.wordGran w g)

/-- Word w of the Lattice as stored, where it now stands (R43, R74). -/
def State.word (s : State) (w : Nat) : Nat := s.num (8 * s.wordGran w 0) 32

/-- Every byte outside the ranges (address, length) of l reads as before. -/
def State.bytesBut (s t : State) (l : List (Nat × Nat)) : Prop :=
  ∀ a, (∀ p ∈ l, a < p.1 ∨ p.1 + p.2 ≤ a) → t.byte a = s.byte a

/-- Port k of block b becomes p, and no other port changes. -/
def State.portSets (s t : State) (b k : Nat) (p : PortS) : Prop :=
  ∀ x y, y < 16 → t.port1 x y = if x = b ∧ y = k then p else s.port1 x y

/-- The registers that an error of a port sets (R399). -/
def State.portErrs (s : State) (b k : Nat) : List (Fld × Nat) :=
  (FLD_PERR.COUNT b k, s.more (FLD_PERR.COUNT b k)) ::
    if s.eff (FLD_PCFG_A.IE b k) = 0 then [] else [(FLD_IRQ.PORT b, 1)]

/-! The chain. -/

/-- A frame on the line: START with LSEQ, header and payload, TERM with the CRC-32 (R343). -/
def frameBlock (lseq : Nat) (f : Frame) : List Byte :=
  [0x78, BitVec.ofNat 8 lseq, 0, 0, 0, 0, 0, 0] ++ f.bytes ++ [0x87] ++ toBytes 4 (crc32 f.bytes) ++ [0, 0, 0]

/-- A port starts a frame at once (R348, R349): it is up, nothing waits, and fewer than 16 frames are unacknowledged. -/
def State.idlePort (s : State) (p : Nat) : Prop :=
  s.portUp p = true ∧ (s.chnPort p).waiting = [] ∧ (s.chnPort p).unacked.length < 16

/-- The block leaves a chain port. -/
def State.emits (s : State) (p : Nat) (bs : List Byte) : State :=
  { s with out := s.out ++ [(⟨if p = 0 then .chainU else .chainD, 0, s.time, bs⟩ : Out)] }

/-- The frame has started at a port and is to be acknowledged (R348). -/
def State.sent (s : State) (p : Nat) (f : Frame) : State :=
  let c := s.chnPort p
  (s.emits p (frameBlock c.txSeq f)).putChnPort p { c with
    unacked := c.unacked ++ [⟨c.txSeq, f, false, s.fabNow⟩], txSeq := (c.txSeq + 1) % 256 }

/-- A frame in the clear of this module, with the next TAG (R344), has started at a port. -/
def State.posts (s : State) (p cls dst depoch sub arg h2 : Nat) (payload : List Byte) : State :=
  let (f, t) := s.mkFrame cls dst depoch sub arg h2 false payload.length (pad8 payload)
  t.sent p f

/-- The state once a received frame has been taken. -/
def State.consumed (s : State) (r : RxFrame) : State := { s with chn.rx := s.chn.rx.erase r }

/-- The Chain Controller works, and no link is up. -/
def State.chnAlone (s : State) : Prop :=
  s.rd DBG_STAT.FROST = 0 ∧ s.rd CHN_STAT.CC_RESTART = 0 ∧ s.portUp 0 = false ∧ s.portUp 1 = false

/-! Invariants. -/

/-- Memory is in its canonical form: addresses strictly rising, no entry equal to what an unlisted address reads as. -/
def State.memWf (s : State) : Bool := SMap.wf memDefault s.mem

/-- The register map is in its canonical form. -/
def State.regsWf (s : State) : Bool := SMap.wf regReset s.regs

end Sys2Proof.Machine

namespace Sys2Proof

/-- The destination of an integer operation (OP, OPI and LUI: R225 to R227). -/
def Instr.intDest (i : Instr) : Option (Fin 32) :=
  match i with
  | .add d _ _ | .sub d _ _ | .and d _ _ | .or d _ _ | .xor d _ _ | .andn d _ _ | .sll d _ _ | .srl d _ _ | .sra d _ _
  | .slt d _ _ | .sltu d _ _ | .min d _ _ | .max d _ _ | .minu d _ _ | .maxu d _ _ | .addw d _ _ | .subw d _ _
  | .sllw d _ _ | .srlw d _ _ | .sraw d _ _ | .clz d _ | .ctz d _ | .popc d _ | .addi d _ _ | .andi d _ _ | .ori d _ _
  | .xori d _ _ | .slti d _ _ | .sltiu d _ _ | .slli d _ _ | .srli d _ _ | .srai d _ _ | .addiw d _ _ | .lui d _ => some d
  | _ => none

/-- The instructions that may not stand in a delay slot (R239). -/
def Instr.noSlot (i : Instr) : Bool :=
  match i with
  | .bcmp .. | .bz .. | .jal .. | .jalr .. | .sync | .rpt .. | .smov .. | .sset .. | .scmp .. | .sscan .. | .waitev ..
  | .waitt .. | .sigev .. | .gate .. | .gret .. => true
  | _ => false

/-- The device requests (R284): their capability, G register and operation code. -/
def Instr.request (i : Instr) : Option (Fin 16 × Fin 32 × Nat) :=
  match i with
  | .arm c g | .post c g | .enq c g | .ident c g | .start c g => some (c, g, 0x000)
  | .cancel c g | .ack c g | .deq c g | .clrcnt c g | .stop c g _ => some (c, g, 0x001)
  | .ring c g | .drop c g => some (c, g, 0x002)
  | .stat c g => some (c, g, 0x003)
  | .setep c g | .attach c g | .setcfg c g => some (c, g, 0x200)
  | .detach c g => some (c, g, 0x201)
  | _ => none

/-- Instructions that work on registers of Trifle alone: integer, floating-point, vector and predicate operations. -/
def Instr.registerOp (i : Instr) : Bool :=
  i.intDest.isSome ||
  match i with
  | .fadd .. | .fsub .. | .fmul .. | .fmin .. | .fmax .. | .fminn .. | .fmaxn .. | .fabs .. | .fneg .. | .frstep ..
  | .fsqstep .. | .fma .. | .fmv .. | .fmvxf .. | .fmvfx .. | .fcvtff .. | .fcvtfs .. | .fcvtfu .. | .fcvtsf .. | .fcvtuf ..
  | .fclass .. | .frcsr .. | .fwcsr .. | .fcmp .. | .vadd .. | .vsub .. | .vadds .. | .vsubs .. | .vaddus .. | .vsubus ..
  | .vand .. | .vor .. | .vxor .. | .vandn .. | .vmin .. | .vmax .. | .vminu .. | .vmaxu .. | .vmul .. | .vqmule .. | .vqmulh ..
  | .vshl .. | .vshls .. | .vsrl .. | .vsra .. | .vrshre .. | .vrshrh .. | .vcmp .. | .pand .. | .por .. | .pxor .. | .pandn ..
  | .pnot .. | .pfromg .. | .ptog .. | .pcnt .. | .pfirst .. | .vins .. | .vext .. | .vsplat .. | .vmovv .. => true
  | _ => false

/-- k runs of an instruction that issues each time, from s to t. -/
def runs (i : Instr) : Nat → Machine.State → Machine.State → Prop
  | 0, s, t => s = t
  | k + 1, s, t => s.issues = true ∧ ∃ u, Machine.exec i s = .next u ∧ runs i k u t

/-- What every step keeps while register operations are all that waits: the memory and the register map are in their
canonical forms, at most 32 frames are on the entry stack (R294), and the compartment and ACTL are among those that exist
(R289, R295). -/
def Machine.State.steady (s : Machine.State) : Prop :=
  s.memWf = true ∧ s.regsWf = true ∧ s.tri.stack.length ≤ 32 ∧ s.tri.comp ≤ 16 ∧ s.tri.actl ≤ 16 ∧
    ∀ c ∈ s.pending, c.registerOp = true

end Sys2Proof
end

