-- ==== Sys2Proof/Certificates/Slice0/Obligations.lean ====
section
/-! DEFINITION. Certificates/Slice0/Obligations.lean: the statements for the provers. Each says in its docstring which rules
of spec/ it follows. -/

open Sys2Proof Sys2Proof.Machine

/-- R225 (with R217, R218): each OP that issues writes its result to G[rd] (nothing, for G0) and goes on; the 64-bit operations
wrap, the W operations sign-extend their 32-bit result. R225 to R227: what an integer operation leaves as it was: every
register but G[rd], FCSR, every special, system and capability register, everything outside Trifle but chain time with its
drift and a step of the debug logic, and every byte of memory. -/
def Obligations.IntegerOperations : Prop :=
  (∀ (s : State) (rd ra rb : Fin 32), s.issues = true →
     let a := s.g ra
     let b := s.g rb
     let gets (v : Word) : Res := .next ((s.setG rd v).goOn)
     exec (.add rd ra rb) s = gets (a + b) ∧
     exec (.sub rd ra rb) s = gets (a - b) ∧
     exec (.and rd ra rb) s = gets (a &&& b) ∧
     exec (.or rd ra rb) s = gets (a ||| b) ∧
     exec (.xor rd ra rb) s = gets (a ^^^ b) ∧
     exec (.andn rd ra rb) s = gets (a &&& ~~~b) ∧
     exec (.sll rd ra rb) s = gets (a <<< (b.toNat % 64)) ∧
     exec (.srl rd ra rb) s = gets (a >>> (b.toNat % 64)) ∧
     exec (.sra rd ra rb) s = gets (a.sshiftRight (b.toNat % 64)) ∧
     exec (.slt rd ra rb) s = gets (if a.toInt < b.toInt then 1 else 0) ∧
     exec (.sltu rd ra rb) s = gets (if a.toNat < b.toNat then 1 else 0) ∧
     exec (.min rd ra rb) s = gets (BitVec.ofInt 64 (min a.toInt b.toInt)) ∧
     exec (.max rd ra rb) s = gets (BitVec.ofInt 64 (max a.toInt b.toInt)) ∧
     exec (.minu rd ra rb) s = gets (BitVec.ofNat 64 (min a.toNat b.toNat)) ∧
     exec (.maxu rd ra rb) s = gets (BitVec.ofNat 64 (max a.toNat b.toNat)) ∧
     exec (.addw rd ra rb) s = gets (((a + b).setWidth 32).signExtend 64) ∧
     exec (.subw rd ra rb) s = gets (((a - b).setWidth 32).signExtend 64) ∧
     exec (.sllw rd ra rb) s = gets (((a <<< (b.toNat % 32)).setWidth 32).signExtend 64) ∧
     exec (.srlw rd ra rb) s = gets (((a.setWidth 32) >>> (b.toNat % 32)).signExtend 64) ∧
     exec (.sraw rd ra rb) s = gets (((a.setWidth 32).signExtend 64).sshiftRight (b.toNat % 32)) ∧
     exec (.clz rd ra) s = gets (BitVec.ofNat 64 (clz 64 a.toNat)) ∧
     exec (.ctz rd ra) s = gets (BitVec.ofNat 64 (ctz 64 a.toNat)) ∧
     exec (.popc rd ra) s = gets (BitVec.ofNat 64 (popcount 64 a.toNat))) ∧
  (∀ (s t : State) (i : Instr) (rd : Fin 32), s.issues = true → i.intDest = some rd → exec i s = .next t →
     (∀ r, r ≠ rd.val → t.g r = s.g r) ∧ t.tri.f = s.tri.f ∧ t.tri.v = s.tri.v ∧ t.tri.p = s.tri.p ∧
     t.tri.fcsr = s.tri.fcsr ∧ t.tri.sp = s.tri.sp ∧ t.tri.mul = s.tri.mul ∧ t.tri.ev = s.tri.ev ∧
     TriS.sameSystem s.tri t.tri ∧ s.sameBlock t ∧ s.sameBytes t)

/-- R226: each OPI that issues writes its result to G[rd] and goes on; R227: LUI. -/
def Obligations.ImmediateOperations : Prop :=
  ∀ (s : State) (rd ra : Fin 32) (imm : BitVec 12) (sh : Fin 64) (u : BitVec 21), s.issues = true →
    let a := s.g ra
    let i : Word := BitVec.ofInt 64 imm.toInt
    let gets (v : Word) : Res := .next ((s.setG rd v).goOn)
    exec (.addi rd ra imm) s = gets (a + i) ∧
    exec (.andi rd ra imm) s = gets (a &&& i) ∧
    exec (.ori rd ra imm) s = gets (a ||| i) ∧
    exec (.xori rd ra imm) s = gets (a ^^^ i) ∧
    exec (.slti rd ra imm) s = gets (if a.toInt < imm.toInt then 1 else 0) ∧
    exec (.sltiu rd ra imm) s = gets (if a.toNat < i.toNat then 1 else 0) ∧
    exec (.slli rd ra sh) s = gets (a <<< sh.val) ∧
    exec (.srli rd ra sh) s = gets (a >>> sh.val) ∧
    exec (.srai rd ra sh) s = gets (a.sshiftRight sh.val) ∧
    exec (.addiw rd ra imm) s = gets (((a + i).setWidth 32).signExtend 64) ∧
    exec (.lui rd u) s = gets ((BitVec.ofNat 32 (u.toNat * 2 ^ 11)).signExtend 64)

/-- R228, R229: a load through a capability that allows it, of sound bytes of Trifle Local, aligned or not (R230), writes the
value read, extended, and goes on; a split access takes one tc more. R228 to R230, R275: a store through a capability that
allows it, to sound bytes of Trifle Local, stores the low bytes of its register at ea, aligned or not, and goes on; a split
access takes one tc more. R232: an atomic on sound, aligned bytes of Trifle Local, through a capability with R and W, stores
its result in their place, writes the old value (sign-extended with w) to G[rd], and goes on one tc later than other
instructions. Where the spec leaves a point open, the statement follows the model's choices, log entries 20 and 23. -/
def Obligations.LocalAccesses : Prop :=
  (∀ (s : State) (rd ra : Fin 32) (cb : Fin 16) (imm : BitVec 9), s.issues = true →
     let ea (n : Nat) : Int := ((s.c cb).base : Int) + (s.g ra).toNat + imm.toInt * n
     let ok (n : Nat) : Prop := s.allows cb [permR] 1 n (ea n) ∧ s.inLocal n (ea n)
     let val (n : Nat) : Nat := s.num (ea n).toNat n
     let late (n : Nat) : Nat := if ea n % n = 0 then 0 else 1
     let gets (n : Nat) (i : Instr) (v : Word) : Prop := ∃ u : State, exec i s = .next ((u.setG rd v).goOn (late n)) ∧ s.arbitrated u
     let getsF (n : Nat) (i : Instr) (v : Nat) : Prop := ∃ u : State, exec i s = .next ((u.setF rd v).goOn (late n)) ∧ s.arbitrated u
     (ok 1 → gets 1 (.lb rd ra cb imm) ((BitVec.ofNat 8 (val 1)).signExtend 64)) ∧
     (ok 1 → gets 1 (.lbu rd ra cb imm) (BitVec.ofNat 64 (val 1))) ∧
     (ok 2 → gets 2 (.lh rd ra cb imm) ((BitVec.ofNat 16 (val 2)).signExtend 64)) ∧
     (ok 2 → gets 2 (.lhu rd ra cb imm) (BitVec.ofNat 64 (val 2))) ∧
     (ok 4 → gets 4 (.lw rd ra cb imm) ((BitVec.ofNat 32 (val 4)).signExtend 64)) ∧
     (ok 4 → gets 4 (.lwu rd ra cb imm) (BitVec.ofNat 64 (val 4))) ∧
     (ok 8 → gets 8 (.ld rd ra cb imm) (BitVec.ofNat 64 (val 8))) ∧
     (ok 4 → getsF 4 (.flw rd ra cb imm) (val 4)) ∧
     (ok 8 → getsF 8 (.fld rd ra cb imm) (val 8))) ∧
  (∀ (s : State) (rs ra : Fin 32) (cb : Fin 16) (imm : BitVec 9), s.issues = true →
     let ea (n : Nat) : Int := ((s.c cb).base : Int) + (s.g ra).toNat + imm.toInt * n
     let stores (i : Instr) (n v : Nat) : Prop := s.allows cb [permW] 1 n (ea n) → s.inLocal n (ea n) →
       ∃ u : State, exec i s = .next (u.goOn (if ea n % n = 0 then 0 else 1)) ∧ s.stored u (ea n).toNat (toBytes n v)
     stores (.sb rs ra cb imm) 1 (s.g rs).toNat ∧
     stores (.sh rs ra cb imm) 2 (s.g rs).toNat ∧
     stores (.sw rs ra cb imm) 4 (s.g rs).toNat ∧
     stores (.sd rs ra cb imm) 8 (s.g rs).toNat ∧
     stores (.fsw rs ra cb imm) 4 (s.f rs).toNat ∧
     stores (.fsd rs ra cb imm) 8 (s.f rs).toNat) ∧
  (∀ (s : State) (rd ra rb : Fin 32) (cb : Fin 16) (w : Bool), s.issues = true →
     let n : Nat := if w then 4 else 8
     let ea : Int := ((s.c cb).base : Int) + (s.g ra).toNat
     let old : Nat := s.num ea.toNat n
     let b : Nat := (s.g rb).toNat % 2 ^ (8 * n)
     let leaves (i : Instr) (v : Nat) : Prop :=
       ∃ u : State, exec i s = .next ((u.setG rd (if w then (BitVec.ofNat 32 old).signExtend 64 else BitVec.ofNat 64 old)).goOn 1) ∧
         s.stored u ea.toNat (toBytes n v)
     s.allows cb [permR, permW] n n ea → s.inLocal n ea →
     leaves (.atomicSwap rd ra rb cb w) b ∧
     leaves (.atomicAdd rd ra rb cb w) (old + b) ∧
     leaves (.atomicAnd rd ra rb cb w) (Nat.land old b) ∧
     leaves (.atomicOr rd ra rb cb w) (Nat.lor old b) ∧
     leaves (.atomicXor rd ra rb cb w) (Nat.xor old b) ∧
     leaves (.atomicMin rd ra rb cb w) (if asInt b (8 * n) < asInt old (8 * n) then b else old) ∧
     leaves (.atomicMax rd ra rb cb w) (if asInt old (8 * n) < asInt b (8 * n) then b else old) ∧
     leaves (.atomicMinu rd ra rb cb w) (min old b) ∧
     leaves (.atomicMaxu rd ra rb cb w) (max old b) ∧
     leaves (.cas rd ra rb cb w) (if old = (s.g rd).toNat % 2 ^ (8 * n) then b else old))

/-- R229: the checks of an access through C[cb] are made in the order listed, and the first that fails gives the fault: its
handler entry, C[cb], and ea, or for the bounds the first byte outside; with none failing the access is made. R229: an
access whose check fails is made to no byte: the load, store or atomic takes the fault, with every byte of memory as it was
when the fault is taken. -/
def Obligations.AccessChecks : Prop :=
  (∀ (s : State) (cb : Nat) (need : List Nat) (align n : Nat) (ea : Int), 0 < n →
     let c := s.c cb
     let current := c.tag = true ∧ s.currentCap c = true
     let plain := c.sealv = 0 ∧ c.otype = 0
     let permitted := ∀ p ∈ need, c.has p = true
     let aligned := ea % align = 0
     let inside := (c.base : Int) ≤ ea ∧ ea + n ≤ (c.base + c.len : Nat)
     let check := s.capCheck cb need align n ea
     let fault (e : Nat) (a : Int) : Option TFault := some (.check e cb (a % 2 ^ 40).toNat)
     (¬current → check = fault 5 ea) ∧
     (current → ¬plain → check = fault 8 ea) ∧
     (current → plain → ¬permitted → check = fault 7 ea) ∧
     (current → plain → permitted → ¬aligned → check = fault 3 ea) ∧
     (current → plain → permitted → aligned → ¬inside → ∃ a : Int, check = fault 6 a ∧ ea ≤ a ∧ a < ea + n ∧
       (a < c.base ∨ (c.base + c.len : Nat) ≤ a) ∧ (∀ x : Int, ea ≤ x → x < a → (c.base : Int) ≤ x ∧ x < (c.base + c.len : Nat))) ∧
     (current → plain → permitted → aligned → inside → check = none)) ∧
  (∀ (s : State) (rd ra rb : Fin 32) (cb : Fin 16) (imm : BitVec 9) (w : Bool) (f : TFault), s.issues = true →
     let ea (n : Nat) : Int := ((s.c cb).base : Int) + (s.g ra).toNat + imm.toInt * n
     let at0 : Int := ((s.c cb).base : Int) + (s.g ra).toNat
     let n : Nat := if w then 4 else 8
     let faults (i : Instr) : Prop := exec i s = .next (s.stop f s.retAddr)
     (s.capCheck cb [permR] 1 1 (ea 1) = some f → faults (.lb rd ra cb imm) ∧ faults (.lbu rd ra cb imm)) ∧
     (s.capCheck cb [permR] 1 2 (ea 2) = some f → faults (.lh rd ra cb imm) ∧ faults (.lhu rd ra cb imm)) ∧
     (s.capCheck cb [permR] 1 4 (ea 4) = some f → faults (.lw rd ra cb imm) ∧ faults (.lwu rd ra cb imm) ∧ faults (.flw rd ra cb imm)) ∧
     (s.capCheck cb [permR] 1 8 (ea 8) = some f → faults (.ld rd ra cb imm) ∧ faults (.fld rd ra cb imm)) ∧
     (s.capCheck cb [permW] 1 1 (ea 1) = some f → faults (.sb rd ra cb imm)) ∧
     (s.capCheck cb [permW] 1 2 (ea 2) = some f → faults (.sh rd ra cb imm)) ∧
     (s.capCheck cb [permW] 1 4 (ea 4) = some f → faults (.sw rd ra cb imm) ∧ faults (.fsw rd ra cb imm)) ∧
     (s.capCheck cb [permW] 1 8 (ea 8) = some f → faults (.sd rd ra cb imm) ∧ faults (.fsd rd ra cb imm)) ∧
     (s.capCheck cb [permR, permW] n n at0 = some f →
       faults (.atomicSwap rd ra rb cb w) ∧ faults (.atomicAdd rd ra rb cb w) ∧ faults (.atomicAnd rd ra rb cb w) ∧
       faults (.atomicOr rd ra rb cb w) ∧ faults (.atomicXor rd ra rb cb w) ∧ faults (.atomicMin rd ra rb cb w) ∧
       faults (.atomicMax rd ra rb cb w) ∧ faults (.atomicMinu rd ra rb cb w) ∧ faults (.atomicMaxu rd ra rb cb w) ∧
       faults (.cas rd ra rb cb w)))

/-- R234, R235: a MULT that issues starts a write of the product register three tc after its X, with the exact product, signed
or unsigned as its name says, truncated to 128 bits; MAC and MACU start an addition. R234, R235: PRODUCT_WRITE makes the
oldest write of PL and PH take place at its time, not before; an addition adds to the value that PH and PL hold then, and
while Trifle's clock is stopped none takes place; no other register and no byte of memory changes. R234, R235, R242: with no
write in flight, MULU and then the write of its product leave G[ra] × G[rb] in PH and PL. Where the spec leaves a point
open, the statement follows the model's choices, log entries 4 and 20. -/
def Obligations.Multiply : Prop :=
  (∀ (s : State) (ra rb : Fin 32), s.issues = true →
     let a := s.g ra
     let b := s.g rb
     let starts (i : Instr) (m : MulOp) : Prop :=
       exec i s = .next (({ s with tri.mul := s.tri.mul ++ [(s.clk + 3 * 16, m)] } : State).goOn)
     starts (.mul ra rb) (.set (BitVec.ofInt 128 (a.toInt * b.toInt))) ∧
     starts (.mulu ra rb) (.set (BitVec.ofNat 128 (a.toNat * b.toNat))) ∧
     starts (.mulsu ra rb) (.set (BitVec.ofInt 128 (a.toInt * b.toNat))) ∧
     starts (.mac ra rb) (.add (BitVec.ofInt 128 (a.toInt * b.toInt))) ∧
     starts (.macu ra rb) (.add (BitVec.ofNat 128 (a.toNat * b.toNat)))) ∧
  (∀ (s : State) (due : Nat) (m : MulOp) (rest : List (Nat × MulOp)), s.tri.mul = (due, m) :: rest →
     (s.rcv.paused ≠ none ∨ s.rd DBG_STAT.FROST = 1 → exec .productWrite s = .next s) ∧
     (s.rcv.paused = none → s.rd DBG_STAT.FROST = 0 → ∃ t : State, exec .productWrite s = .next t ∧ t.tri.mul = rest ∧ t.clk = max s.clk due ∧
       ((t.sp spPH).toNat * 2 ^ 64 + (t.sp spPL).toNat =
         let old := (s.sp spPH).toNat * 2 ^ 64 + (s.sp spPL).toNat
         match m with
         | .set v => v.toNat
         | .add v => (old + v.toNat) % 2 ^ 128
         | .low v => (s.sp spPH).toNat * 2 ^ 64 + v.toNat
         | .high v => v.toNat * 2 ^ 64 + (s.sp spPL).toNat) ∧
       (∀ n, n ≠ spPL → n ≠ spPH → t.sp n = s.sp n) ∧ t.tri.g = s.tri.g ∧ t.tri.f = s.tri.f ∧ t.tri.v = s.tri.v ∧
       t.tri.p = s.tri.p ∧ t.tri.fcsr = s.tri.fcsr ∧ t.tri.pc = s.tri.pc ∧ TriS.sameSystem s.tri t.tri ∧ s.sameBlock t ∧
       s.sameBytes t)) ∧
  (∀ (s t : State) (ra rb : Fin 32), s.issues = true → s.tri.mul = [] → s.rcv.paused = none → s.rd DBG_STAT.FROST = 0 →
     exec (.mulu ra rb) s = .next t →
     ∃ u : State, exec .productWrite t = .next u ∧ u.tri.mul = [] ∧
       (u.sp spPH).toNat * 2 ^ 64 + (u.sp spPL).toNat = (s.g ra).toNat * (s.g rb).toNat)

/-- R238 to R240: a branch that issues outside a delay slot goes to its target when its condition holds, else behind its slot;
the slot is annulled when the branch is not taken and its a is set; a displacement of zero or less is predicted taken, and a
misprediction loses 2 tc, a predicted taken branch 1. R238, R240: a jump that issues outside a delay slot links to its
address + 8 and goes to its target, with 1 tc lost; a JALR with rd = ra other than G0 is ILL, and one with a misaligned
target raises MIS and writes nothing. R239, R240: an instruction in an annulled delay slot has no effect and raises no
fault: a bubble, after which execution goes on behind the slot. A control transfer, SYNC, RPT, a string instruction, a wait,
SIGEV, GATE or GRET in a delay slot, annulled or not, is ILL, as is a reserved encoding of their opcodes, with the control
transfer's address as its return address. Where the spec leaves a point open, the statement follows the model's choices, log
entry 20. -/
def Obligations.ControlTransfers : Prop :=
  (∀ (s : State) (ra rb : Fin 32) (annul : Bool) (d : BitVec 12) (e : BitVec 17), s.ready = true →
     let a := s.g ra
     let b := s.g rb
     let goes (i : Instr) (taken : Prop) (disp : Int) : Prop :=
       (taken → exec i s = .next (s.goTo (s.tri.pc + BitVec.ofInt 40 (4 * disp)) false (if disp ≤ 0 then 1 else 2))) ∧
       (¬taken → exec i s = .next (s.goTo (s.tri.pc + 8) annul (if disp ≤ 0 then 2 else 0)))
     goes (.bcmp ra rb 0 annul d) (a = b) d.toInt ∧
     goes (.bcmp ra rb 1 annul d) (a ≠ b) d.toInt ∧
     goes (.bcmp ra rb 2 annul d) (a.toInt < b.toInt) d.toInt ∧
     goes (.bcmp ra rb 3 annul d) (b.toInt ≤ a.toInt) d.toInt ∧
     goes (.bcmp ra rb 4 annul d) (a.toNat < b.toNat) d.toInt ∧
     goes (.bcmp ra rb 5 annul d) (b.toNat ≤ a.toNat) d.toInt ∧
     goes (.bz ra 0 annul e) (a = 0) e.toInt ∧
     goes (.bz ra 1 annul e) (a ≠ 0) e.toInt ∧
     goes (.bz ra 2 annul e) (a.toInt < 0) e.toInt ∧
     goes (.bz ra 3 annul e) (0 ≤ a.toInt) e.toInt ∧
     goes (.bz ra 4 annul e) (0 < a.toInt) e.toInt ∧
     goes (.bz ra 5 annul e) (a.toInt ≤ 0) e.toInt) ∧
  (∀ (s : State) (rd ra : Fin 32) (d : BitVec 21) (imm : BitVec 16), s.ready = true →
     let a : BitVec 40 := (s.g ra + BitVec.ofInt 64 imm.toInt).setWidth 40
     let link : State := s.setG rd ((s.tri.pc + 8).setWidth 64)
     exec (.jal rd d) s = .next (link.goTo (s.tri.pc + BitVec.ofInt 40 (4 * d.toInt)) false 1) ∧
     (rd ≠ ra ∨ rd = 0 → a.toNat % 4 = 0 → exec (.jalr rd ra imm) s = .next (link.goTo a false 1)) ∧
     (rd = ra → rd ≠ 0 → exec (.jalr rd ra imm) s = .next (s.stop .ill s.tri.pc)) ∧
     (rd ≠ ra ∨ rd = 0 → a.toNat % 4 ≠ 0 → exec (.jalr rd ra imm) s = .next (s.stop (.check 3 0 a.toNat) s.tri.pc))) ∧
  (∀ (s : State) (d : Slot) (i : Instr), s.tri.slot = some d →
     ({ s with tri.slot := none } : State).ready = true →
     let barred : Prop := 0x20 ≤ bits s.fetchWord 31 26 ∧ bits s.fetchWord 31 26 ≤ 0x23
     (d.annul = true → i.intDest ≠ none → exec i s = .next { (s.tick 1).tick d.lost with
         tri.pc := d.target, tri.slot := none, dbg.step := false }) ∧
     (d.annul = true → ¬barred → exec .ill s = .next { (s.tick 1).tick d.lost with
         tri.pc := d.target, tri.slot := none, dbg.step := false }) ∧
     (i.noSlot = true → exec i s = .next (s.stop .ill d.addr)) ∧
     (barred → exec .ill s = .next (s.stop .ill d.addr)))

/-- R242 to R244, R218: NOP does nothing; SYNC applies every waiting control-register write in the order the writes were made,
lets fetch use the window that REMAP selects and costs 4 tc; MFSR and MTSR move the special registers that can be read and
written, PL and PH three tc later, CYC and INSTRET read only, the others ILL. R21, R242: a read of CT gives a value 2 to 6
ns behind the master copy, or the last value read if that is later, and never goes back. Where the spec leaves a point open,
the statement follows the model's choices, log entries 4, 5 and 20. -/
def Obligations.SpecialRegisters : Prop :=
  (∀ (s : State) (g : Fin 32) (n : Nat), s.issues = true →
     let held := n = 0 ∨ n = 1 ∨ n = 0x10 ∨ n = 0x11 ∨ n = 0x12 ∨ n = 0x13 ∨ n = 0x18
     exec .specNop s = .next s.goOn ∧
     (s.tri.slot = none → ∃ t : State, exec .sync s = .next t ∧ t.tri.waiting = [] ∧ s.clockBy t 4 ∧ t.tri.remapUsed = s.isOn XW_CTL.REMAP ∧
       t.tri.pc = s.tri.pc + 4 ∧ s.sameBytes t ∧ t.tri.g = s.tri.g ∧ t.regs = s.regs) ∧
     (held → exec (.mfsr g (BitVec.ofNat 8 n)) s = .next (s.setG g (s.sp n)).goOn) ∧
     exec (.mfsr g 3) s = .next (s.setG g (BitVec.ofNat 64 (s.clk / 16))).goOn ∧
     exec (.mfsr g 4) s = .next (s.setG g s.tri.insn).goOn ∧
     (n < 256 → ¬held → n ≠ 2 → n ≠ 3 → n ≠ 4 → exec (.mfsr g (BitVec.ofNat 8 n)) s = .next (s.stop .ill s.retAddr)) ∧
     exec (.mtsr g 0) s = .next ({ s with tri.mul := s.tri.mul ++ [(s.clk + 3 * 16, .low (s.g g))] } : State).goOn ∧
     exec (.mtsr g 1) s = .next ({ s with tri.mul := s.tri.mul ++ [(s.clk + 3 * 16, .high (s.g g))] } : State).goOn ∧
     (n = 0x10 ∨ n = 0x11 ∨ n = 0x12 → exec (.mtsr g (BitVec.ofNat 8 n)) s = .next (s.setSp n (s.g g).toNat).goOn) ∧
     exec (.mtsr g 0x13) s = .next (s.setSp 0x13 ((s.g g).toNat % 2 ^ 8)).goOn ∧
     exec (.mtsr g 0x18) s = .next (s.setSp 0x18 ((s.g g).toNat % 2 ^ 6)).goOn ∧
     (n < 256 → ¬held → exec (.mtsr g (BitVec.ofNat 8 n)) s = .next (s.stop .ill s.retAddr))) ∧
  (∀ (s : State) (g : Fin 32), s.issues = true →
     ∃ (v : Nat) (t : State), exec (.mfsr g 2) s = .next t.goOn ∧ s.tri.ctLast ≤ v ∧ t.tri.ctLast = v ∧
       (v = s.tri.ctLast ∨ (s.now ≤ v + 6 ∧ (v + 2 ≤ s.now ∨ v = 0))) ∧
       (g ≠ 0 → t.g g = BitVec.ofNat 64 v) ∧ (∀ r, r ≠ g.val → t.g r = s.g r) ∧ s.sameBytes t ∧ t.regs = s.regs)

/-- R266 to R268: WAITEV with EV set ends at once with result 0 and clears EV; without EV it waits, unless its limit has been
reached. SIGEV to Trifle sets EV. An event (here SOURCE_EDGE aside, `State.event`) that finds a WAITEV waiting ends it.
R268, R269: the limit of a waiting WAITEV ends it with result 1 and leaves EV, but an EV that is set ends it with 0; a
waiting WAITT ends with a value of CT at or after its instant; both go on behind the wait. WAITT whose instant has come ends
at once. Where the spec leaves a point open, the statement follows the model's choices, log entries 4, 5 and 61. -/
def Obligations.Waits : Prop :=
  (∀ (s : State) (rd ra : Fin 32), s.ready = true →
     (s.tri.ev = true → exec (.waitev rd ra) s = .next ({ s.setG rd 0 with tri.ev := false } : State).goOn) ∧
     (s.tri.ev = false → ra = 0 → ∃ t : State, exec (.waitev rd ra) s = .next t ∧ t.tri.wait = some (.event rd none) ∧
       t.tri.pc = s.tri.pc ∧ t.tri.g = s.tri.g ∧ t.tri.ev = false ∧ s.clockBy t 1 ∧ s.sameBytes t) ∧
     (s.tri.ev = false → ra ≠ 0 → s.now < (s.g ra).toNat → s.tri.ctLast < (s.g ra).toNat →
       ∃ t : State, exec (.waitev rd ra) s = .next t ∧ t.tri.wait = some (.event rd (some (s.g ra).toNat)) ∧
       t.tri.pc = s.tri.pc ∧ t.tri.g = s.tri.g ∧ t.tri.ev = false ∧ s.sameBytes t) ∧
     (s.tri.ev = false → ra ≠ 0 → (s.g ra).toNat + 6 ≤ s.now →
       ∃ t : State, exec (.waitev rd ra) s = .next t ∧ t.tri.wait = none ∧ t.tri.pc = s.tri.pc + 4 ∧ t.tri.ev = false ∧
       (rd ≠ 0 → t.g rd = 1) ∧ (∀ r, r ≠ rd.val → t.g r = s.g r) ∧ s.sameBytes t) ∧
     exec (.sigev 0) s = .next ({ s with tri.ev := true } : State).goOn ∧
     exec (.sigev 1) s = .next s.goOn ∧ exec (.sigev 2) s = .next s.goOn) ∧
  ((∀ (s : State) (rd : Fin 32) (l : Nat), s.triClocked = true →
     (s.tri.wait = some (.event rd (some l)) → s.tri.ev = true →
       exec .waitevLimit s = .next { s.endWait rd 0 with tri.ev := false }) ∧
     (s.tri.wait = some (.event rd (some l)) → s.tri.ev = false → ∃ t : State, exec .waitevLimit s = .next t ∧ t.tri.wait = none ∧
       t.tri.pc = s.tri.pc + 4 ∧ t.tri.ev = false ∧ (rd ≠ 0 → t.g rd = 1) ∧ (∀ r, r ≠ rd.val → t.g r = s.g r) ∧
       l ≤ t.tri.ctLast ∧ l + 2 ≤ t.now ∧ s.sameBytes t ∧ t.regs = s.regs) ∧
     (s.tri.wait = some (.time rd l) → ∃ (t : State) (v : Nat), exec .waittEnd s = .next t ∧ t.tri.wait = none ∧ t.tri.pc = s.tri.pc + 4 ∧
       l ≤ v ∧ t.tri.ctLast = v ∧ (rd ≠ 0 → t.g rd = BitVec.ofNat 64 v) ∧ (∀ r, r ≠ rd.val → t.g r = s.g r) ∧
       s.sameBytes t ∧ t.regs = s.regs)) ∧
   (∀ (s : State) (rd ra : Fin 32), s.ready = true →
     ((s.g ra).toNat + 6 ≤ s.now → ∃ (t : State) (v : Nat), exec (.waitt rd ra) s = .next t ∧ t.tri.wait = none ∧ t.tri.pc = s.tri.pc + 4 ∧
       (s.g ra).toNat ≤ v ∧ (rd ≠ 0 → t.g rd = BitVec.ofNat 64 v) ∧ s.sameBytes t) ∧
     (s.now < (s.g ra).toNat → s.tri.ctLast < (s.g ra).toNat → ∃ t : State, exec (.waitt rd ra) s = .next t ∧
       t.tri.wait = some (.time rd (s.g ra).toNat) ∧ t.tri.pc = s.tri.pc ∧ t.tri.g = s.tri.g ∧ s.sameBytes t)))

/-- R245, R246, R248 to R250: an instruction that rounds, with an rm that is not reserved, writes to its destination what the
operation of the precision p gives in the rounding mode that rm selects (FCSR's for 0), or-s the flags into FCSR.FLAGS and
goes on; with a reserved rm (1 to 3) it is ILL. FCVTFF to binary64 takes rm = 0 only. R245, R248, R249, R251: the floating-
point instructions that do not round. FABS and FNEG clear and invert the sign bit of their precision; moves copy bits
between F and G; FCSR is read whole and written in its fields; minima, maxima, compares and FCLASS write what the operation
of the precision gives. -/
def Obligations.FloatOperations : Prop :=
  (∀ (s : State) (fd fa fb fc : Fin 32) (np nc p : Bool) (rm : BitVec 3), s.issues = true →
     let m : Rnd := rmodeOf (if rm = 0 then bits s.tri.fcsr.toNat 9 8 else rm.toNat - 4)
     let x (r : Nat) : Nat := (s.f r).toNat % 2 ^ (fmtOf p).w
     let leaves (i : Instr) (y : Nat × Nat) : Prop := exec i s = .next ((s.setF fd y.1).raise y.2).goOn
     let int (i : Instr) (y : Nat × Nat) : Prop := exec i s = .next ((s.setGN fd y.1).raise y.2).goOn
     let toInt (lo hi : Int) : Nat × Nat :=
       let y := ftoi (fmtOf p) m false 0 lo hi 0 (x fa)
       (ofInt y.1 64, y.2)
     let dec (r : Nat) (neg : Bool) : FVal := if neg then (fdec (fmtOf p) false (x r)).flip else fdec (fmtOf p) false (x r)
     let ill (i : Instr) : Prop := exec i s = .next (s.stop .ill s.retAddr)
     (rm = 0 ∨ 4 ≤ rm.toNat →
       leaves (.fadd fd fa fb p rm) (fadd (fmtOf p) m false (x fa) (x fb)) ∧
       leaves (.fsub fd fa fb p rm) (fsub (fmtOf p) m false (x fa) (x fb)) ∧
       leaves (.fmul fd fa fb p rm) (fmul (fmtOf p) m false (x fa) (x fb)) ∧
       leaves (.fma fd fa fb fc np nc p rm) (ffmaV (fmtOf p) m false (dec fa np) (dec fb false) (dec fc nc)) ∧
       leaves (.frstep fd fa p rm) (frstep (fmtOf p) (x fa)) ∧
       leaves (.fsqstep fd fa p rm) (fsqstep (fmtOf p) (x fa)) ∧
       leaves (.fcvtfs fd fa p rm) (itof (fmtOf p) m 0 (s.g fa).toInt) ∧
       leaves (.fcvtfu fd fa p rm) (itof (fmtOf p) m 0 ((s.g fa).toNat : Int)) ∧
       int (.fcvtsf fd fa p rm) (toInt (-(2 ^ 63)) (2 ^ 63 - 1)) ∧
       int (.fcvtuf fd fa p rm) (toInt 0 (2 ^ 64 - 1)) ∧
       (p = true ∨ rm = 0 → leaves (.fcvtff fd fa p rm) (fcvt (fmtOf p) (fmtOf !p) m false (x fa)))) ∧
     (p = false → rm ≠ 0 → ill (.fcvtff fd fa p rm)) ∧
     (1 ≤ rm.toNat → rm.toNat ≤ 3 →
       ill (.fadd fd fa fb p rm) ∧ ill (.fsub fd fa fb p rm) ∧ ill (.fmul fd fa fb p rm) ∧ ill (.fma fd fa fb fc np nc p rm) ∧
       ill (.frstep fd fa p rm) ∧ ill (.fsqstep fd fa p rm) ∧ ill (.fcvtfs fd fa p rm) ∧ ill (.fcvtfu fd fa p rm) ∧
       ill (.fcvtsf fd fa p rm) ∧ ill (.fcvtuf fd fa p rm) ∧ ill (.fcvtff fd fa p rm))) ∧
  (∀ (s : State) (fd fa fb : Fin 32) (p : Bool), s.issues = true →
     let w : Nat := if p then 64 else 32
     let x (r : Nat) : Nat := (s.f r).toNat % 2 ^ w
     let picks (i : Instr) (y : Nat × Nat) : Prop := exec i s = .next ((s.setF fd y.1).raise y.2).goOn
     let a := fdec (fmtOf p) false (x fa)
     let b := fdec (fmtOf p) false (x fb)
     let compares (i : Instr) (holds : Bool) (quiet : Bool) : Prop :=
       exec i s = .next ((s.setGN fd (b2n holds)).raise (cmpFlags quiet a b)).goOn
     picks (.fmin fd fa fb p) (fminmax (fmtOf p) false false false (x fa) (x fb)) ∧
     picks (.fmax fd fa fb p) (fminmax (fmtOf p) false true false (x fa) (x fb)) ∧
     picks (.fminn fd fa fb p) (fminmax (fmtOf p) false false true (x fa) (x fb)) ∧
     picks (.fmaxn fd fa fb p) (fminmax (fmtOf p) false true true (x fa) (x fb)) ∧
     exec (.fabs fd fa p) s = .next (s.setF fd (x fa % 2 ^ (w - 1))).goOn ∧
     exec (.fneg fd fa p) s = .next (s.setF fd (Nat.xor (x fa) (2 ^ (w - 1)))).goOn ∧
     exec (.fmv fd fa) s = .next (s.setF fd (s.f fa).toNat).goOn ∧
     exec (.fmvxf fd fa) s = .next (s.setG fd (s.f fa)).goOn ∧
     exec (.fmvfx fd fa) s = .next (s.setF fd (s.g fa).toNat).goOn ∧
     exec (.fclass fd fa p) s = .next (s.setGN fd (2 ^ fclassBit (fmtOf p) (x fa))).goOn ∧
     exec (.frcsr fd) s = .next (s.setG fd s.tri.fcsr).goOn ∧
     exec (.fwcsr fa) s = .next ({ s with tri.fcsr := (s.g fa) &&& 0x33F } : State).goOn ∧
     compares (.fcmp fd fa fb 0 p) (fcmpV a b == .eq) true ∧
     compares (.fcmp fd fa fb 1 p) (fcmpV a b == .lt) false ∧
     compares (.fcmp fd fa fb 2 p) (fcmpV a b == .lt || fcmpV a b == .eq) false ∧
     compares (.fcmp fd fa fb 3 p) (fcmpV a b == .un) true)

/-- R253 to R255: a VOP whose registers name groups computes each active element of vd from the elements of va and vb in the
same place, wrapping or saturating as its row says; an element that is not active keeps its value; FCSR.SAT is set when an
active element saturates. No other register changes. R253, R255, R257: a vector instruction one of whose registers names no
group, a VQMUL of elements of 1 or 8 bytes, and a VINS or VEXT whose index is not below the number of elements are ILL. -/
def Obligations.VectorOperations : Prop :=
  (∀ (s : State) (vd va vb : Fin 32) (grp : Fin 3) (es : Fin 4) (pr : Fin 8), s.issues = true →
     vgroups grp [vd, va, vb] = true →
     let w : Nat := 8 * 2 ^ es.val
     let n : Nat := 16 * 2 ^ grp.val / 2 ^ es.val
     let el (u : State) (r k : Nat) : Nat := velem es (u.vgroup grp r) k
     let sg (x : Nat) : Int := asInt x w
     let lo : Int := -(2 ^ (w - 1) : Nat)
     let hi : Int := (2 ^ (w - 1) : Nat) - 1
     let top : Int := (2 ^ w : Nat) - 1
     let leaves (i : Instr) (f : Nat → Nat → Nat) (sats : Nat → Nat → Prop) : Prop :=
       ∃ u : State, exec i s = .next u.goOn ∧
         (∀ k, k < n → el u vd k = if (s.p pr).getLsbD k then f (el s va k) (el s vb k) % 2 ^ w else el s vd k) ∧
         (∀ r, r < vd.val ∨ vd.val + 2 ^ grp.val ≤ r → u.v r = s.v r) ∧
         ((∃ k, k < n ∧ (s.p pr).getLsbD k = true ∧ sats (el s va k) (el s vb k)) → u.tri.fcsr = s.tri.fcsr ||| 0x20) ∧
         ((∀ k, k < n → (s.p pr).getLsbD k = true → ¬sats (el s va k) (el s vb k)) → u.tri.fcsr = s.tri.fcsr) ∧
         u.tri.g = s.tri.g ∧ u.tri.f = s.tri.f ∧ u.tri.p = s.tri.p ∧ u.tri.sp = s.tri.sp ∧
         TriS.sameSystem s.tri u.tri ∧ s.sameBlock u ∧ s.sameBytes u
     let wraps (i : Instr) (f : Nat → Nat → Nat) : Prop := leaves i f (fun _ _ => False)
     let sats (i : Instr) (f : Nat → Nat → Int) : Prop :=
       leaves i (fun a b => ofInt (min (max (f a b) lo) hi) w) (fun a b => f a b < lo ∨ hi < f a b)
     let satsU (i : Instr) (f : Nat → Nat → Int) : Prop :=
       leaves i (fun a b => ofInt (min (max (f a b) 0) top) w) (fun a b => f a b < 0 ∨ top < f a b)
     wraps (.vadd vd va vb grp es pr) (fun a b => a + b) ∧
     wraps (.vsub vd va vb grp es pr) (fun a b => a + 2 ^ w - b) ∧
     sats (.vadds vd va vb grp es pr) (fun a b => sg a + sg b) ∧
     sats (.vsubs vd va vb grp es pr) (fun a b => sg a - sg b) ∧
     satsU (.vaddus vd va vb grp es pr) (fun a b => (a : Int) + b) ∧
     satsU (.vsubus vd va vb grp es pr) (fun a b => (a : Int) - b) ∧
     wraps (.vand vd va vb grp es pr) Nat.land ∧
     wraps (.vor vd va vb grp es pr) Nat.lor ∧
     wraps (.vxor vd va vb grp es pr) Nat.xor ∧
     wraps (.vandn vd va vb grp es pr) (fun a b => Nat.land a (2 ^ w - 1 - b)) ∧
     wraps (.vmin vd va vb grp es pr) (fun a b => if sg b < sg a then b else a) ∧
     wraps (.vmax vd va vb grp es pr) (fun a b => if sg a < sg b then b else a) ∧
     wraps (.vminu vd va vb grp es pr) min ∧
     wraps (.vmaxu vd va vb grp es pr) max ∧
     wraps (.vmul vd va vb grp es pr) (fun a b => a * b) ∧
     (es = 1 ∨ es = 2 → sats (.vqmule vd va vb grp es pr) (fun a b => rndQ (sg a * sg b) (w - 1) false)) ∧
     (es = 1 ∨ es = 2 → sats (.vqmulh vd va vb grp es pr) (fun a b => rndQ (sg a * sg b) (w - 1) true)) ∧
     wraps (.vshl vd va vb grp es pr) (fun a b => a * 2 ^ (b % 256)) ∧
     sats (.vshls vd va vb grp es pr) (fun a b => sg a * (2 ^ (b % 256) : Nat)) ∧
     wraps (.vsrl vd va vb grp es pr) (fun a b => a / 2 ^ (b % 256)) ∧
     wraps (.vsra vd va vb grp es pr) (fun a b => ofInt (sg a / (2 ^ (b % 256) : Nat)) w) ∧
     sats (.vrshre vd va vb grp es pr) (fun a b => rndQ (sg a) (b % 256) false) ∧
     sats (.vrshrh vd va vb grp es pr) (fun a b => rndQ (sg a) (b % 256) true)) ∧
  (∀ (s : State) (vd va vb : Fin 32) (grp : Fin 3) (es : Fin 4) (pr : Fin 8) (fn : Fin 6) (idx : Fin 64), s.issues = true →
     let ill (i : Instr) : Prop := exec i s = .next (s.stop .ill s.retAddr)
     (vgroups grp [vd, va, vb] = false →
       ill (.vadd vd va vb grp es pr) ∧ ill (.vmul vd va vb grp es pr) ∧ ill (.vqmule vd va vb grp es pr) ∧
       ill (.vsra vd va vb grp es pr)) ∧
     (es = 0 ∨ es = 3 → ill (.vqmule vd va vb grp es pr) ∧ ill (.vqmulh vd va vb grp es pr)) ∧
     (vgroups grp [va, vb] = false → ill (.vcmp pr va vb fn es grp pr) ∧ ill (.vmovv va vb grp)) ∧
     (vgroups grp [vd] = false → ill (.vins vd va es idx grp) ∧ ill (.vext va vd es idx grp) ∧ ill (.vsplat vd va es grp)) ∧
     (inGroup grp es idx = false → ill (.vins vd va es idx grp) ∧ ill (.vext va vd es idx grp)))

/-- R245, R254, R256: VCMP writes to P[pd], at each element's bit, whether the element is active and the relation holds, and
zeros above; the predicate operations act on all 64 bits; a write to P0 is discarded. R253, R257: VINS writes one element of
a group and leaves the others; VEXT reads one, zero-extended, into G; VSPLAT writes every element; VMOVV copies a group. -/
def Obligations.PredicatesAndMoves : Prop :=
  (∀ (s : State) (pd pa pb pr : Fin 8) (r : Fin 32) (va vb : Fin 32) (es : Fin 4) (grp : Fin 3), s.issues = true →
     let w : Nat := 8 * 2 ^ es.val
     let n : Nat := 16 * 2 ^ grp.val / 2 ^ es.val
     let a (k : Nat) : Nat := velem es (s.vgroup grp va) k
     let b (k : Nat) : Nat := velem es (s.vgroup grp vb) k
     let puts (i : Instr) (v : Word) : Prop := exec i s = .next (s.setP pd v).goOn
     let gets (i : Instr) (v : Word) : Prop := exec i s = .next (s.setG r v).goOn
     let tests (i : Instr) (rel : Nat → Nat → Bool) : Prop :=
       vgroups grp [va, vb] = true → ∃ v : Word, exec i s = .next (s.setP pd v).goOn ∧
         ∀ k, v.getLsbD k = (decide (k < n) && (s.p pr).getLsbD k && rel (a k) (b k))
     tests (.vcmp pd va vb 0 es grp pr) (fun x y => decide (x = y)) ∧
     tests (.vcmp pd va vb 1 es grp pr) (fun x y => decide (x ≠ y)) ∧
     tests (.vcmp pd va vb 2 es grp pr) (fun x y => decide (asInt x w < asInt y w)) ∧
     tests (.vcmp pd va vb 3 es grp pr) (fun x y => decide (asInt x w ≤ asInt y w)) ∧
     tests (.vcmp pd va vb 4 es grp pr) (fun x y => decide (x < y)) ∧
     tests (.vcmp pd va vb 5 es grp pr) (fun x y => decide (x ≤ y)) ∧
     puts (.pand pd pa pb) (s.p pa &&& s.p pb) ∧
     puts (.por pd pa pb) (s.p pa ||| s.p pb) ∧
     puts (.pxor pd pa pb) (s.p pa ^^^ s.p pb) ∧
     puts (.pandn pd pa pb) (s.p pa &&& ~~~s.p pb) ∧
     puts (.pnot pd pa) (~~~s.p pa) ∧
     puts (.pfromg pd r) (s.g r) ∧
     gets (.ptog pa r) (s.p pa) ∧
     gets (.pcnt pa r) (BitVec.ofNat 64 (popcount 64 (s.p pa).toNat)) ∧
     gets (.pfirst pa r) (BitVec.ofNat 64 (ctz 64 (s.p pa).toNat))) ∧
  (∀ (s : State) (d r : Fin 32) (es : Fin 4) (idx : Fin 64) (grp : Fin 3), s.issues = true → vgroups grp [d] = true →
     let w : Nat := 8 * 2 ^ es.val
     let n : Nat := 16 * 2 ^ grp.val / 2 ^ es.val
     let el (u : State) (x k : Nat) : Nat := velem es (u.vgroup grp x) k
     let rest (u : State) : Prop :=
       (∀ x, x < d.val ∨ d.val + 2 ^ grp.val ≤ x → u.v x = s.v x) ∧ u.tri.g = s.tri.g ∧ u.tri.f = s.tri.f ∧
         u.tri.p = s.tri.p ∧ u.tri.fcsr = s.tri.fcsr ∧ TriS.sameSystem s.tri u.tri ∧ s.sameBlock u ∧ s.sameBytes u
     (idx.val < n → ∃ u : State, exec (.vins d r es idx grp) s = .next u.goOn ∧ rest u ∧
       ∀ k, k < n → el u d k = if k = idx.val then (s.g r).toNat % 2 ^ w else el s d k) ∧
     (idx.val < n → exec (.vext r d es idx grp) s = .next (s.setGN r (el s d idx)).goOn) ∧
     (∃ u : State, exec (.vsplat d r es grp) s = .next u.goOn ∧ rest u ∧ ∀ k, k < n → el u d k = (s.g r).toNat % 2 ^ w) ∧
     (vgroups grp [r] = true → ∃ u : State, exec (.vmovv d r grp) s = .next u.goOn ∧ rest u ∧
       ∀ k, k < 2 ^ grp.val → u.v (d.val + k) = s.v (r.val + k)))

/-- R258, R259: a vector load or store of sound bytes of Trifle Local, through a capability that allows the whole group's range,
without an interruption point, accesses the active elements from VX_IDX on and leaves VX_IDX 0: a load fills them and leaves
the other elements, a store writes their bytes and no others. A VX_IDX past the group, or a register that names no group, is
ILL; an interruption point before the first part leaves VX_IDX at its element. -/
def Obligations.VectorMemory : Prop :=
  ∀ (s : State) (v ra : Fin 32) (cb : Fin 16) (grp : Fin 3) (es : Fin 4) (pr : Fin 8) (limit : Nat), s.issues = true →
    let e : Nat := 2 ^ es.val
    let n : Nat := 16 * 2 ^ grp.val / e
    let k0 : Nat := (s.sp spVx).toNat
    let ea : Int := ((s.c cb).base : Int) + (s.g ra).toNat
    let el (u : State) (k : Nat) : Nat := velem es (u.vgroup grp v) k
    let touched (k : Nat) : Prop := k0 ≤ k ∧ k < n ∧ (s.p pr).getLsbD k = true
    let whole : Prop := s.tri.slot ≠ none ∨ (s.dbg.step = false ∧ n ≤ limit)
    let ill (i : Instr) : Prop := exec i s = .next (s.stop .ill s.retAddr)
    (vgroups grp [v] = false ∨ n ≤ k0 →
      ill (.vmemLoad v ra cb grp es pr limit) ∧ ill (.vmemStore v ra cb grp es pr limit)) ∧
    (vgroups grp [v] = true → k0 < n → whole → s.allows cb [permR] 1 (n * e) ea → s.inLocal (n * e) ea →
      ∃ u : State, exec (.vmemLoad v ra cb grp es pr limit) s = .next u.goOn ∧ u.sp spVx = 0 ∧
        (∀ k, touched k → el u k = s.num (ea.toNat + k * e) e) ∧ (∀ k, k < n → ¬touched k → el u k = el s k) ∧
        (∀ r, r < v.val ∨ v.val + 2 ^ grp.val ≤ r → u.v r = s.v r) ∧ u.tri.g = s.tri.g ∧ u.tri.p = s.tri.p ∧
        s.sameBytes u ∧ u.regs = s.regs) ∧
    (vgroups grp [v] = true → k0 < n → whole → s.allows cb [permW] 1 (n * e) ea → s.inLocal (n * e) ea →
      ∃ u : State, exec (.vmemStore v ra cb grp es pr limit) s = .next u.goOn ∧ u.sp spVx = 0 ∧ u.tri.v = s.tri.v ∧
        (∀ k, touched k → u.num (ea.toNat + k * e) e = el s k) ∧
        (∀ a, (∀ k, touched k → a < ea.toNat + k * e ∨ ea.toNat + k * e + e ≤ a) → u.byte a = s.byte a) ∧
        u.tri.g = s.tri.g ∧ u.tri.p = s.tri.p ∧ u.regs = s.regs) ∧
    (vgroups grp [v] = true → s.tri.slot = none → s.dbg.step = false → ∀ k, touched k → (∀ j, touched j → k ≤ j) →
      ∃ t : State, exec (.vmemLoad v ra cb grp es pr 0) s = .next t ∧ t.tri.pc = s.tri.pc ∧ t.sp spVx = BitVec.ofNat 64 k ∧
        t.tri.v = s.tri.v ∧ s.sameBytes t)

/-- R236: a DSTEP by itself makes two steps of restoring division in 64 bits, or in 32 with w; one whose registers are not all
different, or whose rd or rs is G0, is ILL. R236: with rd = 0 and rs the dividend, n / 2 DSTEPs leave the unsigned quotient
in rs and the remainder in rd, for n = 64 and, with w, n = 32; a divisor of zero leaves a quotient of all ones and the
dividend as remainder. -/
def Obligations.Division : Prop :=
  (∀ (s : State) (rd rs rt : Fin 32) (w : Bool), s.issues = true →
     let n : Nat := if w then 32 else 64
     let t : Nat := (s.g rt).toNat % 2 ^ n
     let r0 : Nat := (s.g rd).toNat % 2 ^ n
     let q0 : Nat := (s.g rs).toNat % 2 ^ n
     let r1 : Nat := 2 * r0 + q0 / 2 ^ (n - 1)
     let r1' : Nat := if t ≤ r1 then r1 - t else r1
     let q1 : Nat := 2 * q0 % 2 ^ n + (if t ≤ r1 then 1 else 0)
     let r2 : Nat := 2 * r1' + q1 / 2 ^ (n - 1)
     let r2' : Nat := if t ≤ r2 then r2 - t else r2
     let q2 : Nat := 2 * q1 % 2 ^ n + (if t ≤ r2 then 1 else 0)
     (distinct rd rs rt = true → exec (.dstep rd rs rt w) s = .next ((s.setGN rd r2').setGN rs q2).goOn) ∧
     (distinct rd rs rt = false → exec (.dstep rd rs rt w) s = .next (s.stop .ill s.retAddr))) ∧
  (∀ (s u : State) (rd rs rt : Fin 32) (w : Bool),
     let n : Nat := if w then 32 else 64
     let x : Nat := (s.g rs).toNat % 2 ^ n
     let y : Nat := (s.g rt).toNat % 2 ^ n
     distinct rd rs rt = true → s.g rd = 0 → runs (.dstep rd rs rt w) (n / 2) s u →
     (y ≠ 0 → u.g rs = BitVec.ofNat 64 (x / y) ∧ u.g rd = BitVec.ofNat 64 (x % y)) ∧
     (y = 0 → u.g rs = BitVec.ofNat 64 (2 ^ n - 1) ∧ u.g rd = BitVec.ofNat 64 x) ∧
     (∀ r, r ≠ rd.val → r ≠ rs.val → u.g r = s.g r))

/-- R260: an RPT whose body is a string instruction or DSTEP starts from LP_ST.ACT = 0: the count from G[rc] or imm, the offsets
of a string body from G[ra] and G[rb], ACT 1, the size, the kind and HIT 0; with ACT = 1 it continues from the registers as
they are if kind and size match, and is ILL if not; a body of another kind, or a size with DSTEP, is ILL. R260 to R263: a
string instruction as the body of the RPT before it, run without an interruption point over c elements of sound bytes of
Trifle Local that its capabilities allow. SMOV, in the direction that RPT chose, leaves in the destination what the source
held, even where they overlap; SSET fills the destination with the low bytes of G[rd]; SCMP and SSCAN, ascending, leave in
G[rd] the offset of the first element that differs, or is equal, or all ones. Each leaves ACT 0, and the bytes outside the
destination as they were. -/
def Obligations.Repeats : Prop :=
  (∀ (s : State) (rc : Fin 32) (sz : Fin 4) (imm : BitVec 16) (b : RptBody) (limit kind : Nat), s.ready = true →
     let cnt : Word := if rc = 0 then BitVec.ofNat 64 imm.toNat else s.g rc
     let st : Nat := (s.sp spSt).toNat
     let run : State → Prop := fun t =>
       exec (.rpt rc sz imm b limit) s = .next t ∧ t.tri.pc = s.tri.pc + 4 ∧
         t.tri.rpt = some ⟨s.tri.pc, b, if s.dbg.step then 1 else limit⟩ ∧ s.clockBy t 1 ∧ t.tri.g = s.tri.g ∧
         s.sameBytes t ∧ t.regs = s.regs
     (bodyKind b = none → exec (.rpt rc sz imm b limit) s = .next (s.stop .ill s.tri.pc)) ∧
     (bodyKind b = some 4 → sz ≠ 0 → exec (.rpt rc sz imm b limit) s = .next (s.stop .ill s.tri.pc)) ∧
     (bodyKind b = some kind → (kind = 4 → sz = 0) → st % 2 = 0 → ∃ t : State, run t ∧ t.sp spCnt = cnt ∧
       (t.sp spSt).toNat % 2 = 1 ∧ bits (t.sp spSt).toNat 3 2 = sz.val ∧ bits (t.sp spSt).toNat 6 4 = kind ∧
       bits (t.sp spSt).toNat 7 7 = 0 ∧
       (kind ≠ 4 → t.sp spSrc = s.g (bodyRegs b).1 ∧ t.sp spDst = s.g (bodyRegs b).2) ∧
       (kind = 4 → t.sp spSrc = s.sp spSrc ∧ t.sp spDst = s.sp spDst)) ∧
     (bodyKind b = some kind → (kind = 4 → sz = 0) → st % 2 = 1 → bits st 6 4 = kind → bits st 3 2 = sz.val →
       ∃ t : State, run t ∧ t.tri.sp = s.tri.sp) ∧
     (bodyKind b = some kind → st % 2 = 1 → (bits st 6 4 ≠ kind ∨ bits st 3 2 ≠ sz.val) →
       exec (.rpt rc sz imm b limit) s = .next (s.stop .ill s.tri.pc))) ∧
  (∀ (s : State) (r : RptS) (rd ra rb : Fin 32) (cs cd : Fin 16) (down : Bool),
     s.tri.rpt = some r → ({ s with tri.rpt := none } : State).ready = true →
     let st : Nat := (s.sp spSt).toNat
     let z : Nat := 2 ^ bits st 3 2
     let c : Nat := (s.sp spCnt).toNat
     let src : Nat := (s.c cs).base + (s.sp spSrc).toNat
     let dst : Nat := (s.c cd).base + (s.sp spDst).toNat
     let descends : Bool := bitb st 1
     let reads (cb a : Nat) : Prop := c ≠ 0 → s.allows cb [permR] 1 (c * z) a ∧ s.inLocal (c * z) a
     let writes (cb a : Nat) : Prop := c ≠ 0 → s.allows cb [permW] 1 (c * z) a ∧ s.inLocal (c * z) a
     let ended (u : State) (hit : Bool) : Prop := bitb (u.sp spSt).toNat 0 = false ∧ bitb (u.sp spSt).toNat 7 = hit ∧
       u.tri.rpt = none
     let same (i : Nat) : Prop := s.num (src + i * z) z = s.num (dst + i * z) z
     let found (i : Nat) : Prop := s.num (src + i * z) z = (s.g rb).toNat % 2 ^ (8 * z)
     bitb st 0 = true → c ≤ r.limit →
     (r.body = .smov ra rb cs cd → bits st 6 4 = 0 → reads cs src → writes cd dst →
       (descends = true ↔ src < dst ∧ dst < src + c * z) →
       ∃ u : State, exec (.smov ra rb cs cd) s = .next u.goOn ∧ ended u false ∧ u.sp spCnt = 0 ∧ u.tri.g = s.tri.g ∧
         (∀ i, i < c * z → u.byte (dst + i) = s.byte (src + i)) ∧
         (∀ a, a < dst ∨ dst + c * z ≤ a → u.byte a = s.byte a)) ∧
     (r.body = .sset rd rb cd down → bits st 6 4 = 1 → writes cd dst →
       ∃ u : State, exec (.sset rd rb cd down) s = .next u.goOn ∧ ended u false ∧ u.sp spCnt = 0 ∧ u.tri.g = s.tri.g ∧
         (∀ i, i < c → u.num (dst + i * z) z = (s.g rd).toNat % 2 ^ (8 * z)) ∧
         (∀ a, a < dst ∨ dst + c * z ≤ a → u.byte a = s.byte a)) ∧
     (r.body = .scmp rd ra rb cs cd down → bits st 6 4 = 2 → descends = false → reads cs src → reads cd dst →
       ((∀ i, i < c → same i) → ∃ u : State, exec (.scmp rd ra rb cs cd down) s = .next u.goOn ∧ ended u false ∧
         u.g rd = (if rd = 0 then 0 else BitVec.allOnes 64) ∧ s.sameBytes u) ∧
       (∀ j, j < c → (∀ i, i < j → same i) → ¬same j → ∃ u : State, exec (.scmp rd ra rb cs cd down) s = .next u.goOn ∧
         ended u true ∧ u.g rd = (if rd = 0 then 0 else BitVec.ofNat 64 ((s.sp spSrc).toNat + j * z)) ∧ s.sameBytes u)) ∧
     (r.body = .sscan rd ra rb cs down → bits st 6 4 = 3 → descends = false → reads cs src →
       ((∀ i, i < c → ¬found i) → ∃ u : State, exec (.sscan rd ra rb cs down) s = .next u.goOn ∧ ended u false ∧
         u.g rd = (if rd = 0 then 0 else BitVec.allOnes 64) ∧ s.sameBytes u) ∧
       (∀ j, j < c → (∀ i, i < j → ¬found i) → found j → ∃ u : State, exec (.sscan rd ra rb cs down) s = .next u.goOn ∧
         ended u true ∧ u.g rd = (if rd = 0 then 0 else BitVec.ofNat 64 ((s.sp spSrc).toNat + j * z)) ∧ s.sameBytes u)))

/-- R281, R282: each CAPOP whose checks pass writes its result and goes on: a copy, null, narrower bounds or permissions, a seal
put on or taken off, an epoch slot, the fetch capability, or a field of a capability into G[ra]. R281, R282: a derivation
whose checks fail raises the fault of the first that fails, with cs before the sealer, and writes no capability register.
Where the spec leaves a point open, the statement follows the model's choices, log entry 58. -/
def Obligations.CapabilityOperations : Prop :=
  (∀ (s : State) (cd cs ck : Fin 16) (ra rb : Fin 32), s.issues = true →
     let c := s.c cs
     let k := s.c ck
     let live (x : Cap) : Prop := x.tag = true ∧ s.currentCap x = true
     let sealer (perm : Nat) : Prop := live k ∧ k.sealv = 0 ∧ k.otype = 6 ∧ k.has perm = true
     let derives (i : Instr) (x : Cap) : Prop := exec i s = .next (s.setC cd x).goOn
     let reads (i : Instr) (v : Nat) : Prop := exec i s = .next (s.setG ra (BitVec.ofNat 64 v)).goOn
     derives (.capmv cd cs) c ∧
     derives (.capnul cd) Cap.null ∧
     (live c → c.sealv = 0 → (s.g ra).toNat + (s.g rb).toNat ≤ c.len → derives (.capsub cd cs ra rb)
       (Cap.make (c.base + (s.g ra).toNat) (s.g rb).toNat c.perm c.otype c.sealv c.epoch c.tag)) ∧
     (live c → c.sealv = 0 → derives (.caprst cd cs ra)
       (Cap.make c.base c.len (Nat.land c.perm (s.g ra).toNat) c.otype c.sealv c.epoch c.tag)) ∧
     (live c → c.sealv = 0 → sealer permSEAL → 1 ≤ k.len → 1 ≤ k.base → k.base ≤ 4095 → derives (.capseal cd cs ck)
       (Cap.make c.base c.len c.perm c.otype k.base c.epoch c.tag)) ∧
     (live c → c.sealv ≠ 0 → sealer permUNSEAL → k.base ≤ c.sealv → c.sealv + 1 ≤ k.base + k.len →
       derives (.capopen cd cs ck) (Cap.make c.base c.len c.perm c.otype 0 c.epoch c.tag)) ∧
     (live c → c.sealv = 0 → c.slot = 0 → derives (.capslot cd cs ra)
       (Cap.make c.base c.len c.perm c.otype c.sealv
         ((s.g ra).toNat % 16 * 4096 + SMap.get (fun _ => 0) s.tri.epr ((s.g ra).toNat % 16) % 4096) c.tag)) ∧
     derives (.capfch cd) s.tri.fcap ∧
     reads (.caprb cs ra) c.base ∧
     reads (.caprl cs ra) c.len ∧
     reads (.caprm cs ra) (c.perm + c.otype * 2 ^ 16 + c.sealv * 2 ^ 20) ∧
     reads (.caprv cs ra) (b2n c.tag + 2 * b2n (s.currentCap c)) ∧
     reads (.capre cs ra) c.epoch) ∧
  (∀ (s : State) (cd cs ck : Fin 16) (ra rb : Fin 32), s.issues = true →
     let c := s.c cs
     let k := s.c ck
     let live (x : Cap) : Prop := x.tag = true ∧ s.currentCap x = true
     let faults (i : Instr) (e : Nat) (r : Fin 16) : Prop := exec i s = .next (s.stop (.check e r 0) s.retAddr)
     (¬live c → faults (.capsub cd cs ra rb) 5 cs ∧ faults (.caprst cd cs ra) 5 cs ∧ faults (.capslot cd cs ra) 5 cs ∧
       faults (.capseal cd cs ck) 5 cs ∧ faults (.capopen cd cs ck) 5 cs) ∧
     (live c → c.sealv ≠ 0 → faults (.capsub cd cs ra rb) 8 cs ∧ faults (.caprst cd cs ra) 8 cs ∧
       faults (.capslot cd cs ra) 8 cs ∧ faults (.capseal cd cs ck) 8 cs) ∧
     (live c → c.sealv = 0 → faults (.capopen cd cs ck) 8 cs) ∧
     (live c → c.sealv = 0 → c.len < (s.g ra).toNat + (s.g rb).toNat → faults (.capsub cd cs ra rb) 6 cs) ∧
     (live c → c.sealv = 0 → c.slot ≠ 0 → faults (.capslot cd cs ra) 7 cs) ∧
     (live c → c.sealv = 0 → ¬live k → faults (.capseal cd cs ck) 5 ck) ∧
     (live c → c.sealv = 0 → live k → (k.sealv ≠ 0 ∨ k.otype ≠ 6) → faults (.capseal cd cs ck) 8 ck) ∧
     (live c → c.sealv = 0 → live k → k.sealv = 0 → k.otype = 6 → k.has permSEAL = false → faults (.capseal cd cs ck) 7 ck) ∧
     (live c → c.sealv = 0 → live k → k.sealv = 0 → k.otype = 6 → k.has permSEAL = true →
       (k.len = 0 ∨ k.base = 0 ∨ 4095 < k.base) → faults (.capseal cd cs ck) 6 ck) ∧
     (live c → c.sealv ≠ 0 → live k → k.sealv = 0 → k.otype = 6 → k.has permUNSEAL = true →
       (c.sealv < k.base ∨ k.base + k.len ≤ c.sealv) → faults (.capopen cd cs ck) 6 ck))

/-- R275, R276: CAPLD and CAPST of a 16-byte granule of sound bytes of Trifle Local. A load keeps the stored tag if C[cb] has
TL; a store writes the bits of C[cd] and its tag; storing a tagged capability needs TS. -/
def Obligations.CapabilityMemory : Prop :=
  ∀ (s : State) (cd cb : Fin 16) (ra : Fin 32) (imm : BitVec 12), s.issues = true →
    let ea : Int := ((s.c cb).base : Int) + (s.g ra).toNat + imm.toInt * 16
    let a : Nat := ea.toNat
    s.inLocal 16 ea →
    (s.allows cb [permR] 16 16 ea → ∃ u : State, exec (.capld cd ra cb imm) s =
      .next (u.setC cd ⟨BitVec.ofNat 128 (s.num a 16), s.tagged a && (s.c cb).has permTL⟩).goOn ∧ s.arbitrated u) ∧
    (s.allows cb (if (s.c cd).tag then [permW, permTS] else [permW]) 16 16 ea →
      ∃ u : State, exec (.capst cd ra cb imm) s = .next u.goOn ∧ u.num a 16 = (s.c cd).v.toNat ∧ u.tagged a = (s.c cd).tag ∧
        (∀ x, x < a ∨ a + 16 ≤ x → u.byte x = s.byte x ∧ u.tagged x = s.tagged x) ∧ u.tri = s.tri ∧ u.regs = s.regs)

/-- R286, R287, R294: a GATE through a valid entry in force pushes a gate frame, clears every C register whose keep bit is 0 and
enters the compartment, its target in X 4 tc later; through an invalid one, or at depth 30 or more, it raises GATE. GRET
pops a gate frame and restores PC, FCAP, C15, ML and COMP from it; without one on top it raises GATE. R299, R300: HRET pops
a handler or escalation frame, restores PC, FCAP, C15, ML, ACTL, COMP and the hold window from it and C0 to C14 with their
tags from the save area, with its target in X 8 tc later; with no such frame on top it raises GATE. HREL ends the current
handler's hold window. Where the spec leaves a point open, the statement follows the model's choices, log entry 55. -/
def Obligations.GatesAndReturns : Prop :=
  (∀ (s : State) (n : Fin 16) (keep : BitVec 15) (fr : EFrame) (rest : List EFrame), s.ready = true →
     let c := s.geIn (2 * n)
     let valid : Prop := c.tag = true ∧ s.currentCap c = true ∧ c.sealv = 0 ∧ c.otype = 0 ∧ c.has permX = true ∧
       c.base % 4 = 0 ∧ 4 ≤ c.len
     let kept (t : State) : Prop := ∀ j, j < 15 → t.c j = if keep.getLsbD j then s.c j else Cap.null
     let rest' (t : State) : Prop := t.tri.g = s.tri.g ∧ t.tri.f = s.tri.f ∧ t.tri.v = s.tri.v ∧ t.tri.p = s.tri.p ∧
       t.tri.fcsr = s.tri.fcsr ∧ s.clockBy t 4 ∧ t.regs = s.regs ∧ s.sameBytes t
     (valid → s.tri.stack.length < 30 → ∃ t : State, exec (.gate n keep) s = .next t ∧ t.tri.pc = BitVec.ofNat 40 c.base ∧
       t.tri.fcap = c ∧ t.c 15 = s.geIn (2 * n + 1) ∧ kept t ∧ t.tri.comp = n.val ∧ rest' t ∧
       t.tri.stack = ⟨.gate, s.tri.pc + 4, s.tri.fcap, s.c 15, s.tri.mlUsed.toNat, s.tri.actl, s.tri.comp, none, none⟩ ::
         s.tri.stack) ∧
     (¬valid ∨ 30 ≤ s.tri.stack.length → exec (.gate n keep) s = .next (s.stop (.check 9 0 0) s.tri.pc)) ∧
     (s.tri.stack = fr :: rest → fr.kind = .gate → ∃ t : State, exec (.gret keep) s = .next t ∧ t.tri.pc = fr.pc ∧
       t.tri.fcap = fr.fcap ∧ t.c 15 = fr.c15 ∧ kept t ∧ t.tri.mlUsed = BitVec.ofNat 64 fr.ml ∧ t.tri.comp = fr.comp ∧
       t.tri.stack = rest ∧ rest' t) ∧
     (s.tri.stack = fr :: rest → fr.kind ≠ .gate → exec (.gret keep) s = .next (s.stop (.check 9 0 0) s.tri.pc)) ∧
     (s.tri.stack = [] → exec (.gret keep) s = .next (s.stop (.check 9 0 0) s.tri.pc))) ∧
  (∀ (s : State) (fr : EFrame) (rest : List EFrame), s.issues = true →
     let a := s.saveArea s.tri.stack.length
     (s.tri.stack = fr :: rest → fr.kind ≠ .gate → fr.src = none → ∃ t : State, exec .hret s = .next t ∧ t.tri.pc = fr.pc ∧
       t.tri.fcap = fr.fcap ∧ t.c 15 = fr.c15 ∧ t.tri.mlUsed = BitVec.ofNat 64 fr.ml ∧ t.tri.actl = fr.actl ∧
       t.tri.comp = fr.comp ∧ t.tri.hold = fr.hold ∧ t.tri.stack = rest ∧ s.clockBy t 8 ∧
       (∀ i, i < 15 → t.c i = ⟨BitVec.ofNat 128 (ofBytes (s.eccRead (a + 16 * i) 16).1), s.tagged (a + 16 * i)⟩) ∧
       t.tri.g = s.tri.g ∧ t.regs = s.regs ∧ s.sameBytes t) ∧
     (s.tri.stack = fr :: rest → fr.kind = .gate → exec .hret s = .next (s.stop (.check 9 0 0) s.retAddr)) ∧
     (s.tri.stack = [] → exec .hret s = .next (s.stop (.check 9 0 0) s.retAddr)) ∧
     exec .hrel s = .next ({ s with tri.hold := none } : State).goOn)

/-- R244, R303, R304: MFSYS reads the system registers as written, and of an unlisted number is ILL; a write through C[cb] needs
it tagged, current and unsealed, with MASK for ML and SYS for the others; a write of HTB, ESB, ML, GE, FCAUSE or FADDR is
read back at once and waits for SYNC to take effect; TSTAT.HOLD_OVR and EPX are cleared by a 1; an epoch register gains 1,
or, at 0xFFF, sets EPX. Where the spec leaves a point open, the statement follows the model's choices, log entry 59. -/
def Obligations.SystemRegisters : Prop :=
  ∀ (s : State) (g : Fin 32) (c cb n : Fin 16) (data : Bool) (k : Nat), s.issues = true →
    let a := s.c cb
    let live : Prop := a.tag = true ∧ s.currentCap a = true ∧ a.sealv = 0 ∧ a.otype ≤ 6
    let sys : Prop := live ∧ a.has permSYS = true
    let v := (s.g g).toNat
    let waits (u : State) (w : CtlWrite) : State := { u with tri.waiting := s.tri.waiting ++ [w] }
    let i : Nat := 2 * n.val + b2n data
    (exec (.mfsys g 0) s = .next (s.setG g s.tri.htb).goOn) ∧
    (exec (.mfsys g 1) s = .next (s.setG g s.tri.esb).goOn) ∧
    (exec (.mfsys g 2) s = .next (s.setG g s.tri.ml).goOn) ∧
    (exec (.mfsys g 3) s = .next (s.setG g (BitVec.ofNat 64 s.tstat)).goOn) ∧
    (exec (.mfsys g 4) s = .next (s.setG g s.tri.fcause).goOn) ∧
    (exec (.mfsys g 5) s = .next (s.setG g s.tri.faddr).goOn) ∧
    (7 ≤ k → k < 0x10 → exec (.mfsys g (BitVec.ofNat 10 k)) s = .next (s.stop .ill s.retAddr) ∧
      exec (.mtsys g cb (BitVec.ofNat 10 k)) s = .next (s.stop .ill s.retAddr)) ∧
    (sys → exec (.mtsys g cb 0) s = .next (waits { s with tri.htb := BitVec.ofNat 64 (Nat.land v 0x1FC000) }
      (.htb (Nat.land v 0x1FC000))).goOn) ∧
    (sys → exec (.mtsys g cb 1) s = .next (waits { s with tri.esb := BitVec.ofNat 64 (Nat.land v 0x1FE000) }
      (.esb (Nat.land v 0x1FE000))).goOn) ∧
    (sys → exec (.mtsys g cb 3) s = .next ({ s with
      tri.holdOvr := s.tri.holdOvr && !bitb v 31, tri.epx := s.tri.epx && !bitb v 28 } : State).goOn) ∧
    (sys → exec (.mtsys g cb 4) s = .next (waits { s with tri.fcause := BitVec.ofNat 64 (Nat.land v 0x3FFFC00F) }
      (.fcause (Nat.land v 0x3FFFC00F))).goOn) ∧
    (sys → exec (.mtsys g cb 5) s = .next (waits { s with tri.faddr := BitVec.ofNat 64 (v % 2 ^ 40) }
      (.faddr (v % 2 ^ 40))).goOn) ∧
    (live → a.has permMASK = true → exec (.mtsys g cb 2) s =
      .next (waits { s with tri.ml := BitVec.ofNat 64 (v % 16) } (.ml (v % 16))).goOn) ∧
    (live → a.has permMASK = false → exec (.mtsys g cb 2) s = .next (s.stop (.check 7 cb 0) s.retAddr)) ∧
    (live → a.has permSYS = false → exec (.mtsys g cb 0) s = .next (s.stop (.check 7 cb 0) s.retAddr)) ∧
    (a.tag = false → exec (.mtsys g cb 0) s = .next (s.stop (.check 5 cb 0) s.retAddr)) ∧
    (sys → 1 ≤ k → k ≤ 15 →
      let e := SMap.get (fun _ => 0) s.tri.eprW k
      (e ≠ 0xFFF → exec (.mtsys g cb (BitVec.ofNat 10 (0x10 + k))) s =
        .next (waits { s with tri.eprW := SMap.set (fun _ => 0) s.tri.eprW k (e + 1) } (.epr k (e + 1))).goOn) ∧
      (e = 0xFFF → exec (.mtsys g cb (BitVec.ofNat 10 (0x10 + k))) s = .next ({ s with tri.epx := true } : State).goOn)) ∧
    (sys → exec (.ctoge c cb n data) s =
      .next (waits { s with tri.ge := SMap.set (fun _ => Cap.null) s.tri.ge i (s.c c) } (.ge i (s.c c))).goOn) ∧
    (sys → exec (.getoc c cb n data) s = .next (s.setC c (s.geRead i)).goOn)

/-- R289 to R294, R304: a fault (here ILL) with a valid entry, ML 0, no escalation open and depth at most 30 saves C0 to C14
with their tags and pushes a handler frame with the instruction's address, records its cause, and enters the handler, whose
first instruction is in X 14 tc later. R292, R294: a fault goes to entry 1 with ESC set when ML is not 0, when its own entry
is invalid (cause 0xF, with the entry) and when the entry stack is at depth 31 (cause 0xE); inside an escalation, at depth
32, or with entry 1 invalid too, it is a core reset with CORE_CAUSE 4. R289: an entry of the handler table is valid exactly
when VALID is 1 and its reserved bits are 0, GE[GI].CODE in force is tagged, current, unsealed, a memory capability with X,
and ENTRY is a multiple of 4 whose word lies in it. Where the spec leaves a point open, the statement follows the model's
choices, log entries 20 and 56. -/
def Obligations.Faults : Prop :=
  (∀ (s : State) (gi a h : Nat), s.ready = true → s.tri.mlUsed = 0 → s.escalated = false → s.tri.stack.length ≤ 30 →
     s.validEntry 2 = some (gi, a, h) →
     let sa := s.saveArea (s.tri.stack.length + 1)
     (∀ g, sa / 8 ≤ g → g ≤ (sa + 239) / 8 → s.sound g) →
     ∃ t : State, exec .ill s = .next t ∧ t.tri.pc = BitVec.ofNat 40 a ∧ t.tri.fcap = s.geIn (2 * gi) ∧
       (∀ j, j < 15 → t.c j = Cap.null) ∧ t.c 15 = s.geIn (2 * gi + 1) ∧ t.tri.comp = gi ∧ t.tri.actl = s.tri.actl ∧
       t.tri.fcause = 2 ∧ t.tri.faddr = 0 ∧ s.clockBy t 14 ∧
       t.tri.hold = (if h = 0 then none else some (t.clk + 16 * h)) ∧
       t.tri.stack = ⟨.handler, s.tri.pc, s.tri.fcap, s.c 15, 0, s.tri.actl, s.tri.comp, s.tri.hold, none⟩ :: s.tri.stack ∧
       (∀ i, i < 15 → t.num (sa + 16 * i) 16 = (s.c i).v.toNat ∧ t.tagged (sa + 16 * i) = (s.c i).tag) ∧
       (∀ x, x < sa ∨ sa + 240 ≤ x → t.byte x = s.byte x) ∧ t.tri.g = s.tri.g ∧ t.tri.f = s.tri.f ∧ t.tri.v = s.tri.v ∧
       t.tri.p = s.tri.p ∧ t.tri.sp = s.tri.sp ∧ t.tri.fcsr = s.tri.fcsr ∧ t.regs = s.regs) ∧
  (∀ (s : State) (gi a h : Nat), s.ready = true →
     let core : Prop := ∃ t : State, exec .ill s = .next t ∧ t.rd RCV_STAT.CORE_CAUSE = 4 ∧ 1 ≤ t.pwr.req
     let esc (cause tentry n : Nat) : Prop := s.validEntry 1 = some (gi, a, h) →
       ∃ t : State, exec .ill s = .next t ∧ t.tri.pc = BitVec.ofNat 40 a ∧ t.tri.fcap = s.geIn (2 * gi) ∧ t.tri.comp = gi ∧
         t.tri.fcause = BitVec.ofNat 64 (cause + 2 ^ 19 + tentry * 2 ^ 20) ∧ t.tri.hold = none ∧ s.clockBy t n ∧
         t.escalated = true ∧ t.tri.stack.length = s.tri.stack.length + 1
     (s.escalated = true → core) ∧
     (32 ≤ s.tri.stack.length → core) ∧
     (s.escalated = false → s.tri.stack.length ≤ 31 → s.tri.mlUsed ≠ 0 → esc 2 0 14) ∧
     (s.escalated = false → s.tri.stack.length = 31 → s.tri.mlUsed = 0 → esc 14 0 14) ∧
     (s.escalated = false → s.tri.stack.length ≤ 30 → s.tri.mlUsed = 0 → s.validEntry 2 = none → esc 15 2 16) ∧
     (s.escalated = false → s.tri.stack.length ≤ 30 → s.tri.mlUsed = 0 → s.validEntry 2 = none → s.validEntry 1 = none → core)) ∧
  (∀ (s : State) (e gi a h : Nat),
     let lo := (s.tableEntry e).1
     let hi := (s.tableEntry e).2
     let c := s.geIn (2 * gi)
     s.validEntry e = some (gi, a, h) ↔
       gi = bits lo 43 40 ∧ a = bits lo 39 0 ∧ h = bits lo 53 44 ∧ bitb lo 63 = true ∧ hi = 0 ∧ bits lo 62 54 = 0 ∧
         c.tag = true ∧ s.currentCap c = true ∧ c.sealv = 0 ∧ c.otype = 0 ∧ c.has permX = true ∧ a % 4 = 0 ∧
         c.base ≤ a ∧ a + 4 ≤ c.base + c.len)

/-- R289 to R299: a fault's entry and the handler's return at once give back the program: PC, FCAP, C0 to C15 with their tags,
ACTL, COMP, the hold window and the entry stack are as before the fault, and every G, F, V and P register. -/
def Obligations.FaultReturnRestores : Prop :=
  ∀ (s t : State) (gi a h : Nat), s.ready = true → s.tri.mlUsed = 0 → s.escalated = false → s.tri.stack.length ≤ 30 →
    s.validEntry 2 = some (gi, a, h) →
    let sa := s.saveArea (s.tri.stack.length + 1)
    (∀ g, sa / 8 ≤ g → g ≤ (sa + 239) / 8 → s.sound g) →
    exec .ill s = .next t → t.issues = true →
    ∃ u : State, exec .hret t = .next u ∧ u.tri.pc = s.tri.pc ∧ u.tri.fcap = s.tri.fcap ∧ (∀ j, j < 16 → u.c j = s.c j) ∧
      u.tri.actl = s.tri.actl ∧ u.tri.comp = s.tri.comp ∧ u.tri.hold = s.tri.hold ∧ u.tri.stack = s.tri.stack ∧
      u.tri.mlUsed = 0 ∧ u.tri.g = s.tri.g ∧ u.tri.f = s.tri.f ∧ u.tri.v = s.tri.v ∧ u.tri.p = s.tri.p ∧
      u.tri.sp = s.tri.sp ∧ u.tri.fcsr = s.tri.fcsr

/-- R280, R233, R290: an instruction fetch is checked against FCAP in order (tagged and current, unsealed memory, X, bounds),
and one that issues but whose fetch fails its checks is not run: its fault is taken with PC as its address. Where the spec
leaves a point open, the statement follows the model's choices, log entry 57. -/
def Obligations.FetchChecks : Prop :=
  ∀ (s : State) (i : Instr) (rd : Fin 32) (f : TFault), i.intDest = some rd → s.fetchFault = some f →
    s.tri.slot = none → s.tri.rpt = none → s.tri.wait = none → s.dbg.halting = false → s.triClocked = true →
    (∀ w ∈ s.tri.mul, s.clk < w.1) → (∀ e ∈ s.tri.hold, s.clk < e) → (∀ x ∈ s.tri.stack, ∀ e ∈ x.hold, s.clk < e) →
    exec i s = .next (s.stop f s.tri.pc) ∧ f.addr = s.tri.pc.toNat ∧ f.fetch = true ∧
    (let c := s.tri.fcap
     let current := c.tag = true ∧ s.currentCap c = true
     (¬current → f.entry = 5) ∧ (current → ¬(c.sealv = 0 ∧ c.otype = 0) → f.entry = 8) ∧
     (current → c.sealv = 0 ∧ c.otype = 0 → c.has permX = false → f.entry = 7) ∧
     (current → c.sealv = 0 ∧ c.otype = 0 → c.has permX = true → s.tri.pc.toNat % 4 = 0 →
       ¬(c.base ≤ s.tri.pc.toNat ∧ s.tri.pc.toNat + 4 ≤ c.base + c.len) → f.entry = 6))

/-- R295 to R300, R308: an interrupt that is presented and eligible at a boundary is acknowledged and its handler entered, with
ACTL one above its priority and a frame that names its source; one that is not eligible is left pending. A hold window's
count ends it and sets HOLD_OVR. -/
def Obligations.Interrupts : Prop :=
  ∀ (s : State) (n p gi a h : Nat), (∀ w ∈ s.tri.mul, s.clk < w.1) → (∀ e ∈ s.tri.hold, s.clk < e) →
    (∀ x ∈ s.tri.stack, ∀ e ∈ x.hold, s.clk < e) →
    (s.present = none → exec .interruptEntry s = .next s) ∧
    (s.present = some (n, p) → (s.interruptible && s.atBoundary && s.eligible p) = false → exec .interruptEntry s = .next s) ∧
    (s.present = some (n, p) → (s.interruptible && s.atBoundary && s.eligible p) = true → s.tri.wait = none →
      s.validEntry (32 + n) = some (gi, a, h) →
      ∃ t : State, exec .interruptEntry s = .next t ∧ t.tri.pc = BitVec.ofNat 40 a ∧ t.tri.fcap = s.geIn (2 * gi) ∧
        t.tri.comp = gi ∧ t.tri.actl = p + 1 ∧ s.clockBy t 14 ∧ (∀ j, j < 15 → t.c j = Cap.null) ∧
        t.tri.stack = ⟨.handler, s.tri.pc, s.tri.fcap, s.c 15, s.tri.mlUsed.toNat, s.tri.actl, s.tri.comp, s.tri.hold, some n⟩ ::
          s.tri.stack ∧ t.tri.g = s.tri.g ∧ t.regs = (s.ackSource n).regs) ∧
    (∀ e, s.tri.hold = some e → s.tri.stack = [] → s.rcv.paused = none → s.rd DBG_STAT.FROST = 0 → s.tri.mul = [] →
      ∃ t : State, exec .holdWindowEnd s = .next t ∧ t.tri.hold = none ∧ t.tri.holdOvr = true ∧ t.clk = e ∧
        t.tri.pc = s.tri.pc ∧ t.tri.g = s.tri.g ∧ t.regs = s.regs ∧ s.sameBytes t)

/-- R313 to R315, R317, R319 to R321: a channel's sender posts (the message, the doorbells, FULL, or COLLIDE when FULL is set
already), its receiver acknowledges (FULL falls and EMPTY rises, nothing when FULL is 0), and its doorbells are rung, by a
device request of Trifle or by a register write of the endpoint; endpoints are set, clearing the staging area of a new
sender, or REFUSED is set while FULL, EMPTY or a doorbell is set, for a code that is no such endpoint, and for a master
other than 0 and 1. A request or a write by another endpoint, and a write without the secure attribute to channels 32 to 63,
is refused. -/
def Obligations.MailboxChannels : Prop :=
  ∀ (s : State) (cb : Fin 16) (g : Fin 32) (m : Fin 14) (sec : Bool) (n : Fin 64) (v : BitVec 32),
    let asked (need : Nat) : Prop := s.asks cb g 3 (need :: if 32 ≤ n.val then [permSEC] else []) ∧ s.devObj g = n.val
    let may (code : Nat) : Prop := (n.val < 32 ∨ sec = true) ∧ endpointOf m.val = some code
    let arg := s.devArg g
    let full := s.isOn (MBX_STAT.FULL n)
    let post (bells : Nat) : List (Fld × Nat) :=
      (upto 16).map (fun w => (MBX_RX.DATA n w, s.rd (MBX_TX.DATA n w))) ++
        [(MBX_DB.DB n, Nat.lor (s.rd (MBX_DB.DB n)) bells), (if full then MBX_STAT.COLLIDE n else MBX_STAT.FULL n, 1)]
    let ack : List (Fld × Nat) := if full then [(MBX_STAT.FULL n, 0), (MBX_STAT.EMPTY n, 1)] else []
    let cfg (x : Nat) : List (Fld × Nat) :=
      if full ∨ s.isOn (MBX_STAT.EMPTY n) ∨ s.isOn (MBX_DB.DB n) ∨ 3 < bits x 3 0 ∨ 2 < bits x 7 4 then
        [(MBX_CFG.REFUSED n, 1)]
      else [(MBX_CFG.SENDER n, bits x 3 0), (MBX_CFG.RECEIVER n, bits x 7 4)] ++
        (if bitb x 31 then [(MBX_CFG.REFUSED n, 0)] else []) ++
        (if s.rd (MBX_CFG.SENDER n) = bits x 3 0 then [] else (upto 16).map (fun w => (MBX_TX.DATA n w, 0)))
    let requests (i : Instr) (l : List (Fld × Nat)) : Prop := ∃ u : State, exec i s = .next u.goOn ∧ s.setsOnly u l
    let writes (i : Instr) (l : List (Fld × Nat)) : Prop :=
      ∃ u : State, exec i s = .next { u with resp := .done } ∧ s.setsOnly u l
    let refused (i : Instr) : Prop := ∃ u : State, exec i s = .next u ∧
      u = { s with regs := u.regs, xw := u.xw, resp := .busError } ∧ s.sets u [(XW_BERR_CNT.COUNT, s.more XW_BERR_CNT.COUNT)]
    (asked permUSE → s.rd (MBX_CFG.SENDER n) = 0 → requests (.post cb g) (post arg)) ∧
    (asked permUSE → s.rd (MBX_CFG.SENDER n) ≠ 0 → exec (.post cb g) s = .next (s.busErr.stop (.bus cb 0) s.retAddr)) ∧
    (asked permUSE → s.rd (MBX_CFG.RECEIVER n) = 0 → requests (.ack cb g) ack) ∧
    (asked permUSE → s.rd (MBX_CFG.RECEIVER n) ≠ 0 → exec (.ack cb g) s = .next (s.busErr.stop (.bus cb 0) s.retAddr)) ∧
    (asked permUSE → requests (.ring cb g) [(MBX_DB.DB n, Nat.lor (s.rd (MBX_DB.DB n)) arg)]) ∧
    (asked permCFG → requests (.setep cb g) (cfg arg)) ∧
    (may (s.rd (MBX_CFG.SENDER n)) → writes (.mbxPost m sec n v) (post v.toNat)) ∧
    (¬may (s.rd (MBX_CFG.SENDER n)) → refused (.mbxPost m sec n v)) ∧
    (may (s.rd (MBX_CFG.RECEIVER n)) → writes (.mbxAck m sec n true) ack ∧ writes (.mbxAck m sec n false) []) ∧
    (¬may (s.rd (MBX_CFG.RECEIVER n)) → ∀ b, refused (.mbxAck m sec n b)) ∧
    (n.val < 32 ∨ sec = true → m.val < 2 → writes (.mbxCfg m sec n v) (cfg v.toNat)) ∧
    (n.val < 32 ∨ sec = true → 2 ≤ m.val → writes (.mbxCfg m sec n v) [(MBX_CFG.REFUSED n, 1)]) ∧
    (32 ≤ n.val → sec = false → refused (.mbxCfg m sec n v))

/-- R279, R284, R285, R319, R326, R389: a device request whose check fails raises the fault of the first that fails, CAP_TAG,
CAP_SEAL, CAP_PERM or CAP_BOUNDS, and a code that its object type does not define is refused with BUS, as is a capability
that the block it names does not yet hold for current. Where the spec leaves a point open, the statement follows the model's
choices, log entries 58 and 63. -/
def Obligations.DeviceRequestChecks : Prop :=
  ∀ (s : State) (i : Instr) (cb : Fin 16) (g : Fin 32) (code : Nat), i.request = some (cb, g, code) → s.issues = true →
    let c := s.c cb
    let obj := s.devObj g
    let live : Prop := c.tag = true ∧ s.currentCap c = true
    let device : Prop := c.sealv = 0 ∧ 1 ≤ c.otype ∧ c.otype ≤ 5
    let allowed : Prop := c.has (if code < 0x200 then permUSE else permCFG) = true ∧
      (c.otype = 2 → code = 0 → c.has permENQ = true) ∧ (c.otype = 2 → code = 1 ∨ code = 2 → c.has permDEQ = true) ∧
      (c.otype = 3 → 32 ≤ obj → c.has permSEC = true)
    let covered : Prop := c.base ≤ obj ∧ obj < c.base + c.len
    let defined : Prop := match c.otype with
      | 1 => code = 0 ∨ code = 1 ∨ code = 0x200
      | 2 => code < 4 ∨ code = 0x200 ∨ code = 0x201
      | 3 => code < 3 ∨ code = 0x200
      | _ => code < 2
    let faults (e : Nat) : Prop := exec i s = .next (s.stop (.check e cb 0) s.retAddr)
    (¬live → faults 5) ∧ (live → ¬device → faults 8) ∧ (live → device → ¬allowed → faults 7) ∧
    (live → device → allowed → ¬covered → faults 6) ∧
    (live → device → allowed → covered → ¬defined ∨ (c.otype ≠ 3 ∧ c.otype ≠ 5 ∧ c.current s.tri.eprUsed = false) →
      exec i s = .next (s.busErr.stop (.bus cb 0) s.retAddr))

/-- R174, R176, R178, R285, R328: a soft entry is armed or cancelled by a device request, by SCH_SOFTCMD or by EVENT. An IDLE
SOFTWARE entry becomes READY, an IDLE QUEUE entry ARMED with its registration at the queue engine, which answers at once
when the queue's depth is met; an entry in another state, and a PERIODIC one, is not changed. A cancel makes an entry that
is not RUNNING IDLE and takes back its registration; that of a RUNNING one is kept until its chain has stopped. An answer
makes an ARMED entry READY, and is otherwise discarded. With no active schedule a request does nothing; one whose entry is
empty or names another chain than the object is refused. -/
def Obligations.SoftEntries : Prop :=
  ∀ (s : State) (list : Fin 16) (entry : Fin 64) (cb : Fin 16) (g : Fin 32),
    let e := 64 * list.val + entry.val
    let arms (t u : State) : Prop :=
      let w := t.softEntry e
      (t.softState e ≠ softIdle ∨ (entryKind w ≠ kindSoftware ∧ entryKind w ≠ kindQueue) → u = t) ∧
      (t.softState e = softIdle → entryKind w = kindSoftware → t.softSets u e softReady) ∧
      (t.softState e = softIdle → entryKind w = kindQueue →
        (∀ x, u.softState x = if x = e then softArmed else t.softState x) ∧
        u = { t with sch.soft := u.sch.soft, que := u.que } ∧
        (t.isOn QUE_CTL.EN = false ∨ entryQueue w ∉ t.que.attached →
          u.que = { t.que with asks := (t.que.asks.filter (fun p => p.1 != e)) ++ [(e, entryQueue w)] }) ∧
        (∀ d, t.queueAt (entryQueue w) d → t.queCached (entryQueue w) = true →
          u.que = { t.que with
            asks := u.que.asks, answers := u.que.answers, cache := t.queCache (entryQueue w) d } ∧
          (max d.thresh 1 ≤ d.depth → u.que.asks = t.que.asks.filter (fun p => p.1 != e) ∧
            u.que.answers = t.que.answers ++ [e]) ∧
          (d.depth < max d.thresh 1 → u.que.asks = (t.que.asks.filter (fun p => p.1 != e)) ++ [(e, entryQueue w)] ∧
            u.que.answers = t.que.answers)))
    let cancels (t u : State) : Prop :=
      (t.softState e ≠ softRunning →
        u = { t with
          sch.soft := u.sch.soft
          que.asks := t.que.asks.filter (fun p => p.1 != e)
          que.answers := t.que.answers.filter (· != e) } ∧
        ∀ x, u.softState x = if x = e then softIdle else t.softState x) ∧
      (t.softState e = softRunning → (∀ r ∈ t.rib.runs, r.entry = some e → r.holds = false ∨ r.phase = .stopping) →
        u = { t with sch.cancels := if t.sch.cancels.elem e then t.sch.cancels else e :: t.sch.cancels })
    let free : Prop := entryQueue (s.softEntry e) ∈ s.que.attached → s.isOn QUE_CTL.EN = true →
      s.queCached (entryQueue (s.softEntry e)) = true ∧ ∃ d, s.queueAt (entryQueue (s.softEntry e)) d
    let quiet : Prop := ∀ r ∈ s.rib.runs, r.entry = some e → r.holds = false ∨ r.phase = .stopping
    let named : Prop := bits (s.devArg g) 9 0 = e
    let fits : Prop := entryKind (s.softEntry e) ≠ 0 ∧ entryChain (s.softEntry e) = s.devObj g
    (s.schActive = true → free → ∃ u : State, exec (.softcmdArm list entry) s = .next u ∧ arms s u) ∧
    (s.schActive = true → quiet → ∃ u : State, exec (.softcmdCancel list entry) s = .next u ∧ cancels s u) ∧
    (s.schActive = false → exec (.softcmdArm list entry) s = .next s ∧ exec (.softcmdCancel list entry) s = .next s) ∧
    (s.schIssues (schInstr 10 (2 * 2 ^ 50 + entry.val * 2 ^ 12 + list.val * 2 ^ 8)) → free →
      ∃ u : State, exec (.eventArm list entry) s = .next u.issued ∧ arms s.atIssue u) ∧
    (s.schIssues (schInstr 10 (3 * 2 ^ 50 + entry.val * 2 ^ 12 + list.val * 2 ^ 8)) → quiet →
      ∃ u : State, exec (.eventCancel list entry) s = .next u.issued ∧ cancels s.atIssue u) ∧
    (s.asks cb g 5 [permUSE] → s.schActive = false → exec (.arm cb g) s = .next s.goOn ∧ exec (.cancel cb g) s = .next s.goOn) ∧
    (s.asks cb g 5 [permUSE] → named → s.schActive = true → fits → free →
      ∃ u : State, exec (.arm cb g) s = .next u.goOn ∧ arms s u) ∧
    (s.asks cb g 5 [permUSE] → named → s.schActive = true → fits → quiet →
      ∃ u : State, exec (.cancel cb g) s = .next u.goOn ∧ cancels s u) ∧
    (s.asks cb g 5 [permUSE] → named → s.schActive = true → ¬fits →
      exec (.arm cb g) s = .next (s.busErr.stop (.bus cb 0) s.retAddr) ∧
      exec (.cancel cb g) s = .next (s.busErr.stop (.bus cb 0) s.retAddr)) ∧
    (s.live = true → e ∈ s.que.answers → s.softState e = softArmed → ∃ u : State,
      exec (.depthMet list entry) s = .next u ∧ (s.softSets { u with que := s.que } e softReady) ∧
      u.que = { s.que with answers := s.que.answers.erase e }) ∧
    (s.live = true → e ∈ s.que.answers → s.softState e ≠ softArmed →
      exec (.depthMet list entry) s = .next { s with que.answers := s.que.answers.erase e }) ∧
    (s.live = true → e ∉ s.que.answers → exec (.depthMet list entry) s = .next s)

/-- R323, R324, R326 to R328: queue operations by device request on the staging slot of Trifle's compartment. ENQ stores the 64
bytes of TX at the ring slot behind the tail and DEPTH rises; DEQ gives the head entry to RX, and DEQ and DROP move HEAD on
and DEPTH down; STAT changes nothing; all of them record RESULT and DEPTH in SLOTSTAT, and one that finds the queue FULL,
EMPTY or OFFLINE is counted and changes no queue. ENQ to an empty queue and every removal put chain time into PROG and clear
STALLED. An ENQ that brings DEPTH to a threshold notifies the queue's group, and answers the registrations whose depth is
met. R324, R326, R329, R330, R335: ATTACH reads a descriptor, refuses one that breaks R323 with BADDESC, and otherwise sets
its enable bit and takes the queue into use; DETACH evicts the descriptor and ends the use. A visit reports a pinned queue
whose progress is, by CT, older than its age limit, once, and leaves another as it is; a read of QUE_STALLQ or QUE_NOTE
takes the oldest entry, and one that finds none clears OVF. Where the spec leaves a point open, the statement follows the
model's choices, log entries 29 and 96. -/
def Obligations.Queues : Prop :=
  (∀ (s : State) (cb : Fin 16) (g : Fin 32) (d : QDesc),
     let q := s.devObj g
     let k := s.tri.comp
     let stat (u : State) (v : Nat) : Prop := u.slotWord k 32 = v
     let counts (extra : List (Fld × Nat)) (u : State) : Prop := s.sets u (extra ++
       [(QUE_MISS_CNT.COUNT, if s.queCached q then s.rd QUE_MISS_CNT.COUNT else s.more QUE_MISS_CNT.COUNT)])
     let same (u : State) : Prop :=
       u = { s with regs := u.regs, credit := u.credit, xw.turn := u.xw.turn, que.cache := u.que.cache, que.slots := u.que.slots }
     let slotsBut (u : State) (ws : Nat → Bool) : Prop :=
       ∀ x, (∀ w, w < 64 → ws w = true → x ≠ 64 * k + w) →
         SMap.get (fun _ => (0 : Reg32)) u.que.slots x = SMap.get (fun _ => (0 : Reg32)) s.que.slots x
     let only32 (w : Nat) : Bool := w == 32
     let rx (w : Nat) : Bool := w == 32 || (decide (16 ≤ w) && decide (w < 32))
     let desc (u : State) : QDesc := qdescOf (u.bytes (s.queDescAddr q) 32)
     let atDesc (x : Nat) : Prop := s.queDescAddr q ≤ x ∧ x < s.queDescAddr q + 32
     let tail := d.slotAddr ((d.head + d.depth) % d.n)
     let atTail (x : Nat) : Prop := tail ≤ x ∧ x < tail + 64
     let moved (u : State) : Prop :=
       u = { s with mem := u.mem, syn := u.syn, tags := u.tags, credit := u.credit, xw.turn := u.xw.turn, regs := u.regs, que := u.que } ∧
       u.que = { s.que with
         cache := u.que.cache, pinned := u.que.pinned, slots := u.que.slots, notes := u.que.notes
         noteOvf := u.que.noteOvf, asks := u.que.asks, answers := u.que.answers } ∧
       (d.age = 0 → u.que.pinned = s.que.pinned.filter (· != q)) ∧
       counts [(QUE_OPS_CNT.COUNT, s.more QUE_OPS_CNT.COUNT), (QUE_STAT.PINFULL, u.rd QUE_STAT.PINFULL)] u ∧
       (d.age = 0 → u.rd QUE_STAT.PINFULL = s.rd QUE_STAT.PINFULL)
     let progress (u : State) (b : Bool) : Prop :=
       (desc u).dw0 = d.dw0 ∧ (desc u).dw2 = d.dw2 ∧ (desc u).stalled = (!b && d.stalled) ∧
         (desc u).dw3 = if b then s.now % 2 ^ 64 else d.dw3
     let taken (u : State) : Prop :=
       moved u ∧ progress u true ∧ (desc u).head = (d.head + 1) % d.n ∧ (desc u).depth = d.depth - 1 ∧
       (∀ x, ¬atDesc x → u.byte x = s.byte x) ∧ (∀ x, ¬atDesc x → u.tagged x = s.tagged x) ∧ stat u (d.depth - 1) ∧
       u.que.notes = s.que.notes ∧ u.que.noteOvf = s.que.noteOvf ∧ u.que.asks = s.que.asks ∧ u.que.answers = s.que.answers
     (s.asks cb g 2 [permUSE, permENQ] → s.queueAt q d → d.depth < d.n → ∃ u : State, exec (.enq cb g) s = .next u.goOn ∧
       moved u ∧ progress u (decide (d.depth = 0)) ∧ (desc u).head = d.head ∧ (desc u).depth = d.depth + 1 ∧
       u.bytes tail 64 = s.slotTx k ∧ (∀ x, ¬atDesc x → ¬atTail x → u.byte x = s.byte x) ∧
       (∀ x, ¬atDesc x → ¬atTail x → u.tagged x = s.tagged x) ∧ stat u (d.depth + 1) ∧ slotsBut u only32 ∧
       (1 ≤ d.thresh → d.thresh = d.depth + 1 → 1 ≤ d.ngrp →
         (s.que.notes.filter (fun p => p.1 == d.ngrp - 1)).length < 64 → u.que.notes = s.que.notes ++ [(d.ngrp - 1, q)]) ∧
       (d.thresh ≠ d.depth + 1 ∨ d.ngrp = 0 → u.que.notes = s.que.notes ∧ u.que.noteOvf = s.que.noteOvf) ∧
       (d.thresh ≤ d.depth + 1 → u.que.asks = s.que.asks.filter (fun p => p.2 != q) ∧
         u.que.answers = s.que.answers ++ (s.que.asks.filter (fun p => p.2 == q)).map (·.1)) ∧
       (d.depth + 1 < d.thresh → u.que.asks = s.que.asks ∧ u.que.answers = s.que.answers)) ∧
     (s.asks cb g 2 [permUSE, permENQ] → s.queueAt q d → d.depth = d.n → ∃ u : State, exec (.enq cb g) s = .next u.goOn ∧
       same u ∧ counts [(QUE_REFUSE_CNT.COUNT, s.more QUE_REFUSE_CNT.COUNT)] u ∧ stat u (2 ^ 29 + d.depth) ∧ slotsBut u only32) ∧
     (s.asks cb g 2 [permUSE, permDEQ] → s.queueAt q d → 0 < d.depth →
       (∃ u : State, exec (.deq cb g) s = .next u.goOn ∧ taken u ∧ slotsBut u rx ∧
         ∀ w, w < 16 → u.slotWord k (16 + w) = s.num (d.slotAddr d.head + 4 * w) 4) ∧
       (∃ u : State, exec (.drop cb g) s = .next u.goOn ∧ taken u ∧ slotsBut u only32)) ∧
     (s.asks cb g 2 [permUSE, permDEQ] → s.queueAt q d → d.depth = 0 →
       let empty (i : Instr) : Prop := ∃ u : State, exec i s = .next u.goOn ∧ same u ∧
         counts [(QUE_REFUSE_CNT.COUNT, s.more QUE_REFUSE_CNT.COUNT)] u ∧ stat u (2 * 2 ^ 29) ∧ slotsBut u only32
       empty (.deq cb g) ∧ empty (.drop cb g)) ∧
     (s.asks cb g 2 [permUSE] → s.queueAt q d → ∃ u : State, exec (.stat cb g) s = .next u.goOn ∧ same u ∧
       counts [(QUE_OPS_CNT.COUNT, s.more QUE_OPS_CNT.COUNT)] u ∧ stat u d.depth ∧ slotsBut u only32) ∧
     (s.isOn QUE_CTL.EN = false ∨ q ∉ s.que.attached →
       let offline (i : Instr) (l : List (Fld × Nat)) : Prop := ∃ u : State, exec i s = .next u.goOn ∧
         u = { s with regs := u.regs, que.slots := u.que.slots } ∧ s.sets u l ∧ stat u (3 * 2 ^ 29) ∧ slotsBut u only32
       let refused : List (Fld × Nat) := [(QUE_REFUSE_CNT.COUNT, s.more QUE_REFUSE_CNT.COUNT)]
       (s.asks cb g 2 [permUSE, permENQ] → offline (.enq cb g) refused) ∧
       (s.asks cb g 2 [permUSE, permDEQ] → offline (.deq cb g) refused ∧ offline (.drop cb g) refused) ∧
       (s.asks cb g 2 [permUSE] → offline (.stat cb g) []) ∧
       (s.asks cb g 2 [permCFG] → offline (.detach cb g) []))) ∧
  (∀ (s : State) (cb : Fin 16) (g : Fin 32) (d : QDesc) (n : BitVec 20) (f : Fin 3),
     let q := s.devObj g
     let k := s.tri.comp
     let a := s.queDescAddr q
     let here (l : List Nat) : List Nat := if l.elem q then l else l ++ [q]
     let ops : Fld × Nat := (QUE_OPS_CNT.COUNT, s.more QUE_OPS_CNT.COUNT)
     let quiet : Prop := s.bulk.redir = [] ∧ s.bulk.ueGran = [] ∧ (∀ y, bulkBase / 8 ≤ y → y < bulkEnd / 8 → s.sound y) ∧
       s.que.cache.length ≤ 4096
     let slots (u : State) : Prop := ∀ x, x ≠ 64 * k + 32 →
       SMap.get (fun _ => (0 : Reg32)) u.que.slots x = SMap.get (fun _ => (0 : Reg32)) s.que.slots x
     (s.asks cb g 2 [permCFG] → s.isOn QUE_CTL.EN = true → inBulk a 32 = true → quiet → qdescOf (s.bytes a 32) = d →
       d.ok = true → d.age = 0 → ∃ u : State, exec (.attach cb g) s = .next u.goOn ∧
         u = { s with mem := u.mem, syn := u.syn, tags := u.tags, credit := u.credit, xw.turn := u.xw.turn, regs := u.regs, que := u.que } ∧
         s.sets u [(QUE_MISS_CNT.COUNT, s.more QUE_MISS_CNT.COUNT), ops] ∧
         (qdescOf (u.bytes a 32)).enable = true ∧
         qdescOf (u.bytes a 32) = { d with dw0 := (qdescOf (u.bytes a 32)).dw0 } ∧
         (∀ i, i ≠ 42 → bitb (qdescOf (u.bytes a 32)).dw0 i = bitb d.dw0 i) ∧
         (∀ x, x < a ∨ a + 32 ≤ x → u.byte x = s.byte x) ∧
         u.que.attached = here s.que.attached ∧ u.que.pinned = s.que.pinned.filter (· != q) ∧ (q, qdescOf (u.bytes a 32)) ∈ u.que.cache ∧
         u.slotWord k 32 = d.depth ∧ slots u) ∧
     (s.asks cb g 2 [permCFG] → s.isOn QUE_CTL.EN = true → inBulk a 32 = true → quiet → qdescOf (s.bytes a 32) = d →
       d.ok = false → ∃ u : State, exec (.attach cb g) s = .next u.goOn ∧
         u = { s with credit := u.credit, xw.turn := u.xw.turn, regs := u.regs, que.cache := u.que.cache, que.slots := u.que.slots } ∧
         s.sets u [(QUE_MISS_CNT.COUNT, s.more QUE_MISS_CNT.COUNT)] ∧ u.queCached q = false ∧ u.slotWord k 32 = 4 * 2 ^ 29 ∧ slots u) ∧
     (s.asks cb g 2 [permCFG] → s.isOn QUE_CTL.EN = false → ∃ u : State, exec (.attach cb g) s = .next u.goOn ∧
       u = { s with que.slots := u.que.slots } ∧ u.slotWord k 32 = 3 * 2 ^ 29 ∧ slots u) ∧
     (s.asks cb g 2 [permCFG] → s.queueAt q d → ∃ u : State, exec (.detach cb g) s = .next u.goOn ∧
       u = { s with
         regs := u.regs, credit := u.credit, xw.turn := u.xw.turn
         que.slots := u.que.slots, que.attached := s.que.attached.filter (· != q)
         que.cache := u.que.cache, que.pinned := s.que.pinned.filter (· != q) } ∧ u.queCached q = false ∧
       s.sets u [ops, (QUE_MISS_CNT.COUNT, if s.queCached q then s.rd QUE_MISS_CNT.COUNT else s.more QUE_MISS_CNT.COUNT)] ∧
       u.slotWord k 32 = d.depth ∧ slots u) ∧
     (s.live = true → n.toNat ∉ s.que.pinned → exec (.stallVisit n) s = .next s) ∧
     (s.live = true → n.toNat ∈ s.que.pinned → s.frozen 4 = false → s.queueAt n.toNat d → s.queCached n.toNat = true →
       let b := s.queDescAddr n.toNat
       let cache (u : State) : Prop := u.que.cache = s.queCache n.toNat (qdescOf (u.bytes b 32))
       let may : Prop := d.stalled = false ∧ d.age ≠ 0
       let due : Prop := may ∧ d.dw3 + 1000 * d.age + 6 < s.now
       (due → ∃ u : State, exec (.stallVisit n) s = .next u ∧
         u = { s with
           mem := u.mem, syn := u.syn, tags := u.tags, credit := u.credit, xw.turn := u.xw.turn, free := u.free, que := u.que } ∧
         (qdescOf (u.bytes b 32)).stalled = true ∧ qdescOf (u.bytes b 32) = { d with dw1 := (qdescOf (u.bytes b 32)).dw1 } ∧
         (∀ i, i ≠ 33 → bitb (qdescOf (u.bytes b 32)).dw1 i = bitb d.dw1 i) ∧
         (∀ x, x < b ∨ b + 32 ≤ x → u.byte x = s.byte x) ∧
         (s.que.stalls.length < 64 → cache u ∧ u.que = { s.que with cache := u.que.cache, stalls := s.que.stalls ++ [n.toNat] }) ∧
         (64 ≤ s.que.stalls.length → cache u ∧ u.que = { s.que with cache := u.que.cache, stallOvf := true })) ∧
       (¬may ∨ s.now < d.dw3 + 1000 * d.age + 2 → ∃ u : State, exec (.stallVisit n) s = .next u ∧ cache u ∧
         u = { s with free := u.free, que.cache := u.que.cache })) ∧
     (∀ x rest, s.que.stalls = x :: rest → exec .queStallq s = .next { s with
       que.stalls := rest, resp := .data (toBytes 4 (2 ^ 31 + b2n s.que.stallOvf * 2 ^ 30 + x)) }) ∧
     (s.que.stalls = [] → exec .queStallq s = .next { s with
       que.stallOvf := false, resp := .data (toBytes 4 (b2n s.que.stallOvf * 2 ^ 30)) }) ∧
     (∀ l x rest, s.que.notes = l ++ (f.val, x) :: rest → (∀ y ∈ l, y.1 ≠ f.val) → exec (.queNote f) s = .next { s with
       que.notes := l ++ rest, resp := .data (toBytes 4 (2 ^ 31 + b2n (s.que.noteOvf.elem f.val) * 2 ^ 30 + x)) }) ∧
     ((∀ y ∈ s.que.notes, y.1 ≠ f.val) → exec (.queNote f) s = .next { s with
       que.noteOvf := s.que.noteOvf.filter (· != f.val)
       resp := .data (toBytes 4 (b2n (s.que.noteOvf.elem f.val) * 2 ^ 30)) }))

/-- R368, R384, R389: IDENT makes a DRIVE or HUB port send IDENT_REQ next, and is refused for another role; CLRCNT clears a
port's frame and error counters; SETCFG writes FLD_PCFGk_A, in force from the next round boundary, or sets CFGERR when R368
refuses the value. -/
def Obligations.FieldRequests : Prop :=
  ∀ (s : State) (cb : Fin 16) (g : Fin 32) (b : Fin 64) (k : Fin 16), s.devObj g = 16 * b.val + k.val →
    let v := s.devArg g % 2 ^ 17
    let requests (i : Instr) (l : List (Fld × Nat)) : Prop := ∃ u : State, exec i s = .next u.goOn ∧ s.setsOnly u l
    (s.asks cb g 1 [permUSE] → s.role b k = roleDrive ∨ s.role b k = roleHub → ∃ u : State,
      exec (.ident cb g) s = .next u.goOn ∧ u = { s with fld.ports := u.fld.ports } ∧
      ∀ x y, y < 16 → u.port1 x y = if x = b.val ∧ y = k.val then { s.port1 b k with ident := true } else s.port1 x y) ∧
    (s.asks cb g 1 [permUSE] → s.role b k ≠ roleDrive → s.role b k ≠ roleHub →
      exec (.ident cb g) s = .next (s.busErr.stop (.bus cb 0) s.retAddr)) ∧
    (s.asks cb g 1 [permUSE] → requests (.clrcnt cb g) [(FLD_PCNT.COUNT b k, 0), (FLD_PERR.COUNT b k, 0)]) ∧
    (s.asks cb g 1 [permCFG] → s.pcfgOk b k v = true →
      requests (.setcfg cb g) [(⟨FLD_PCFG_A.addr b k, 31, 0⟩, v), (FLD_STAT.CFGPEND b, 1)]) ∧
    (s.asks cb g 1 [permCFG] → s.pcfgOk b k v = false → requests (.setcfg cb g) [(FLD_STAT.CFGERR b, 1)])

/-- R389 to R392: START checks the descriptor, then the source's and the destination's capability; a transfer whose checks pass
sets BUSY, any other ends at once with ERR, its CAUSE and the destination's address; a mover that is BUSY refuses. A
transfer of one 64-byte row from Bulk to Bulk stores the row, adds 64 to MV_BYTES and sets DONE; STOP before a block has
completed ends it with CAUSE 8 at the first block, and does nothing on an idle mover. Where the spec leaves a point open,
the statement follows the model's choices, log entry 27. -/
def Obligations.Movers : Prop :=
  ∀ (s : State) (cb : Fin 16) (g : Fin 32) (n : Fin 8),
    let dn := s.devArg g % 256
    let ds := (upto 4).map (s.mvDw dn)
    let asked : Prop := s.asks cb g 4 [permUSE] ∧ s.devObj g = n.val
    let failed (cause a : Nat) : List (Fld × Nat) := [(MV_STAT.ERR n, 1), (MV_STAT.CAUSE n, cause), (MV_STAT.BUSY n, 0),
      (MV_ERRADDR_LO.ADDR_LO n, a % 2 ^ 32), (MV_ERRADDR_HI.ADDR_HI n, a / 2 ^ 32)]
    let begun : List (Fld × Nat) := [(MV_STAT.DESC n, dn), (MV_STAT.DONE n, 0)]
    let idle : Prop := s.rd (MV_STAT.BUSY n) = 0 ∧ s.mvRun n = none
    (asked → s.rd (MV_STAT.BUSY n) = 1 → exec (.start cb g) s = .next (s.busErr.stop (.bus cb 0) s.retAddr)) ∧
    (asked → idle → mvDescOk ds = true → s.mvCap ds false = none → s.mvCap ds true = none →
      ∃ u : State, exec (.start cb g) s = .next u.goOn ∧ s.sets u (begun ++ [(MV_STAT.ERR n, 0), (MV_STAT.BUSY n, 1)]) ∧
        u = { s with regs := u.regs, mv.runs := s.mv.runs ++ [⟨n, ds, false, s.time⟩] }) ∧
    (asked → idle → mvDescOk ds = false →
      ∃ u : State, exec (.start cb g) s = .next u.goOn ∧ s.setsOnly u (begun ++ failed 7 (mvDst ds))) ∧
    (∀ c, asked → idle → mvDescOk ds = true → s.mvCap ds false = some c ∨ (s.mvCap ds false = none ∧ s.mvCap ds true = some c) →
      ∃ u : State, exec (.start cb g) s = .next u.goOn ∧ s.setsOnly u (begun ++ failed c (mvDst ds))) ∧
    (∀ j, asked → s.mvRun n = none → exec (.stop cb g j) s = .next s.goOn) ∧
    (∀ r, asked → s.mvRun n = some r → 64 ≤ mvRowLen r.desc → 1 ≤ mvRows r.desc →
      ∃ u : State, exec (.stop cb g 0) s = .next u.goOn ∧ s.sets u (failed 8 (mvDst r.desc)) ∧
        u = { s with regs := u.regs, mv.runs := s.mv.runs.filter (fun x => x.mover != n.val) }) ∧
    (s.live = true → s.mvRun n = none → exec (.moverComplete n) s = .next s) ∧
    (∀ r, s.live = true → s.mvRun n = some r → mvRows r.desc = 1 → mvRowLen r.desc = 64 →
      mvSrc r.desc % 64 = 0 → mvDst r.desc % 64 = 0 → inBulk (mvSrc r.desc) 64 = true → inBulk (mvDst r.desc) 64 = true →
      s.bulk.redir = [] → s.bulk.ueGran = [] → (∀ y, bulkBase / 8 ≤ y → y < bulkEnd / 8 → s.sound y) →
      r.byMove = true ∨ s.frozen 3 = false →
      ∃ u : State, exec (.moverComplete n) s = .next u ∧
        u = { s with
          mem := u.mem, syn := u.syn, tags := u.tags, credit := u.credit, xw.turn := u.xw.turn, regs := u.regs
          mv.runs := s.mv.runs.filter (fun x => x.mover != n.val) } ∧
        s.sets u [(MV_STAT.BUSY n, 0), (MV_STAT.DONE n, 1),
          (MV_BYTES.COUNT n, min (s.rd (MV_BYTES.COUNT n) + 64) (2 ^ 32 - 1))] ∧
        u.bytes (mvDst r.desc) 64 = s.bytes (mvSrc r.desc) 64 ∧
        (∀ x, x < mvDst r.desc ∨ mvDst r.desc + 64 ≤ x → u.byte x = s.byte x) ∧
        ∀ x, u.tagged x = (s.tagged x && !(decide (mvDst r.desc ≤ x) && decide (x < mvDst r.desc + 64))))

/-- R305 to R307, R311: in Run a change of a line is seen by the controller, and a rise from a level it saw low sets the
source's pending bit; a mark's pulse is taken with it; a write to ICU_UNPEND clears the bits written 1; in Idle an enabled
Watcher slot latches a rise of the line of its source, and AOW_WAKE shows it. Where the spec leaves a point open, the
statement follows the model's choices, log entry 66. -/
def Obligations.InterruptSources : Prop :=
  ∀ (s : State) (n : Fin 512) (k : Fin 16) (mask : BitVec 32) (slot : Fin 32),
    let runs : Prop := s.live = true ∧ s.pwr.asserted = 0
    let mark : Prop := 80 ≤ n.val ∧ n.val < 96
    let src := s.rd (AOW_SEL.SOURCE slot)
    let saw (u : State) : Prop := ∀ i, bitb u.icu.seen i =
      if i = n.val then s.sourceLine n && (decide (n.val < 80) || decide (96 ≤ n.val)) else bitb s.icu.seen i
    (runs → s.sourceLine n = true → sourceOk n = true → bitb s.icu.seen n = false ∨ mark →
      ∃ u : State, exec (.sourceEdge n) s = .next u ∧
      s.sets u [(⟨ICU_PEND.addr (n.val / 32), n.val % 32, n.val % 32⟩, 1)] ∧
      u = { s with regs := u.regs, icu.marks := u.icu.marks, icu.seen := u.icu.seen } ∧ saw u ∧
      (¬mark → u.icu.marks = s.icu.marks) ∧
      (∀ i, mark → bitb u.icu.marks i = (bitb s.icu.marks i && decide (i ≠ n.val - 80)))) ∧
    (runs → ¬mark → s.sourceLine n = false ∨ bitb s.icu.seen n = true → ∃ u : State, exec (.sourceEdge n) s = .next u ∧
      u = { s with icu.seen := u.icu.seen } ∧ saw u) ∧
    (¬runs → exec (.sourceEdge n) s = .next s) ∧
    (∃ u : State, exec (.unpend k mask) s = .next u ∧ s.sets u [(ICU_PEND.PEND k, u.rd (ICU_PEND.PEND k))] ∧
      u = { s with regs := u.regs, icu.seen := u.icu.seen } ∧
      (∀ i, i < 32 → bitb (u.rd (ICU_PEND.PEND k)) i = (bitb (s.rd (ICU_PEND.PEND k)) i && !mask.getLsbD i)) ∧
      ∀ i, bitb u.icu.seen i = if 32 * k.val ≤ i ∧ i < 32 * k.val + 32 ∧ mask.getLsbD (i - 32 * k.val) = true then s.sourceLine i
        else bitb s.icu.seen i) ∧
    (s.pwr.state = .idle → s.isOn (AOW_SEL.EN slot) = true →       s.sourceLine src = true → bitb s.icu.seen src = false →
      ∃ u : State, exec (.slotLatch slot) s = .next u ∧
      s.sets u [(⟨AOW_WAKE.addr, slot.val, slot.val⟩, 1)] ∧ u = { s with regs := u.regs, icu.latch := u.icu.latch } ∧
      ∀ i, bitb u.icu.latch i = (bitb s.icu.latch i || decide (i = slot.val))) ∧
    (s.pwr.state ≠ .idle ∨ s.isOn (AOW_SEL.EN slot) = false ∨ s.sourceLine src = false ∨ bitb s.icu.seen src = true →
      exec (.slotLatch slot) s = .next s)

/-- R163 to R165, R267: a sequencer instruction whose word stands at the index issues, has its effect, and the next one issues
one rc later; a command of another instruction does nothing: NOP; WAIT, until its rcr or recording LATE_WAIT; RESERVE; PTAB;
MARK with its stamp, interrupt and offers; a doorbell and a send-event to Trifle (which, where no EVENT stands at the index,
the Chain Controller or the Archive processor sends); SKIPR by the round number; ROUNDEND, after which the round's program
is over. Where the spec leaves a point open, the statement follows the model's choices, log entries 4, 61 and 83. -/
def Obligations.SequencerInstructions : Prop :=
  ∀ (s : State) (cyc : BitVec 21) (table : Fin 4) (n : Fin 16) (bells : BitVec 32) (chan : Fin 64) (skip : BitVec 12)
    (m : BitVec 15) (k : BitVec 4),
    let t := s.atIssue
    let rc := t.time / 10 * 10
    let is (op fields : Nat) : Prop := s.schIssues (schInstr op fields)
    let skips : Prop := is 11 (skip.toNat * 2 ^ 19 + m.toNat * 2 ^ 4 + k.toNat)
    let at_ := s.sch.progStart + 10 * cyc.toNat
    let mark : List (Fld × Nat) := [(SCH_MARK_LO.CT n, rc / 16 % 2 ^ 32), (SCH_MARK_HI.CT n, rc / 16 / 2 ^ 32 % 2 ^ 32)]
    let marks (u : State) (irq : Bool) : Prop := ∀ i, bitb u.icu.marks i = (bitb s.icu.marks i || (irq && decide (i = n.val)))
    let trig (c : Nat) : Prop := s.rd (CAM_CTL.TSRC c) = 2 ∧ s.rd (CAM_CTL.TSEL c) = n.val
    let tlate : List (Fld × Nat) := ((upto 8).filter (fun c => decide (trig c) &&
      decide (rc / 16 + s.rd (CAM_TRGDLY.TRGDLY c) < t.now))).map (fun c => (CAM_STAT.TLATE c, 1))
    (is 1 0 → exec .nop s = .next t.issued) ∧
    (is 2 cyc.toNat → rc ≤ at_ → exec (.wait cyc) s = .next { t with sch.nextRc := max t.sch.nextRc at_ }.issued) ∧
    (is 2 cyc.toNat → at_ < rc → ∃ u : State, exec (.wait cyc) s = .next u.issued ∧ (t.breachAt 3).setsOnly u (t.breaches 3)) ∧
    (is 5 cyc.toNat → exec (.reserve cyc) s = .next { t with sch.reserves := s.sch.reserves ++ [(rc + 10, at_)] }.issued) ∧
    (is 8 table.val → exec (.ptab table) s = .next { t with lat.ptabSel := some (table.val, rc) }.issued) ∧
    (∀ irq, is 9 (b2n irq * 2 ^ 4 + n.val) → ∃ u : State, exec (.mark false irq n) s = .next u.issued ∧ t.sets u mark ∧ marks u irq ∧
      u = { t with regs := u.regs, icu.marks := u.icu.marks }) ∧
    (∀ irq, is 9 (2 ^ 5 + b2n irq * 2 ^ 4 + n.val) → (∀ b, b < 64 → s.isOn (FLD_CTL.EN b) = false) →
      ∃ u : State, exec (.mark true irq n) s = .next u.issued ∧
      t.sets u (mark ++ tlate) ∧ marks u irq ∧ u = { t with regs := u.regs, icu.marks := u.icu.marks, cam.ports := u.cam.ports } ∧
      ∀ c, c < 8 → u.cam1 c = if trig c then
        { s.cam1 c with trig := (s.cam1 c).trig ++ [rc / 16 + s.rd (CAM_TRGDLY.TRGDLY c)] } else s.cam1 c) ∧
    (is 10 (bells.toNat * 2 ^ 18 + chan.val) → ∃ u : State, exec (.eventDoorbell bells chan) s = .next u.issued ∧
      t.setsOnly u [(MBX_DB.DB chan, Nat.lor (s.rd (MBX_DB.DB chan)) bells.toNat)]) ∧
    (is 10 (2 ^ 50) → s.tri.wait = none → exec .sendEvent s = .next { t with tri.ev := true }.issued) ∧
    (s.schAt (schInstr 10 (2 ^ 50)) = false → s.sends 1 = true ∨ s.sends 2 = true → s.tri.wait = none →
      exec .sendEvent s = .next { s with tri.ev := true }) ∧
    (∀ w, s.schIssues w → w ≠ schInstr 10 (2 ^ 50) → s.sends 1 = false → s.sends 2 = false → exec .sendEvent s = .next s) ∧
    (skips → s.roundNo % 2 ^ k.toNat = m.toNat → exec (.skipr skip m k) s = .next t.issued) ∧
    (skips → s.roundNo % 2 ^ k.toNat ≠ m.toNat →
      exec (.skipr skip m k) s = .next (t.wr SCH_PC.PC (t.rd SCH_PC.PC + skip.toNat)).issued) ∧
    (is 12 0 → exec .roundend s = .next { t with sch.ended := true }.issued) ∧
    (∀ w, s.schIssues w → w ≠ schInstr 1 0 → exec .nop s = .next s)

/-- R80, R107, R165, R172, R175, R391: LAUNCH starts its chain on its strands, waits at its index while one of them is held, and
is refused with BUSY when the chain runs already; SLOT opens a soft slot, or does nothing at its end; EXCH starts an
exchange at a block that is idle, or records EXCH_LATE at one that is busy or powered down, and its deadline is watched;
MOVE starts an idle mover, or records MOVE_BUSY. Where the spec leaves a point open, the statement follows the model's
choices, log entries 4, 74, 82 and 83. -/
def Obligations.SequencerStarts : Prop :=
  ∀ (s : State) (strands : BitVec 3) (dr : BitVec 2) (chain : BitVec 12) (lead : BitVec 10) (list : Fin 16) (cyc : BitVec 21) (b : Fin 64)
    (cnt : BitVec 7) (d : BitVec 8) (n : Fin 8),
    let t := s.atIssue
    let rc := t.time / 10 * 10
    let is (op fields : Nat) : Prop := s.schIssues (schInstr op fields)
    let exch (count : Nat) : Prop := is 6 (cyc.toNat * 2 ^ 16 + dr.toNat * 2 ^ 13 + count * 2 ^ 6 + b.val)
    let slots : Prop := is 4 (lead.toNat * 2 ^ 28 + list.val * 2 ^ 24 + strands.toNat * 2 ^ 21 + cyc.toNat) ∧
      ∀ o ∈ s.sch.slots, Nat.land o.strands strands.toNat = 0 ∧ o.strands ≠ 0
    let moves : Prop := is 7 (d.toNat * 2 ^ 4 + n.val)
    let powered : Prop := bitb (s.rd PWR_DOWN.FGRP) (b.val / 8) = false
    let m := strands.toNat
    let c := chain.toNat
    let at_ := s.sch.progStart + 10 * cyc.toNat
    let launches : Prop := is 3 (strands.toNat * 2 ^ 12 + chain.toNat) ∧ s.retired = 0
    let late (u : State) : Prop := u.sch = { (t.breachAt 4).sch with exch := s.sch.exch ++ [(at_, [])] }
    let ds := (upto 4).map (s.mvDw d.toNat)
    (launches → Nat.land m s.heldStrands ≠ 0 →
      exec (.launch strands chain) s = .next { t with sch.held := some (m, c) }) ∧
    (launches → Nat.land m s.heldStrands = 0 → (∀ r ∈ s.rib.runs, r.chain ≠ c) →
      ∃ u : State, exec (.launch strands chain) s = .next u.issued ∧
        u = { t with regs := u.regs, rib.runs := s.rib.runs ++ [RibRun.launch c m false none false] } ∧
        t.sets u ((RIB_STAT.BUSY, Nat.lor s.heldStrands m % 8) ::
          (upto 3).map (fun k => ((⟨RIB_STRAND.addr k, 31, 0⟩ : Fld), u.rdReg (RIB_STRAND.addr k)))) ∧
        ∀ k, k < 3 → bitb m k = true → u.rdReg (RIB_STRAND.addr k) = c + (popcount 3 m - 1) * 2 ^ 28 + 2 ^ 31) ∧
    (launches → Nat.land m s.heldStrands = 0 → (∃ r ∈ s.rib.runs, r.chain = c) →
      ∃ u : State, exec (.launch strands chain) s = .next u.issued ∧ t.setsOnly u
        (if s.rd RIB_FAULT_INFO.VALID = 1 then [(RIB_FAULT_INFO.OVF, 1)]
          else [((⟨RIB_FAULT_INFO.addr, 31, 0⟩ : Fld), c + m * 2 ^ 20 + 7 * 2 ^ 23 + 10 * 2 ^ 26 + 2 ^ 31), (⟨RIB_FAULT_IDX.addr, 31, 0⟩, 0),
            (⟨RIB_FAULT_ADDR.addr, 31, 0⟩, 0)])) ∧
    (slots → at_ ≤ rc → exec (.slot lead list strands cyc) s = .next t.issued) ∧
    (slots → rc < at_ → exec (.slot lead list strands cyc) s =
      .next { t with sch.slots := s.sch.slots ++ [(⟨list.val, m, rc + 10, at_, lead.toNat⟩ : SoftSlot)] }.issued) ∧
    (exch 1 → powered → s.isOn (FLD_CTL.EN b) = true → s.fldX b = none →
      ∃ u : State, exec (.exch cyc dr 1 b) s = .next u.issued ∧
        u.sch = { t.sch with exch := s.sch.exch ++ [(at_, [(b.val, t.time)])] } ∧ t.sets u [(FLD_STAT.XBUSY b, 1)] ∧
        u = { t with regs := u.regs, sch := u.sch, fld.xfers := u.fld.xfers } ∧
        ∃ x : FldX, u.fld.xfers = s.fld.xfers ++ [x] ∧ x.block = b.val ∧ x.start = t.time ∧ x.both = (dr == 3) ∧ x.out = bitb dr.toNat 1 ∧
          x.stage = (if bitb dr.toNat 0 then .inbound else .outbound) ∧ x.ue = false ∧
          x.maps = (upto 8).map (fun i => (true, s.eff ⟨FLD_XIN_A.addr b i, 31, 0⟩, s.eff ⟨FLD_XIN_B.addr b i, 31, 0⟩)) ++
            (upto 8).map (fun i => (false, s.eff ⟨FLD_XOUT_A.addr b i, 31, 0⟩, s.eff ⟨FLD_XOUT_B.addr b i, 31, 0⟩))) ∧
    (exch 1 → powered → s.isOn (FLD_CTL.EN b) = true → s.fldX b ≠ none →
      ∃ u : State, exec (.exch cyc dr 1 b) s = .next u.issued ∧ late u ∧ u = { t with regs := u.regs, sch := u.sch } ∧
        t.sets u ((FLD_STAT.XLATE b, 1) :: t.breaches 4)) ∧
    (exch 1 → ¬powered →
      ∃ u : State, exec (.exch cyc dr 1 b) s = .next u.issued ∧ late u ∧ u = { t with regs := u.regs, sch := u.sch } ∧
        t.sets u (t.breaches 4)) ∧
    (exch cnt.toNat → (∀ i, b.val ≤ i → i < min 64 (b.val + cnt.toNat) →
        bitb (s.rd PWR_DOWN.FGRP) (i / 8) = false ∧ s.isOn (FLD_CTL.EN i) = false) →
      exec (.exch cyc dr cnt b) s =
        .next { t with sch.exch := s.sch.exch ++ [(at_, [])] }.issued) ∧
    (moves → s.rd (MV_STAT.BUSY n) = 1 → ∃ u : State, exec (.move d n) s = .next u.issued ∧ (t.breachAt 5).setsOnly u (t.breaches 5)) ∧
    (moves → s.rd (MV_STAT.BUSY n) = 0 → mvDescOk ds = true → s.mvCap ds false = none → s.mvCap ds true = none →
      ∃ u : State, exec (.move d n) s = .next u.issued ∧ t.sets u [(MV_STAT.DESC n, d.toNat), (MV_STAT.DONE n, 0),
        (MV_STAT.ERR n, 0), (MV_STAT.BUSY n, 1)] ∧
        u = { t with regs := u.regs, mv.runs := s.mv.runs ++ [(⟨n, ds, true, t.time⟩ : MvRun)] })

/-- R157, R158, R162, R166, R178, R186: RUN set starts a check pass, and its end the active schedule, with RL, PLEN, the
Watcher's limit and no entry armed but those of ARMINIT, or CKERR and the log; RUN cleared stops the sequencer at the next
boundary, or at once while it has not started, and ends a swap that is pending; STOPPED is entered once no chain runs and no
write-back waits. Where the spec leaves a point open, the statement follows the model's choices, log entry 4. -/
def Obligations.SequencerRuns : Prop :=
  ∀ (s : State),
    let buf := s.rd SCH_STAT.ACT
    let rl := s.headRl buf
    let plen := s.headPlen buf
    let st := s.rd SCH_STAT.STATE
    let noSwap : Prop := s.sch.swap = none
    (st = schStopped → ∃ u : State, exec .runSet s = .next u ∧ s.sets u [(SCH_CTL.RUN, 1), (SCH_STAT.STATE, schCheck)] ∧
      u = { s with regs := u.regs, lat.copyHold := none }) ∧
    (st ≠ schStopped → ∃ u : State, exec .runSet s = .next u ∧ s.setsOnly u [(SCH_CTL.RUN, 1)]) ∧
    (st = schRunning → noSwap → ∃ u : State, exec .runClear s = .next u ∧
      s.sets u [(SCH_CTL.RUN, 0), (SCH_STAT.STATE, schStopping)] ∧ u = { s with regs := u.regs, sch.closing := false }) ∧
    (st = schCheck ∨ st = schStart → noSwap → ∃ u : State, exec .runClear s = .next u ∧
      s.setsOnly u [(SCH_CTL.RUN, 0), (SCH_STAT.STATE, schStopped)]) ∧
    (st = schStopped ∨ st = schStopping → noSwap →
      ∃ u : State, exec .runClear s = .next u ∧ s.setsOnly u [(SCH_CTL.RUN, 0)]) ∧
    (∀ w, s.sch.swap = some w → st = schRunning → ∃ u : State, exec .runClear s = .next u ∧
      s.sets u [(SCH_CTL.RUN, 0), (SCH_STAT.STATE, schStopping), (SCH_SWAP_STAT.PEND, 0), (SCH_SWAP_STAT.ERR, 1),
        (SCH_SWAP_STAT.ECODE, 5)] ∧ u = { s with regs := u.regs, sch.swap := none, sch.closing := false }) ∧
    (s.live = true → st ≠ schCheck → exec .checkPass s = .next s) ∧
    (s.live = true → st = schCheck → s.checkFrom buf rl plen (1032 + plen) 0 = none →
      (∀ e, e < 1024 → entryArmInit (s.softEntry e) = false) → ∃ u : State, exec .checkPass s = .next u ∧
        let t := s.pass (10 * (1032 + plen))
        s.sets u [(SCH_STAT.STATE, schStart), (SCH_STAT.ACTV, 1), (SCH_STAT.RL, rl), (AOW_WLIM.W, u.rd AOW_WLIM.W)] ∧
        u.rd AOW_WLIM.W = ((5 * (u.roundLen / 16) + 999) / 1000) % 2 ^ 16 ∧
        u = { t with
          regs := u.regs, que.asks := [], que.answers := []
          sch := { s.sch with
            plen := plen, closing := false, soft := [], cancels := [], retryNext := []
            roundStart := t.time / u.roundLen * u.roundLen } }) ∧
    (∀ k c, s.live = true → st = schCheck → s.checkFrom buf rl plen (1032 + plen) 0 = some (k, c) →
      ∃ u : State, exec .checkPass s = .next u ∧
        s.sets u ([(SCH_STAT.STATE, schStopped), (SCH_CTL.RUN, 0), (SCH_STAT.CKERR, 1)] ++
          if s.rd SCH_CHECK_INFO.VALID = 1 then []
          else [((⟨SCH_CHECK_INFO.addr, 31, 0⟩ : Fld), (k + c * 2 ^ 24 + buf * 2 ^ 30 + 2 ^ 31) % 2 ^ 32)]) ∧
        u = { s.pass (10 * (k + 1)) with regs := u.regs }) ∧
    (s.live = true → st = schStopping → s.sch.closing = true → s.rib.runs = [] → noSwap →
      ∃ u : State, exec .stoppedEntry s = .next u ∧ s.setsOnly u [(SCH_STAT.STATE, schStopped)]) ∧
    (s.live = true → st ≠ schStopping ∨ s.sch.closing = false ∨ s.rib.runs ≠ [] → exec .stoppedEntry s = .next s)

/-- R153, R157, R163, R182, R278: at a round boundary, the first multiple of the round length that has not passed, the
boundary's instant and the round number are kept and the epoch registers reach the blocks; STOPPED goes on, START becomes
RUNNING with its program at index 0, a round that has ended is followed by the next, one that has not is an overrun, and
STOPPING ends its rounds. R184, R185: GO latches what is to be swapped, or ends at once with FWIMG for an image that is not
in usable Bulk or too long, and is ignored while PEND is 1; step 1 checks the idle buffer, step 2 fixes the instant, a whole
round of both schedules that has not passed, or ends the swap; step 3 comes before the last boundary; ABORT ends a swap that
has not reached it. A swap takes place only at a boundary at or after its instant, in STOPPED too. Where the spec leaves a
point open, the statement follows the model's choices, log entries 4 and 82. -/
def Obligations.RoundsAndSwaps : Prop :=
  (∀ (s : State), s.live = true → s.sch.swap = none → s.sch.held = none → (∀ r ∈ s.mv.runs, r.mover < 8) →
     let t := s.nextBoundary
     let st := s.rd SCH_STAT.STATE
     (t % s.roundLen = 0 ∧ s.time ≤ t ∧ s.sch.roundStart < t) ∧
     ∃ u : State, exec .roundBoundary s = .next u ∧ u.time = t ∧ u.sch.roundStart = t ∧ u.tri.eprUsed = s.tri.epr ∧
       u.roundNo = t / s.roundLen % 2 ^ 64 ∧
       (st = schStopped → u.rd SCH_STAT.STATE = schStopped) ∧
       (st = schStart ∨ (st = schRunning ∧ s.sch.ended = true) → u.rd SCH_STAT.STATE = schRunning ∧ u.rd SCH_PC.PC = 0 ∧
         u.sch.ended = false ∧ u.sch.progStart = t ∧ u.sch.nextRc = t) ∧
       (st = schRunning → s.sch.ended = false → u.rd SCH_STAT.STATE = schRunning ∧ u.rd SCH_PC.PC = s.rd SCH_PC.PC ∧
         u.sch.progStart = s.sch.progStart ∧ u.rd SCH_SKIP_CNT.COUNT = s.more SCH_SKIP_CNT.COUNT) ∧
       (st = schStopping → u.rd SCH_STAT.STATE = schStopping ∧ u.sch.closing = true ∧ u.sch.ended = true)) ∧
  (∀ (s : State) (sched cct fw : Bool),
     let base := s.rd SCH_FW_BASE_LO.ADDR_LO * 4096 + s.rd SCH_FW_BASE_HI.ADDR_HI * 2 ^ 32
     let len := s.rd SCH_FW_LEN.LEN
     let ctl : List (Fld × Nat) := [(SCH_SWAP_CTL.SCHED, b2n sched), (SCH_SWAP_CTL.CCT, b2n cct), (SCH_SWAP_CTL.FW, b2n fw)]
     let ended (e : Nat) : List (Fld × Nat) := [(SCH_SWAP_STAT.PEND, 0), (SCH_SWAP_STAT.ERR, 1), (SCH_SWAP_STAT.ECODE, e)]
     let idle := 1 - s.rd SCH_STAT.ACT
     let cur := s.roundLen / 16
     let at_ := s.rd2 SCH_SWAP_AT_LO.AT SCH_SWAP_AT_HI.AT
     let st := s.rd SCH_STAT.STATE
     (s.rd SCH_SWAP_STAT.PEND = 1 → exec (.swapRequest sched cct fw) s = .next s) ∧
     (s.rd SCH_SWAP_STAT.PEND = 0 → fw = false ∨ (inBulk base len = true ∧ len ≤ 0x200000) →
       ∃ u : State, exec (.swapRequest sched cct fw) s = .next u ∧
         s.sets u (ctl ++ [(SCH_SWAP_STAT.PEND, 1), (SCH_SWAP_STAT.ECODE, 0)]) ∧
         u = { s with regs := u.regs, sch.swap := some ⟨1, 0, sched, cct, fw⟩ }) ∧
     (s.rd SCH_SWAP_STAT.PEND = 0 → fw = true → inBulk base len = false ∨ 0x200000 < len →
       ∃ u : State, exec (.swapRequest sched cct fw) s = .next u ∧ s.sets u (ctl ++ ended 4) ∧
         u = { s with regs := u.regs, sch.swap := none }) ∧
     (s.sch.swap = none → exec .abort s = .next s) ∧
     (∀ w, s.sch.swap = some w → w.stage < 3 → ∃ u : State, exec .abort s = .next u ∧ s.sets u (ended 5) ∧
       u = { s with regs := u.regs, sch.swap := none }) ∧
     (∀ w, s.sch.swap = some w → 3 ≤ w.stage → exec .abort s = .next s) ∧
     (∀ w, s.live = true → s.sch.swap = some w → w.stage = 1 → w.sched = false → at_ = 0 →
       exec .swapCheck s = .next { s with sch.swap := some { w with stage := 2, t := (s.time / s.roundLen + 1) * cur } }) ∧
     (∀ w, s.live = true → s.sch.swap = some w → w.stage = 1 → w.sched = false → at_ ≠ 0 → at_ % cur = 0 → s.time < 16 * at_ →
       exec .swapCheck s = .next { s with sch.swap := some { w with stage := 2, t := at_ } }) ∧
     (∀ w, s.live = true → s.sch.swap = some w → w.stage = 1 → w.sched = false → at_ ≠ 0 →
       at_ % cur ≠ 0 ∨ 16 * at_ ≤ s.time → ∃ u : State, exec .swapCheck s = .next u ∧ s.sets u (ended 2) ∧
         u = { s with regs := u.regs, sch.swap := none }) ∧
     (∀ w, s.live = true → s.sch.swap = some w → w.stage = 1 → w.sched = true →
       s.checkFrom idle (s.headRl idle) (s.headPlen idle) (1032 + s.headPlen idle) 0 = none →
       at_ ≠ 0 → at_ % cur = 0 → at_ % (125 * s.headRl idle) = 0 → s.time + 10 * (1032 + s.headPlen idle) < 16 * at_ →
       exec .swapCheck s = .next { s.pass (10 * (1032 + s.headPlen idle)) with
         sch.swap := some { w with stage := 2, t := at_ } }) ∧
     (∀ w, s.live = true → s.sch.swap = some w → w.stage = 2 → 16 * w.t ≤ s.sch.roundStart + s.roundLen → w.cct = false →
       exec .swapCommit s = .next { s with sch.swap := some { w with stage := 3 } }) ∧
     (∀ w, s.live = true → s.sch.swap = some w → w.stage = 2 → 16 * w.t ≤ s.sch.roundStart + s.roundLen → w.cct = true →
       s.rd RIB_CCT_CTL.BUSY = 0 → s.rib.loaded = true → ∃ u : State, exec .swapCommit s = .next u ∧
         s.sets u [(RIB_CCT_CTL.CPEND, 1)] ∧ u = { s with regs := u.regs, sch.swap := some { w with stage := 3 } }) ∧
     (∀ w, s.live = true → s.sch.swap = some w → w.stage = 2 → 16 * w.t ≤ s.sch.roundStart + s.roundLen → w.cct = true →
       s.rd RIB_CCT_CTL.BUSY = 1 ∨ s.rib.loaded = false → ∃ u : State, exec .swapCommit s = .next u ∧ s.sets u (ended 3) ∧
         u = { s with regs := u.regs, sch.swap := none }) ∧
     (s.live = true → s.swapDue s.nextBoundary = false → exec .swap s = .next s) ∧
     (∀ w, s.live = true → st = schStopped ∨ (st = schRunning ∧ s.sch.ended = true) → s.sch.swap = some w → 2 ≤ w.stage →
       16 * w.t ≤ s.nextBoundary → w.cct = false → w.fw = false → s.sch.held = none →
       (∀ r ∈ s.mv.runs, r.mover < 8) → w.sched = false ∨ s.nextBoundary % (2000 * s.headRl idle) = 0 →
       ∃ u : State, exec .swap s = .next u ∧ u.sch.swap = none ∧ u.rd SCH_SWAP_STAT.PEND = 0 ∧ u.rd SCH_SWAP_STAT.DONE = 1 ∧
         u.rd SCH_STAT.STATE = st ∧ (st = schRunning → u.rd SCH_PC.PC = 0) ∧
         u.rd SCH_STAT.ACT = (if w.sched then idle else s.rd SCH_STAT.ACT) ∧
         (w.sched = true → u.rd SCH_STAT.RL = s.headRl idle ∧ u.sch.plen = s.headPlen idle)))

/-- R175, R177: while a soft slot is open (here the only one of its list), one decision per rc launches the first READY entry,
in list order, whose chain is not running and whose strands the slot has free, and its LEAD stops it; at END − LEAD the
slot's chains are asked to preempt, at END it closes. R179, R180: in an open reserve the oldest waiting retry starts,
counted, once its strands are free; at its end what waits is recorded. R172: at its deadline an exchange that it watches and
that is still at work is recorded. Where the spec leaves a point open, the statement follows the model's choices, log
entries 4 and 82. -/
def Obligations.SoftSlots : Prop :=
  ∀ (s : State) (list : Fin 16), s.live = true → s.sch.held = none →
    let e (i : Nat) := 64 * list.val + i
    let chain (i : Nat) := entryChain (s.softEntry (e i))
    let free (o : SoftSlot) := o.strands - Nat.land o.strands (Nat.lor s.heldStrands s.retired)
    let fits (o : SoftSlot) (i : Nat) : Prop := s.softState (e i) = softReady ∧ (∀ r ∈ s.rib.runs, r.chain ≠ chain i) ∧
      s.softStrands (s.peekDesc (chain i)) (free o) ≠ none
    let on (o : SoftSlot) (r : RibRun) : Bool := r.soft && r.holds && Nat.land r.strands o.strands != 0
    let at_ (t : Nat) : State := s.until t
    let only (o : SoftSlot) : Prop := s.sch.slots.filter (fun x => x.list == list.val) = [o]
    let decided (o : SoftSlot) : State := (s.until o.openAt).pass 10
    let open_ (o : SoftSlot) : Prop := (decided o).time + 10 * o.lead < o.endAt
    ((∀ o ∈ s.sch.slots, o.list ≠ list.val) → exec (.launchDecision list) s = .next s ∧ exec (.preempt list) s = .next s ∧
      exec (.slotEnd list) s = .next s) ∧
    (∀ o, only o →
      (¬open_ o → exec (.launchDecision list) s = .next (decided o)) ∧
      (open_ o → (∀ i, i < 64 → ¬fits o i) → exec (.launchDecision list) s = .next (decided o)) ∧
      (∀ i m, open_ o → i < 64 → fits o i → (∀ j, j < i → ¬fits o j) →
        s.softStrands (s.peekDesc (chain i)) (free o) = some m → m ≠ 0 →
        ∃ u : State, exec (.launchDecision list) s = .next u ∧ (decided o).launches u
          (RibRun.launch (chain i) m true (some (e i)) (s.sch.retryNext.elem (e i))) ∧
          u.sch.retryNext = s.sch.retryNext.filter (· != e i) ∧
          ∀ x, u.softState x = if x = e i then softRunning else s.softState x) ∧
      (∀ i, open_ o → i < 64 → fits o i → (∀ j, j < i → ¬fits o j) →
        s.softStrands (s.peekDesc (chain i)) (free o) = some 0 →
        ∃ u : State, exec (.launchDecision list) s = .next u ∧ u.rib = s.rib ∧ u.softState (e i) = softIdle ∧
          u.time = (decided o).time) ∧
      ((s.rib.runs.map (·.chain)).Nodup → (∀ r ∈ s.rib.runs, on o r = true → r.phase ≠ .running) →
        exec (.preempt list) s = .next { at_ (o.endAt - 10 * o.lead) with
          rib.runs := s.rib.runs.map (fun r => if on o r then r.askPreempt else r) }) ∧
      ((∀ r ∈ s.rib.runs, on o r = false) → exec (.slotEnd list) s =
        .next { at_ o.endAt with sch.slots := s.sch.slots.filter (· != o) }) ∧
      (∀ r x, s.rib.runs = [r] → on o r = true → r.phase = .launched → r.entry = some x → x ∉ s.sch.cancels →
        ∃ u : State, exec (.slotEnd list) s = .next u ∧ u.rib.runs = [] ∧ u.sch.slots = s.sch.slots.filter (· != o) ∧
          u.rd RIB_STAT.BUSY = 0 ∧ s.regsBut u strandRegs ∧
          ∀ y, u.softState y = if y = x then softReady else s.softState y)) ∧
    (s.sch.retryq = [] ∨ (∀ x ∈ s.sch.reserves, x.2 ≤ s.time) → exec .retry s = .next s) ∧
    (∀ from_ t c k m rest, s.sch.reserves = [(from_, t)] → s.sch.retryq = (c, k) :: rest → s.time < t →
      (∀ r ∈ s.rib.runs, r.chain ≠ c ∧ (r.retry && !r.soft && r.holds) = false) →
      s.hardStrands c k = some m → m ≠ 0 → Nat.land m s.heldStrands = 0 → ∃ u : State, exec .retry s = .next u ∧
        u = { at_ from_ with
          regs := u.regs, sch.retryq := rest, rib.runs := s.rib.runs ++ [RibRun.launch c m false none true] } ∧
        s.regsBut u (SCH_RETRY_CNT.COUNT.addr :: strandRegs) ∧ u.rd SCH_RETRY_CNT.COUNT = s.more SCH_RETRY_CNT.COUNT) ∧
    (s.sch.reserves = [] → exec .reserveEnd s = .next s) ∧
    (∀ w, s.sch.reserves = [w] → s.sch.retryq = [] → exec .reserveEnd s = .next { at_ w.2 with sch.reserves := [] }) ∧
    (∀ w, s.sch.reserves = [w] → s.sch.retryq ≠ [] → ∃ u : State, exec .reserveEnd s = .next u ∧
      State.setsOnly { (at_ w.2).breachAt 7 with sch.reserves := [], sch.retryq := [] } u ((at_ w.2).breaches 7)) ∧
    (s.sch.exch = [] → exec .exchDeadline s = .next s) ∧
    (∀ t l, s.sch.exch = [(t, l)] → (∀ p ∈ l, ∀ x, s.fldX p.1 = some x → x.start ≠ p.2) →
      exec .exchDeadline s = .next { at_ t with sch.exch := [] }) ∧
    (∀ t p x, s.sch.exch = [(t, [p])] → s.fldX p.1 = some x → x.start = p.2 → ∃ u : State, exec .exchDeadline s = .next u ∧
      State.setsOnly { (at_ t).breachAt 4 with sch.exch := [] } u ((at_ t).breaches 4))

/-- R371 to R374: an inbound exchange swaps the inbound banks, the new filling bank reading as the settled one with FRESH 0, and
writes its mapped words to the Lattice; an outbound one reads its mapped words into the next outbound bank, or, at an
uncorrectable word, sets UE and leaves the bank; a pending bank that is overwritten sets OVWR. Complete, it frees the block,
raises XDONE and makes a good outbound bank pending. R375 to R380, R383, R384: a DRIVE or HUB port due in this round sends
its DOWN or HUB_DOWN frame at its offset, or the IDENT_REQ that was asked for, and awaits the answer. A good answer in time
is counted, sets RXOK and is written into the filling bank with its round trip; a bad one sets BAD, none at all TIMEOUT,
each as a port error. Where the spec leaves a point open, the statement follows the model's choices, log entry 41. -/
def Obligations.FieldFrames : Prop :=
  (∀ (s : State) (b : Fin 64), s.live = true → s.memWf = true → s.rd LAT_SPARE_COPY.ACTIVE = 0 →
     let staged (x : FldX) (st : FldStage) : Prop := s.fldX b = some x ∧ x.stage = st
     let left (x : FldX) : List FldX := s.fld.xfers.map (fun y => if y.block == b.val then x else y)
     let isFresh (o : Nat) : Bool := (upto 16).any (fun k => o == planeOff 2 k + 3)
     let bank (i o : Nat) : Nat := bankAt b i o
     let swapped (u : State) : Prop := s.sets u [(FLD_STAT.ISET b, 1 - s.rd (FLD_STAT.ISET b))] ∧ ∀ o, o < 4096 →
       u.byte (bank (s.settled b) o) = (if isFresh o then s.byte (bank (s.filling b) o) &&& 0x7F#8 else s.byte (bank (s.filling b) o))
     let ovwr : List (Fld × Nat) := if s.rd (FLD_STAT.OPEND b) = 1 then [(FLD_STAT.OPEND b, 0), (FLD_STAT.OVWR b, 1)] else []
     (s.fldX b = none → exec (.inboundExchange b) s = .next s ∧ exec (.outboundExchange b) s = .next s ∧
       exec (.exchangeComplete b) s = .next s) ∧
     (∀ x, staged x .outbound → exec (.inboundExchange b) s = .next s ∧ exec (.exchangeComplete b) s = .next s) ∧
     (∀ x, staged x .inbound → exec (.outboundExchange b) s = .next s ∧ exec (.exchangeComplete b) s = .next s) ∧
     (∀ x, staged x .moved → exec (.inboundExchange b) s = .next s ∧ exec (.outboundExchange b) s = .next s) ∧
     (∀ x, staged x .inbound → (∀ k, k < 16 → s.role b k ≠ roleCapture ∧ s.role b k ≠ roleUart) → x.entries true = ([], false) →
       ∃ u : State, exec (.inboundExchange b) s = .next u ∧ swapped u ∧ s.bytesBut u [(bank (s.settled b) 0, 4096)] ∧
         u = { s with regs := u.regs, mem := u.mem, fld.xfers := left { x with stage := if x.both then .outbound else .moved } }) ∧
     (∀ x m, staged x .inbound → (∀ k, k < 16 → s.role b k ≠ roleCapture ∧ s.role b k ≠ roleUart) →
       x.entries true = ([m], false) → bits m.1 15 8 = 1 → s.soundWord (bits m.2 21 0) →
       ∃ u : State, exec (.inboundExchange b) s = .next u ∧ swapped u ∧
         u.word (bits m.2 21 0) = s.num (bank (s.filling b) (32 * bits m.1 6 0)) 32 ∧
         s.bytesBut u [(bank (s.settled b) 0, 4096), (8 * s.wordGran (bits m.2 21 0) 0, 32)] ∧
         u = { s with
           regs := u.regs, mem := u.mem, syn := u.syn, lat.fixes := u.lat.fixes
           fld.xfers := left { x with stage := if x.both then .outbound else .moved } }) ∧
     (∀ x, staged x .outbound → x.entries false = ([], false) →
       ∃ u : State, exec (.outboundExchange b) s = .next u ∧ s.sets u ovwr ∧
         u = { s with regs := u.regs, fld.xfers := left { x with stage := .moved, ue := false } }) ∧
     (∀ x m, staged x .outbound → x.entries false = ([m], false) → bits m.1 15 8 = 1 → s.soundWord (bits m.2 21 0) →
       ∃ u : State, exec (.outboundExchange b) s = .next u ∧ s.sets u ovwr ∧
         u.num (bank (s.outNext b) (32 * bits m.1 6 0)) 32 = s.word (bits m.2 21 0) ∧
         s.bytesBut u [(bank (s.outNext b) (32 * bits m.1 6 0), 32)] ∧
         u = { s with regs := u.regs, mem := u.mem, fld.xfers := left { x with stage := .moved, ue := false } }) ∧
     (∀ x m, staged x .outbound → x.entries false = ([m], false) → bits m.1 15 8 = 1 → (s.latPeek (bits m.2 21 0) 0).2.1 ≠ 0 →
       ∃ u : State, exec (.outboundExchange b) s = .next u ∧ u.rd (FLD_STAT.UE b) = 1 ∧ u.rd (FLD_IRQ.UE b) = 1 ∧ u.mem = s.mem ∧
         u.fld.xfers = left { x with stage := .moved, ue := true }) ∧
     (∀ x, staged x .moved → ∃ u : State, exec (.exchangeComplete b) s = .next u ∧
       u = { s with
         regs := u.regs, fld.xfers := s.fld.xfers.filter (fun y => y.block != b.val), fld.pendAt := u.fld.pendAt } ∧
       s.sets u ([(FLD_STAT.XBUSY b, 0), (FLD_IRQ.XDONE b, 1)] ++
         if x.out && !x.ue then [(FLD_STAT.OPEND b, 1)] else []) ∧
       ((x.out && !x.ue) = true → SMap.get (fun _ => 0) u.fld.pendAt b.val = s.now))) ∧
  (∀ (s : State) (b : Fin 64) (k : Fin 16) (frame : List Byte) (codeErr : Bool) (delay : BitVec 12), s.live = true →
     let p := s.port1 b k
     let start := p.bound + s.txOff b k
     let bt := bitTime (s.eff (FLD_PCFG_A.RATE b k))
     let sent (u : State) (fr : List Byte) : Prop :=
       u = { s.until (16 * start) with
         fld.ports := u.fld.ports
         out := s.out ++ [(⟨.field, 16 * b.val + k.val, max s.time (16 * start), fr⟩ : Out)] } ∧
       s.portSets u b k { p with
         seq := (p.seq + 1) % 256, due := false, ident := false, waiting := true, eof := start + (fr.length + 6) * 10 * bt }
     let hub (txT : Nat) : List Byte := toBytes 8 txT ++ toBytes 8 (p.bound + s.eff (FLD_APPLY.APPLY b)) ++
       toBytes 4 (s.roundLen / 16) ++ toBytes 4 p.cdly ++ toBytes 4 (s.outPlane b 0 k) ++ toBytes 4 (s.outPlane b 1 k)
     let plane (f : Nat) : Nat := bankAt b (s.filling b) (planeOff f k)
     let area : Nat := bankAt b (s.filling b) (areaOff k)
     let at_ := p.eof + delay.toNat
     let arrives (u : State) (l : List (Fld × Nat)) (q : PortS) : Prop := s.sets u l ∧ s.portSets u b k q ∧
       u = { s.until (16 * at_) with regs := u.regs, mem := u.mem, fld.ports := u.fld.ports }
     let good : List (Fld × Nat) := [(FLD_PSTAT.RXOK b k, 1), (FLD_PSTAT.BAD b k, 0), (FLD_PSTAT.TIMEOUT b k, 0),
       (FLD_PCNT.COUNT b k, s.more (FLD_PCNT.COUNT b k))]
     let bad (i : Instr) : Prop := ∃ u : State, exec i s = .next u ∧ u.mem = s.mem ∧
       arrives u ([(FLD_PSTAT.BAD b k, 1), (FLD_PSTAT.RXOK b k, 0)] ++ s.portErrs b k) { p with waiting := false }
     let trip (turn : Nat) : PortS :=
       { p with waiting := false, got := true, trips := ((delay.toNat - turn) :: p.trips).take 8 }
     let f (pl : List Byte) (o n : Nat) : Nat := ofBytes ((pl.drop o).take n)
     let awaits (role : Nat) : Prop := s.portAwaits b k role delay.toNat = true
     (s.portDue b k roleDrive = false → exec (.down b k) s = .next s) ∧
     (s.portDue b k roleDrive = true → p.ident = false → ∃ u : State, exec (.down b k) s = .next u ∧
       sent u (xagFrame 1 p.seq (s.downPayload b k (start + 40 * bt)))) ∧
     (s.portDue b k roleDrive = true → p.ident = true → ∃ u : State, exec (.down b k) s = .next u ∧ sent u (xagFrame 5 p.seq [])) ∧
     (s.portDue b k roleHub = false → exec (.hubDown b k) s = .next s) ∧
     (s.portDue b k roleHub = true → p.ident = false → ∃ u : State, exec (.hubDown b k) s = .next u ∧
       sent u (xagFrame 3 p.seq (hub (start + 40 * bt)))) ∧
     (s.portDue b k roleHub = true → p.ident = true → ∃ u : State, exec (.hubDown b k) s = .next u ∧ sent u (xagFrame 5 p.seq [])) ∧
     (¬awaits roleDrive → exec (.up b k frame codeErr delay) s = .next s) ∧
     (∀ pl, awaits roleDrive → xagParse frame codeErr = some (2, pl) → pl.length = 28 →
       ∃ u : State, exec (.up b k frame codeErr delay) s = .next u ∧
         arrives u (good ++ [(FLD_PSTAT.PEER b k, f pl 20 4 % 2 ^ 16)]) (trip (f pl 24 4)) ∧
         u.num (plane 0) 4 = f pl 8 4 ∧ u.num (plane 1) 4 = f pl 12 4 ∧ u.num (plane 2) 4 = 2 ^ 31 + f pl 20 4 % 2 ^ 16 ∧
         u.num (plane 3) 4 = f pl 16 4 ∧ u.bytes area 16 = pl.take 8 ++ toBytes 8 at_ ∧
         s.bytesBut u [(plane 0, 4), (plane 1, 4), (plane 2, 4), (plane 3, 4), (area, 16)]) ∧
     (awaits roleDrive → (∀ pl, xagParse frame codeErr = some (2, pl) → pl.length ≠ 28) → bad (.up b k frame codeErr delay)) ∧
     (¬awaits roleHub → exec (.hubUp b k frame codeErr delay) s = .next s) ∧
     (∀ pl, awaits roleHub → xagParse frame codeErr = some (4, pl) → pl.length = 24 →
       ∃ u : State, exec (.hubUp b k frame codeErr delay) s = .next u ∧
         arrives u (good ++ [(FLD_PSTAT.PEER b k, f pl 16 4 % 2 ^ 16)]) (trip (f pl 20 4)) ∧
         u.num (plane 0) 4 = f pl 8 4 ∧ u.num (plane 1) 4 = f pl 12 4 ∧ u.num (plane 2) 4 = 2 ^ 31 + f pl 16 4 % 2 ^ 16 ∧
         u.bytes area 8 = pl.take 8 ∧ s.bytesBut u [(plane 0, 4), (plane 1, 4), (plane 2, 4), (area, 8)]) ∧
     (awaits roleHub → (∀ pl, xagParse frame codeErr = some (4, pl) → pl.length ≠ 24) → bad (.hubUp b k frame codeErr delay)) ∧
     (¬awaits roleDrive → ¬awaits roleHub → exec (.identFrame b k frame codeErr delay) s = .next s) ∧
     (∀ pl, awaits roleDrive ∨ awaits roleHub → xagParse frame codeErr = some (6, pl) → pl.length = 16 →
       ∃ u : State, exec (.identFrame b k frame codeErr delay) s = .next u ∧
         arrives u good { p with waiting := false, got := true } ∧ u.bytes (area + 32) 16 = pl ∧
         s.bytesBut u [(area + 32, 16)]) ∧
     (awaits roleDrive ∨ awaits roleHub → (∀ pl, xagParse frame codeErr = some (6, pl) → pl.length ≠ 16) →
       bad (.identFrame b k frame codeErr delay)) ∧
     (p.waiting = false → exec (.upTimeout b k) s = .next s) ∧
     (p.waiting = true → ∃ u : State, exec (.upTimeout b k) s = .next u ∧ s.portSets u b k { p with waiting := false } ∧
       s.sets u ([(FLD_PSTAT.TIMEOUT b k, 1), (FLD_PSTAT.RXOK b k, 0)] ++ s.portErrs b k) ∧
       u = { s.until (16 * (p.eof + 2500)) with regs := u.regs, fld.ports := u.fld.ports }))

/-- R385 to R388: an SSI port due in this round clocks in its value, Gray-decoded if so set, stamped with its start; a CAPTURE
port counts and stamps each selected edge, the 24 first ones with their level, and offers it to the cameras; a PULSE port
places its next entry or its oldest mark's pulse, a late entry at once, with LATE; a UART port sends its area's bytes and
takes in characters, counted, up to 190. R371 to R377, R379, R380, R383 to R388: where a command of a field block completes.
An exchange swaps the inbound banks and moves every mapped word between the settled bank, or the next outbound one, and the
Lattice, and then ends; a port that is due sends its frame, its transfer or its bytes; an answer in time and in form is
taken into the port's planes, and one that fails to come is counted; edges, entries, marks and characters are taken as they
come. Where the spec leaves a point open, the statement follows the model's choices, log entries 41 and 81. -/
def Obligations.FieldRoles : Prop :=
  (∀ (s : State) (b : Fin 64) (k : Fin 16) (value : BitVec 64) (rising bad : Bool) (char : BitVec 8), s.live = true →
     let p := s.port1 b k
     let plane (f : Nat) : Nat := bankAt b (s.filling b) (planeOff f k)
     let area : Nat := bankAt b (s.filling b) (areaOff k)
     let due := p.bound + s.txOff b k
     let nb := s.opt b k % 128
     let gray := bitb (s.opt b k) 7
     let pulse : Prop := s.isOn (FLD_CTL.EN b) = true ∧ s.role b k = rolePulse
     let uart : Prop := s.isOn (FLD_CTL.EN b) = true ∧ s.role b k = roleUart
     let late : List (Fld × Nat) := (FLD_PSTAT.LATE b k, 1) :: s.portErrs b k
     let one : Fld × Nat := (FLD_PCNT.COUNT b k, s.more (FLD_PCNT.COUNT b k))
     let pin (t : Nat) (l : Bool) : Out := ⟨.pin, 16 * b.val + k.val, t, [BitVec.ofNat 8 (b2n l)]⟩
     (s.portDue b k roleSsi = false → exec (.ssiTransfer b k value) s = .next s) ∧
     (s.portDue b k roleSsi = true → 1 ≤ nb → nb ≤ 64 → ∃ u : State, exec (.ssiTransfer b k value) s = .next u ∧
       let start := max due p.busyUntil
       let v := if gray then grayDecode 64 (value.toNat % 2 ^ nb) else value.toNat % 2 ^ nb
       u.num (plane 0) 4 = v % 2 ^ 32 ∧ u.num (plane 1) 4 = v / 2 ^ 32 % 2 ^ 32 ∧ u.num area 8 = start % 2 ^ 64 ∧
       s.bytesBut u [(plane 0, 4), (plane 1, 4), (area, 8)] ∧
       s.sets u ([(FLD_PSTAT.RXOK b k, 1), (FLD_PSTAT.BAD b k, 0), (FLD_PSTAT.TIMEOUT b k, 0), one] ++
         if due < p.busyUntil then s.portErrs b k else []) ∧
       s.portSets u b k { p with
         due := false, waiting := false, got := true
         busyUntil := start + (nb + 1) * 100 * 2 ^ s.eff (FLD_PCFG_A.RATE b k) } ∧
       u = { s.until (16 * start) with
         regs := u.regs, mem := u.mem, fld.ports := u.fld.ports
         out := s.out ++ [(⟨.ssi, 16 * b.val + k.val, max s.time (16 * start), []⟩ : Out)] }) ∧
     (s.isOn (FLD_CTL.EN b) = false ∨ s.role b k ≠ roleCapture → exec (.captureEdge b k rising) s = .next s) ∧
     (s.isOn (FLD_CTL.EN b) = true → s.role b k = roleCapture → bitb (s.opt b k) (if rising then 0 else 1) = false →
       ∃ u : State, exec (.captureEdge b k rising) s = .next u ∧ s.sets u [(FLD_PSTAT.PEER b k, b2n rising)] ∧
         s.portSets u b k { p with level := rising } ∧ u = { s with regs := u.regs, fld.ports := u.fld.ports }) ∧
     (s.isOn (FLD_CTL.EN b) = true → s.role b k = roleCapture → bitb (s.opt b k) (if rising then 0 else 1) = true →
       ∃ u : State, exec (.captureEdge b k rising) s = .next u ∧
         s.sets u ([(FLD_PSTAT.PEER b k, b2n rising), one] ++ (if p.edges < 24 then [] else s.portErrs b k) ++
           if bitb (s.opt b k) 2 then [(FLD_IRQ.CAPT b, 1)] else []) ∧
         s.portSets u b k { p with level := rising, edges := p.edges + 1, got := true } ∧
         u.num (plane 0) 4 = (p.edges + 1) % 2 ^ 32 ∧
         (p.edges < 24 → u.num (area + 8 * p.edges) 8 = s.now % 2 ^ 63 + b2n rising * 2 ^ 63) ∧
         s.bytesBut u ((plane 0, 4) :: if p.edges < 24 then [(area + 8 * p.edges, 8)] else []) ∧
         u = { s with regs := u.regs, mem := u.mem, fld.ports := u.fld.ports, cam.ports := u.cam.ports } ∧
         ∀ c, c < 8 → u.cam1 c = if s.rd (CAM_CTL.TSRC c) = 1 ∧ s.rd (CAM_CTL.TSEL c) = 16 * b.val + k.val then
           { s.cam1 c with trig := (s.cam1 c).trig ++ [s.now + s.rd (CAM_TRGDLY.TRGDLY c)] } else s.cam1 c) ∧
     (¬pulse → exec (.pulseEntry b k) s = .next s ∧ exec (.markPulse b k) s = .next s) ∧
     (pulse → bitb (s.opt b k) 1 = true ∨ p.entries = [] → exec (.pulseEntry b k) s = .next s) ∧
     (∀ l t rest, pulse → bitb (s.opt b k) 1 = false → p.entries = (l, t) :: rest →
       let isLate := decide (t < p.bound + 100) || decide (t ≤ p.lastAt)
       let v := if isLate then s else s.until (16 * t)
       ∃ u : State, exec (.pulseEntry b k) s = .next u ∧
         s.sets u ([(FLD_PSTAT.PEER b k, b2n l), one] ++ if isLate then late else []) ∧
         s.portSets u b k { p with entries := rest, lastAt := t, level := l } ∧
         u = { v with regs := u.regs, fld.ports := u.fld.ports, out := s.out ++ [pin v.time l] }) ∧
     (pulse → bitb (s.opt b k) 1 = false ∨ p.stamps = [] → exec (.markPulse b k) s = .next s) ∧
     (∀ t rest, pulse → bitb (s.opt b k) 1 = true → p.stamps = t :: rest →
       let up := s.until (16 * (t + s.txOff b k))
       let down := up.until (16 * (t + s.txOff b k + 16 * s.eff (FLD_PCFG_B.WIDTH b k)))
       ∃ u : State, exec (.markPulse b k) s = .next u ∧ s.sets u [(FLD_PSTAT.PEER b k, b2n p.level), one] ∧
         s.portSets u b k { p with stamps := rest } ∧
         u = { down with
           regs := u.regs, fld.ports := u.fld.ports, out := s.out ++ [pin up.time (!p.level), pin down.time p.level] }) ∧
     (s.portDue b k roleUart = false → exec (.uartTransmit b k) s = .next s) ∧
     (s.portDue b k roleUart = true → p.busyUntil ≤ p.bound → s.eff (FLD_PCFG_A.RATE b k) < 8 →
       let from_ := bankAt b (s.outCur b) (areaOff k)
       let n := min (s.num from_ 2) 190
       let chars := 10 + b2n (bitb (s.opt b k) 0) + b2n (bits (s.opt b k) 2 1 != 0)
       ∃ u : State, exec (.uartTransmit b k) s = .next u ∧
         s.portSets u b k { p with
           due := false, busyUntil := due + n * chars * 1000000000 / uartBaud (s.eff (FLD_PCFG_A.RATE b k)) } ∧
         u = { s.until (16 * due) with
           fld.ports := u.fld.ports
           out := s.out ++ [(⟨.uart, 16 * b.val + k.val, max s.time (16 * due), s.bytes (from_ + 2) n⟩ : Out)] }) ∧
     (¬uart ∨ s.now < p.busyUntil → exec (.uartReceive b k char bad) s = .next s) ∧
     (uart → p.busyUntil ≤ s.now → bad = true ∨ 190 ≤ p.rx → ∃ u : State, exec (.uartReceive b k char bad) s = .next u ∧
       s.setsOnly u (s.portErrs b k)) ∧
     (uart → p.busyUntil ≤ s.now → bad = false → p.rx < 190 → ∃ u : State, exec (.uartReceive b k char bad) s = .next u ∧
       s.sets u [one] ∧ s.portSets u b k { p with rx := p.rx + 1, got := true } ∧ u.byte (area + 2 + p.rx) = char ∧
       u.num area 2 = p.rx + 1 ∧ s.bytesBut u [(area, 2), (area + 2 + p.rx, 1)] ∧
       u = { s with regs := u.regs, mem := u.mem, fld.ports := u.fld.ports })) ∧
  (∀ (s : State) (b : Fin 64) (k : Fin 16) (frame : List Byte) (codeErr : Bool) (delay : BitVec 12) (value : BitVec 64)
     (rising : Bool) (char : BitVec 8) (x : FldX) (pl : List Byte), s.live = true →
     let staged (st : FldStage) : Prop := s.fldX b = some x ∧ x.stage = st
     let ins := (x.entries true).1.flatMap mapWords
     let outs := (x.entries false).1.flatMap mapWords
     let whole : Prop := s.memWf = true ∧ s.rd LAT_SPARE_COPY.ACTIVE = 0
     let p := s.port1 b k
     let enabled (role : Nat) : Prop := s.isOn (FLD_CTL.EN b) = true ∧ s.role b k = role
     let due (role : Nat) : Prop := enabled role ∧ p.due = true
     let sends (i : Instr) (port : OutPort) (own : State → List Byte → Prop) : Prop := ∃ (u : State) (t : Nat) (bs : List Byte),
       exec i s = .next u ∧ u.out = s.out ++ [(⟨port, 16 * b.val + k.val, t, bs⟩ : Out)] ∧ (u.port1 b k).due = false ∧ own u bs
     let start := p.bound + s.txOff b k
     let soft := start + 40 * bitTime (s.eff (FLD_PCFG_A.RATE b k))
     let plane (u : State) (f : Nat) : Nat := u.num (bankAt b (s.filling b) (planeOff f k)) 4
     let takes (i : Instr) (own : State → Prop) : Prop := ∃ u : State, exec i s = .next u ∧ u.rd (FLD_PSTAT.RXOK b k) = 1 ∧
       u.rd (FLD_PSTAT.BAD b k) = 0 ∧ u.rd (FLD_PCNT.COUNT b k) = s.more (FLD_PCNT.COUNT b k) ∧ (u.port1 b k).waiting = false ∧ own u
     let awaits (role : Nat) : Prop := enabled role ∧ p.waiting = true ∧ delay.toNat ≤ 2500
     let f (o n : Nat) : Nat := ofBytes ((pl.drop o).take n)
     let area (o : Nat) : Nat := bankAt b (s.filling b) (areaOff k + o)
     (staged .inbound → whole → ins.Pairwise (fun a c => a.2 ≠ c.2) → (∀ y ∈ ins, s.soundWord y.2) → ∃ u : State,
       exec (.inboundExchange b) s = .next u ∧ u.rd (FLD_STAT.ISET b) = 1 - s.rd (FLD_STAT.ISET b) ∧
       u.fldX b = some { x with stage := if x.both then .outbound else .moved } ∧
       ∀ y ∈ ins, u.word y.2 = u.num (bankAt b (u.settled b) (32 * y.1)) 32) ∧
     (staged .outbound → whole → outs.Pairwise (fun a c => a.1 ≠ c.1) → (∀ y ∈ outs, s.soundWord y.2) → ∃ u : State,
       exec (.outboundExchange b) s = .next u ∧ u.fldX b = some { x with stage := .moved, ue := false } ∧
       u.rd (FLD_STAT.OPEND b) = 0 ∧ ∀ y ∈ outs, u.num (bankAt b (s.outNext b) (32 * y.1)) 32 = s.word y.2) ∧
     (staged .moved → ∃ u : State, exec (.exchangeComplete b) s = .next u ∧ u.fldX b = none ∧ u.rd (FLD_STAT.XBUSY b) = 0 ∧
       u.rd (FLD_IRQ.XDONE b) = 1 ∧ (x.out = true → x.ue = false → u.rd (FLD_STAT.OPEND b) = 1)) ∧
     (due roleDrive → sends (.down b k) .field (fun u bs => (u.port1 b k).waiting = true ∧
       bs = if p.ident then xagFrame 5 p.seq [] else xagFrame 1 p.seq (s.downPayload b k soft))) ∧
     (due roleHub → sends (.hubDown b k) .field (fun u bs => (u.port1 b k).waiting = true ∧
       if p.ident then bs = xagFrame 5 p.seq [] else ∃ q, bs = xagFrame 3 p.seq q ∧ q.length = 32 ∧
         q.take 8 = toBytes 8 soft ∧ q.drop 24 = toBytes 4 (s.outPlane b 0 k) ++ toBytes 4 (s.outPlane b 1 k))) ∧
     (awaits roleDrive → xagParse frame codeErr = some (2, pl) → pl.length = 28 → takes (.up b k frame codeErr delay) (fun u =>
       plane u 0 = f 8 4 ∧ plane u 1 = f 12 4 ∧ plane u 2 = 2 ^ 31 + f 20 4 % 2 ^ 16 ∧ plane u 3 = f 16 4 ∧
       u.bytes (area 0) 8 = pl.take 8)) ∧
     (awaits roleHub → xagParse frame codeErr = some (4, pl) → pl.length = 24 → takes (.hubUp b k frame codeErr delay) (fun u =>
       plane u 0 = f 8 4 ∧ plane u 1 = f 12 4 ∧ plane u 2 = 2 ^ 31 + f 16 4 % 2 ^ 16 ∧ u.bytes (area 0) 8 = pl.take 8)) ∧
     (awaits roleDrive ∨ awaits roleHub → xagParse frame codeErr = some (6, pl) → pl.length = 16 →
       takes (.identFrame b k frame codeErr delay) (fun u => u.bytes (area 32) 16 = pl)) ∧
     (p.waiting = true → ∃ u : State, exec (.upTimeout b k) s = .next u ∧ u.rd (FLD_PSTAT.TIMEOUT b k) = 1 ∧
       u.rd (FLD_PSTAT.RXOK b k) = 0 ∧ u.rd (FLD_PERR.COUNT b k) = s.more (FLD_PERR.COUNT b k) ∧ (u.port1 b k).waiting = false) ∧
     (due roleSsi → sends (.ssiTransfer b k value) .ssi (fun u _ => u.rd (FLD_PSTAT.RXOK b k) = 1 ∧
       u.rd (FLD_PCNT.COUNT b k) = s.more (FLD_PCNT.COUNT b k) ∧
       ∀ n, n = s.opt b k % 128 → 1 ≤ n → n ≤ 64 → bitb (s.opt b k) 7 = false →
         plane u 0 + 2 ^ 32 * plane u 1 = value.toNat % 2 ^ n)) ∧
     (enabled roleCapture → bitb (s.opt b k) (if rising then 0 else 1) = true → ∃ (u : State) (t : Nat),
       exec (.captureEdge b k rising) s = .next u ∧ u.rd (FLD_PCNT.COUNT b k) = s.more (FLD_PCNT.COUNT b k) ∧
       plane u 0 = (p.edges + 1) % 2 ^ 32 ∧ (u.port1 b k).edges = p.edges + 1 ∧ s.now ≤ t + 2 ∧ t ≤ s.now + 2 ∧
       (p.edges < 24 → u.num (area (8 * p.edges)) 8 = t % 2 ^ 63 + b2n rising * 2 ^ 63)) ∧
     (∀ l t rest, enabled rolePulse → bitb (s.opt b k) 1 = false → p.entries = (l, t) :: rest → ∃ (u : State) (t' : Nat),
       exec (.pulseEntry b k) s = .next u ∧ u.out = s.out ++ [(⟨.pin, 16 * b.val + k.val, t', [BitVec.ofNat 8 (b2n l)]⟩ : Out)] ∧
       (u.port1 b k).entries = rest ∧ (u.port1 b k).level = l ∧ u.rd (FLD_PCNT.COUNT b k) = s.more (FLD_PCNT.COUNT b k)) ∧
     (∀ t rest, enabled rolePulse → bitb (s.opt b k) 1 = true → p.stamps = t :: rest → ∃ (u : State) (t0 t1 : Nat),
       exec (.markPulse b k) s = .next u ∧ u.out = s.out ++ [(⟨.pin, 16 * b.val + k.val, t0, [BitVec.ofNat 8 (b2n (!p.level))]⟩ : Out),
         (⟨.pin, 16 * b.val + k.val, t1, [BitVec.ofNat 8 (b2n p.level)]⟩ : Out)] ∧ t0 ≤ t1 ∧ (u.port1 b k).stamps = rest ∧
       (u.port1 b k).level = p.level) ∧
     (due roleUart → sends (.uartTransmit b k) .uart (fun u bs => u.mem = s.mem ∧
       bs = s.bytes (bankAt b (s.outCur b) (areaOff k) + 2) (min (s.num (bankAt b (s.outCur b) (areaOff k)) 2) 190))) ∧
     (enabled roleUart → p.busyUntil ≤ s.now → p.rx < 190 → ∃ u : State, exec (.uartReceive b k char false) s = .next u ∧
       u.byte (area (2 + p.rx)) = char ∧ u.num (area 0) 2 = p.rx + 1 ∧ (u.port1 b k).rx = p.rx + 1 ∧
       u.rd (FLD_PCNT.COUNT b k) = s.more (FLD_PCNT.COUNT b k)))

/-- R393, R394, R400: a frame takes the next FREE slot, or is discarded and counted, with FMTERR or OVR; at its end its rows
stand in its slot, which becomes HELD, and an entry is pushed or OVF set; CAM_DONE takes the oldest entry; CAM_REL frees a
slot. R395: the earliest trigger is sent at its instant, or at once when that has passed. R396: CAM_CCMD starts a control
access, that an acknowledgement or 200 ms ends. A link that comes up shows its speed, one that is lost sets LINKERR. R393 to
R396, R400: where a command of a camera port completes. A frame in a known format takes the next FREE slot, stamped at its
start, and its end leaves the slot HELD with an entry for it; an entry that is read leaves, a slot that is given back is not
HELD; a trigger is sent; a control access starts and ends; a link comes up and is lost. Where the spec leaves a point open,
the statement follows the model's choices, log entries 28 and 81. -/
def Obligations.Cameras : Prop :=
  (∀ (s : State) (n : Fin 8) (fmt : CamFmt) (rows : List (List (Option (BitVec 16)))) (slot : Fin 16) (v : BitVec 32)
     (data : List (BitVec 32)) (speed : Fin 8), s.live = true →
     let c := s.cam1 n
     let camSets (t u : State) (d : CamPort) : Prop := u = { t with cam.ports := u.cam.ports } ∧
       ∀ x, u.cam1 x = if x = n.val then d else t.cam1 x
     let drop : Fld × Nat := (CAM_DROP_CNT.COUNT n, s.more (CAM_DROP_CNT.COUNT n))
     let starts : Prop := s.camOn n = true ∧ c.frame = none
     let busy : Prop := s.rd (CAM_CCMD.BUSY n) = 1
     let cmd (len : Nat) : List Byte := 2 :: BitVec.ofNat 8 (bit v.toNat 29) :: BitVec.ofNat 8 len ::
       (toBytes 4 (s.rd (CAM_CADDR.ADDR n)) ++
         if bitb v.toNat 29 then (upto (len / 4)).flatMap (fun w => toBytes 4 (s.rd (CAM_CDATA.DATA n w))) else [])
     let written : List (Fld × Nat) := [(CAM_CCMD.WRITE n, bit v.toNat 29), (CAM_CCMD.LEN n, bits v.toNat 5 0)] ++
       if bitb v.toNat 30 then [(CAM_CCMD.ERR n, 0)] else []
     (∀ st, s.camOn n = false ∨ (c.frame ≠ none ∧ st = true) → exec (.frameStart n st fmt) s = .next s) ∧
     (s.camOn n = true → ∃ u : State, exec (.frameStart n false fmt) s = .next u ∧ s.setsOnly u [drop]) ∧
     (starts → camWide fmt = none → ∃ u : State, exec (.frameStart n true fmt) s = .next u ∧
       s.setsOnly u [(CAM_STAT.FMTERR n, 1), drop]) ∧
     (starts → camWide fmt ≠ none → s.camFree n = none → ∃ u : State, exec (.frameStart n true fmt) s = .next u ∧
       s.setsOnly u [(CAM_STAT.OVR n, 1), drop]) ∧
     (∀ w k, starts → camWide fmt = some w → s.camFree n = some k → ∃ u : State, exec (.frameStart n true fmt) s = .next u ∧
       camSets s u { c with filling := Nat.lor c.filling (2 ^ k), last := k, frame := some (k, s.now, w) }) ∧
     (c.frame = none → exec (.frameEnd n rows) s = .next s) ∧
     (∀ k st w, c.frame = some (k, st, w) →
       let size := s.rd (CAM_SLOTSZ.SIZE n) * 32
       let base := s.rd (CAM_RBASE.BASE n) * 32 + k * size
       let pitch := s.rd (CAM_GEOM.PITCH n) * 32
       let px := if w then 2 else 1
       let fit := (upto rows.length).filter (fun r => decide (r * pitch + min pitch ((rows.getD r []).length * px) ≤ size))
       let trunc := decide (fit.length < rows.length) ||
         rows.any (fun r => decide (pitch < r.length * px) || r.any Option.isNone)
       let e : CamDoneE :=
         ⟨trunc, w, k, s.more (CAM_FCNT.COUNT n) % 2 ^ 16, fit.length, (rows.headD []).length, st⟩
       let held := { c with frame := none, filling := setBits c.filling k k 0, held := Nat.lor c.held (2 ^ k) }
       let ended (u : State) : Prop := ∀ x, u.cam1 x = if x ≠ n.val then s.cam1 x else
         if c.fifo.length < 16 then { held with fifo := c.fifo ++ [e] } else { held with ovf := true }
       (∃ u : State, exec (.frameEnd n rows) s = .next u ∧ ended u ∧
         u.rd (CAM_FCNT.COUNT n) = s.more (CAM_FCNT.COUNT n) ∧ (trunc = true → u.rd (CAM_STAT.TRUNC n) = 1)) ∧
       (base + size ≤ latWords * 32 → s.rd LAT_SPARE_COPY.ACTIVE = 0 → s.lat.halves = [] →
         (∀ x, base / 32 ≤ x → x ≤ (base + size) / 32 → s.soundWord x) → ∃ u : State, exec (.frameEnd n rows) s = .next u ∧
         s.sets u ((CAM_FCNT.COUNT n, s.more (CAM_FCNT.COUNT n)) :: if trunc then [(CAM_STAT.TRUNC n, 1)] else []) ∧
         u = { s with regs := u.regs, mem := u.mem, syn := u.syn, lat.fixes := u.lat.fixes, cam.ports := u.cam.ports } ∧
         ended u ∧
         (∀ r i p, r < fit.length → w = false → i < pitch → (rows.getD r [])[i]? = some (some p) →
           ((toBytes 32 (u.word ((base + r * pitch + i) / 32)))[(base + r * pitch + i) % 32]? = some (p.setWidth 8))))) ∧
     (c.fifo = [] → ∃ u : State, exec (.camDone n) s = .next { u with resp := .data (toBytes 4 (b2n c.ovf * 2 ^ 30)) } ∧
       camSets s u { c with ovf := false }) ∧
     (∀ e rest, c.fifo = e :: rest → ∃ u : State, exec (.camDone n) s = .next { u with resp := .data (toBytes 4 (e.frame +
         e.slot * 2 ^ 16 + b2n e.wide * 2 ^ 28 + b2n e.trunc * 2 ^ 29 + b2n c.ovf * 2 ^ 30 + 2 ^ 31)) } ∧
       u = { s with regs := u.regs, cam.ports := u.cam.ports } ∧
       (∀ x, u.cam1 x = if x = n.val then { c with fifo := rest } else s.cam1 x) ∧
       s.sets u [(CAM_DINFO.ROWS n, e.rows % 2 ^ 16), (CAM_DINFO.COLS n, e.cols % 2 ^ 16),
         (CAM_DSTAMP_LO.STAMP n, e.stamp % 2 ^ 32), (CAM_DSTAMP_HI.STAMP n, e.stamp / 2 ^ 32 % 2 ^ 32)]) ∧
     exec (.camRel n false slot) s = .next s ∧
     (∃ u : State, exec (.camRel n true slot) s = .next u ∧ camSets s u { c with held := setBits c.held slot slot 0 }) ∧
     (c.trig = [] → exec (.trigger n) s = .next s) ∧
     (∀ t rest, takeLeast c.trig = some (t, rest) → ∃ u : State, exec (.trigger n) s = .next u ∧
       camSets { s.until (16 * t) with
         out := s.out ++ [(⟨.camera, n, (s.until (16 * t)).time, [1]⟩ : Out)] } u { c with trig := rest }) ∧
     (busy → ∃ u : State, exec (.camCcmd n v) s = .next u ∧ s.setsOnly u written) ∧
     (¬busy → ∃ u : State, exec (.camCcmd n v) s = .next u ∧
       s.sets u (written ++ if bitb v.toNat 31 then [(CAM_CCMD.BUSY n, 1)] else []) ∧
       if bitb v.toNat 31 then camSets { s with
           regs := u.regs, out := s.out ++ [(⟨.camera, n, s.time, cmd (bits v.toNat 5 0)⟩ : Out)] } u
           { c with ackBy := s.now + 200000000, accWrite := bitb v.toNat 29, accLen := bits v.toNat 5 0 }
         else u = { s with regs := u.regs }) ∧
     (¬busy → (∀ e, exec (.controlAck n e data) s = .next s) ∧ exec (.controlTimeout n) s = .next s) ∧
     (busy → ∃ u : State, exec (.controlAck n true data) s = .next u ∧ s.setsOnly u [(CAM_CCMD.BUSY n, 0), (CAM_CCMD.ERR n, 1)]) ∧
     (busy → ∃ u : State, exec (.controlAck n false data) s = .next u ∧ s.setsOnly u ((CAM_CCMD.BUSY n, 0) ::
       if c.accWrite then [] else
         (upto (min (min data.length 8) (c.accLen / 4))).map (fun w =>
           (CAM_CDATA.DATA n w, (data.getD w 0).toNat)))) ∧
     (busy → ∃ u : State, exec (.controlTimeout n) s = .next u ∧
       (s.until (16 * c.ackBy)).setsOnly u [(CAM_CCMD.BUSY n, 0), (CAM_CCMD.ERR n, 1)]) ∧
     (speed.val = 0 ∨ s.rd PWR_DOWN.CAM = 1 → exec (.cameraLinkUp n speed) s = .next s) ∧
     (speed.val ≠ 0 → s.rd PWR_DOWN.CAM = 0 → ∃ u : State, exec (.cameraLinkUp n speed) s = .next u ∧
       s.setsOnly u [(CAM_STAT.LINK n, 1), (CAM_STAT.SPEED n, speed.val)]) ∧
     (∃ u : State, exec (.cameraLinkLoss n) s = .next u ∧
       s.sets u [(CAM_STAT.LINKERR n, 1), (CAM_STAT.LINK n, 0), (CAM_STAT.SPEED n, 0)] ∧
       camSets { s with regs := u.regs } u (match c.frame with
         | some (k, _, _) => { c with frame := none, filling := setBits c.filling k k 0 }
         | none => c))) ∧
  (∀ (s : State) (n : Fin 8) (fmt : CamFmt) (rows : List (List (Option (BitVec 16)))) (slot : Fin 16) (v : BitVec 32)
     (data : List (BitVec 32)) (speed : Fin 8) (error : Bool), s.live = true →
     let c := s.cam1 n
     (∀ w k, s.rd (CAM_CTL.EN n) = 1 → s.rd (CAM_STAT.LINK n) = 1 → s.rd PWR_DOWN.CAM = 0 → c.frame = none → camWide fmt = some w →
       s.camFree n = some k → ∃ (u : State) (t : Nat), exec (.frameStart n true fmt) s = .next u ∧
         (u.cam1 n).frame = some (k, t, w) ∧ s.now ≤ t + 8 ∧ t ≤ s.now + 8 ∧ bitb (u.cam1 n).filling k = true ∧ u.mem = s.mem ∧
         u.regs = s.regs) ∧
     (∀ k t w, c.frame = some (k, t, w) → ∃ u : State, exec (.frameEnd n rows) s = .next u ∧ (u.cam1 n).frame = none ∧
       bitb (u.cam1 n).filling k = false ∧ bitb (u.cam1 n).held k = true ∧ u.rd (CAM_FCNT.COUNT n) = s.more (CAM_FCNT.COUNT n) ∧
       if c.fifo.length < 16 then ∃ e, (u.cam1 n).fifo = c.fifo ++ [e] ∧ e.slot = k ∧ e.stamp = t ∧ e.wide = w ∧
         e.cols = (rows.headD []).length ∧ e.rows ≤ rows.length ∧ (e.rows < rows.length → e.trunc = true)
       else (u.cam1 n).fifo = c.fifo ∧ (u.cam1 n).ovf = true) ∧
     (∀ e rest, c.fifo = e :: rest → ∃ (u : State) (x : Nat), exec (.camDone n) s = .next u ∧ u.resp = .data (toBytes 4 x) ∧
       (u.cam1 n).fifo = rest ∧ bits x 31 31 = 1 ∧ u.rd (CAM_DINFO.ROWS n) = e.rows % 2 ^ 16 ∧
       u.rd2 (CAM_DSTAMP_LO.STAMP n) (CAM_DSTAMP_HI.STAMP n) = e.stamp % 2 ^ 64) ∧
     (∃ u : State, exec (.camRel n true slot) s = .next u ∧ bitb (u.cam1 n).held slot = false ∧ (u.cam1 n).filling = c.filling) ∧
     (c.trig ≠ [] → ∃ (u : State) (t t' : Nat), exec (.trigger n) s = .next u ∧ t ∈ c.trig ∧ (∀ y ∈ c.trig, t ≤ y) ∧
       (u.cam1 n).trig = c.trig.erase t ∧ u.out = s.out ++ [(⟨.camera, n, t', [1]⟩ : Out)] ∧ t' = (s.until (16 * t)).time) ∧
     (s.rd (CAM_CCMD.BUSY n) = 0 → bitb v.toNat 31 = true → ∃ (u : State) (bs : List Byte), exec (.camCcmd n v) s = .next u ∧
       u.rd (CAM_CCMD.BUSY n) = 1 ∧ u.rd (CAM_CCMD.WRITE n) = bit v.toNat 29 ∧ u.rd (CAM_CCMD.LEN n) = bits v.toNat 5 0 ∧
       u.out = s.out ++ [(⟨.camera, n, s.time, bs⟩ : Out)] ∧ (bs.drop 3).take 4 = toBytes 4 (s.rd (CAM_CADDR.ADDR n))) ∧
     (s.rd (CAM_CCMD.BUSY n) = 1 → ∃ u : State, exec (.controlAck n error data) s = .next u ∧ u.rd (CAM_CCMD.BUSY n) = 0 ∧
       (error = true → u.rd (CAM_CCMD.ERR n) = 1) ∧ (error = false → u.rd (CAM_CCMD.ERR n) = s.rd (CAM_CCMD.ERR n) ∧
         (c.accWrite = false → ∀ w, w < min (min data.length 8) (c.accLen / 4) →
           u.rd (CAM_CDATA.DATA n w) = (data.getD w 0).toNat))) ∧
     (s.rd (CAM_CCMD.BUSY n) = 1 → ∃ u : State, exec (.controlTimeout n) s = .next u ∧ u.rd (CAM_CCMD.BUSY n) = 0 ∧
       u.rd (CAM_CCMD.ERR n) = 1 ∧ u.mem = s.mem) ∧
     (speed.val ≠ 0 → s.rd PWR_DOWN.CAM = 0 → ∃ u : State, exec (.cameraLinkUp n speed) s = .next u ∧
       u.rd (CAM_STAT.LINK n) = 1 ∧ u.rd (CAM_STAT.SPEED n) = speed.val ∧ u.cam = s.cam) ∧
     ∃ u : State, exec (.cameraLinkLoss n) s = .next u ∧ u.rd (CAM_STAT.LINKERR n) = 1 ∧ u.rd (CAM_STAT.LINK n) = 0 ∧
       u.rd (CAM_STAT.SPEED n) = 0 ∧ (u.cam1 n).frame = none ∧ (u.cam1 n).held = c.held)

/-- R8, R27, R30, R37, R38, R40, R499: a Bulk transaction stores or delivers its bytes, a corrected granule being written back,
an uncorrectable one or the spare area answering a bus error; the re-read of a sound granule clears its mark, that of a
faulty one redirects its page. A register write changes the fields by their types (here of the CLK_, AOW_ and XW_ pages), is
a decode error at an unassigned offset and a bus error without its secure attribute or alignment. Where the spec leaves a
point open, the statement follows the model's choices, log entries 23, 26 and 90. -/
def Obligations.BusAccesses : Prop :=
  ∀ (s : State) (m : Fin 14) (sec w : Bool) (addr : BitVec 40) (len : Fin 65) (data : List Byte) (rivals : List (Fin 14))
    (v : BitVec 32),
    let a := addr.toNat
    let n := if w then data.length else len.val
    let access := exec (.bulkAccess ⟨m, rivals⟩ w addr len data []) s
    let plain : Prop := inBulk a n = true ∧ transactionOk a n = true ∧ s.pwr.asserted ≤ 1 ∧ (∀ r ∈ s.bulk.redir, r.1 ≠ (a - bulkBase) / 4096)
    let sound : Prop := ∀ g, a / 8 ≤ g → g ≤ (a + n - 1) / 8 → s.sound g
    let berr (u : State) : Prop := s.sets u [(XW_BERR_CNT.COUNT, s.more XW_BERR_CNT.COUNT)] ∧ u.resp = .busError
    let write := exec (.registerWrite m sec addr v) s
    let powered : Prop := s.pwr.state = .run ∨ s.pwr.state = .idle
    let served : Prop := powered ∧ s.pwr.asserted = 0
    let page : Prop := a / 0x10000 = 0x4002 ∨ a / 0x10000 = 0x4004 ∨ a / 0x10000 = 0x4007
    (transactionOk a n = false → access = .next s) ∧
    (bulkSpareBase ≤ a → a < bulkEnd → transactionOk a n = true → ∃ u : State, access = .next u ∧ berr u ∧
      u = { s with regs := u.regs, credit := u.credit, xw := u.xw, resp := .busError } ∧ u.xw.berrs = s.thisTc.xw.berrs + 1) ∧
    (plain → sound → w = false → ∃ u : State, access = .next u ∧
      u = { s with credit := u.credit, xw.turn := u.xw.turn, resp := .data (s.bytes a n) }) ∧
    (plain → sound → w = true → s.bulk.ueGran = [] → ∃ u : State, access = .next { u with resp := .done } ∧ s.stored u a data) ∧
    (plain → w = false → n = 8 → a % 8 = 0 → eccClass (s.gran (a / 8)).2 = .corrected →
      SMap.get (fun _ => (0 : BitVec 72)) s.stuck (a / 8) = 0 → ∃ u : State, access = .next u ∧
      u.resp = .data (toBytes 8 (s.gran (a / 8)).1) ∧ u.bytes a 8 = toBytes 8 (s.gran (a / 8)).1 ∧ u.sound (a / 8) ∧
      a / 8 ∈ u.bulk.reread ∧ s.bytesBut u [(a, 8)]) ∧
    (plain → w = false → n = 8 → a % 8 = 0 → eccClass (s.gran (a / 8)).2 = .uncorrectable → ∃ u : State, access = .next u ∧
      berr u ∧ a / 8 ∈ u.bulk.ueGran ∧ u.mem = s.mem) ∧
    (s.live = true → s.bulkAt a / 8 ∉ s.bulk.reread → exec (.bulkReRead addr) s = .next s) ∧
    (s.live = true → s.bulkAt a / 8 ∈ s.bulk.reread → s.sound (s.bulkAt a / 8) →
      exec (.bulkReRead addr) s = .next { s with bulk.reread := s.bulk.reread.erase (s.bulkAt a / 8) }) ∧
    (s.live = true → s.bulkAt a / 8 ∈ s.bulk.reread → (s.gran (s.bulkAt a / 8)).2 ≠ 0 → s.bulk.nextFree < 512 →
      ∃ u : State, exec (.bulkReRead addr) s = .next u ∧
        u.bulk.redir = ((a - bulkBase) / 4096, s.bulk.nextFree) :: s.bulk.redir ∧ u.bulk.nextFree = s.bulk.nextFree + 1 ∧
        u.bulkAt a = bulkSpareBase + s.bulk.nextFree * 4096 + a % 4096 ∧ u.regs = s.regs) ∧
    (s.live = true → s.bulkAt a / 8 ∈ s.bulk.reread → (s.gran (s.bulkAt a / 8)).2 ≠ 0 → 512 ≤ s.bulk.nextFree →
      ∃ u : State, exec (.bulkReRead addr) s = .next u ∧ s.logs u 0x22 0 0 ((a - bulkBase) / 4096) ∧ u.rd RCV_STAT.DEG = 1 ∧
        u.mem = s.mem ∧ u.bulk.redir = s.bulk.redir) ∧
    (¬powered ∨ transactionOk a 4 = false → write = .next s) ∧
    (∀ r, served → page → a % 4 = 0 → specAt a = some r → r.secure = false ∨ sec = true → a ≠ XW_DERR_INFO.addr →
      a ≠ XW_DERR_CNT.COUNT.addr → a ≠ XW_BERR_CNT.COUNT.addr →
      ∃ u : State, write = .next u ∧
        u = { s with regs := u.regs, credit := u.credit, xw.turn := u.xw.turn, resp := .done } ∧ s.regsBut u [a] ∧
        (∀ f ∈ r.fields, ∀ i, f.lo ≤ i → i ≤ f.hi → bitb (u.rdReg a) i = match f.ty with
          | .ro => bitb (s.rdReg a) i
          | .wo => bitb (s.rdReg a) i
          | .w1c => bitb (s.rdReg a) i && !bitb v.toNat i
          | .w1s => bitb (s.rdReg a) i || bitb v.toNat i
          | _ => bitb v.toNat i) ∧
        ∀ i, (∀ f ∈ r.fields, i < f.lo ∨ f.hi < i) → bitb (u.rdReg a) i = false) ∧
    (served → a = XW_DERR_INFO.addr → s.xw.tc ≠ s.now → ∃ u : State, write = .next u ∧
      s.sets u (if bitb v.toNat 31 then [(XW_DERR_INFO.VALID, 0), (XW_DERR_INFO.OVF, 0)] else [])) ∧
    (served → a = XW_DERR_CNT.COUNT.addr → ∃ u : State, write = .next u ∧
      s.sets u [(XW_DERR_CNT.COUNT, min (v.toNat + s.thisTc.xw.derrs.length) (2 ^ 32 - 1))]) ∧
    (served → a = XW_BERR_CNT.COUNT.addr → ∃ u : State, write = .next u ∧
      s.sets u [(XW_BERR_CNT.COUNT, min (v.toNat + s.thisTc.xw.berrs) (2 ^ 32 - 1))]) ∧
    (served → page → a % 4 = 0 → specAt a = none → s.xw.tc ≠ s.now → ∃ u : State, write = .next u ∧
      u = { s with regs := u.regs, credit := u.credit, xw := u.xw, resp := .done } ∧ u.xw.derrs = [(m.val, a, true)] ∧
      s.sets u ((XW_DERR_CNT.COUNT, s.more XW_DERR_CNT.COUNT) :: if s.rd XW_DERR_INFO.VALID = 1 then [(XW_DERR_INFO.OVF, 1)]
        else [(XW_DERR_ADDR_LO.ADDR_LO, a % 2 ^ 32), (XW_DERR_ADDR_HI.ADDR_HI, a / 2 ^ 32 % 2 ^ 8), (XW_DERR_INFO.VALID, 1),
          (XW_DERR_INFO.OVF, 0), (XW_DERR_INFO.WRITE, 1), (XW_DERR_INFO.MASTER, m.val)])) ∧
    (∀ r, powered → a / 0x10000 = 0x4000 → a % 4 = 0 → specAt a = some r → r.secure = true → sec = false →
      ∃ u : State, write = .next u ∧ berr u ∧ u = { s with regs := u.regs, credit := u.credit, xw := u.xw, resp := .busError }) ∧
    (powered → page → a % 4 ≠ 0 → a % 64 + 4 ≤ 64 → ∃ u : State, write = .next u ∧ berr u ∧
      u = { s with regs := u.regs, credit := u.credit, xw := u.xw, resp := .busError }) ∧
    (powered → page → 3 ≤ s.pwr.asserted → a % 64 + 4 ≤ 64 → ∃ u : State, write = .next u ∧ berr u ∧
      u = { s with regs := u.regs, credit := u.credit, xw := u.xw, resp := .busError })

/-- R46 to R63: in an idle Lattice a read that may issue in the phase is granted and delivered four rc later; a write of a whole
word is stored; a partial one of class 4 to 7 waits with what it read for its write half, which merges it; a request that
may not issue waits; two hard accesses of different chains to one bank are a breach. R59, R66, R69, R71 to R76: a corrected
granule is written back unless a requester wrote it since, and a sound re-read ends its mark, a faulty one asks for a spare;
the scrubber reads on in an OPEN phase; a selected phase table becomes active in the next phase 0 if valid; a pending bank
is copied to a spare row by row, in OPEN phases, and moves to it at a round boundary, or exhausts the spares; firmware's
spare commands act while they may. Where the spec leaves a point open, the statement follows the model's choices, log
entries 71, 72 and 73. -/
def Obligations.Lattice : Prop :=
  (∀ (s : State) (r x : LatReq) (bank : BitVec 8), s.live = true → s.rd LAT_SPARE_COPY.ACTIVE = 0 →
     let w := r.word.toNat
     let idle : Prop := s.lat.waiting = [] ∧ s.lat.halves = [] ∧ s.lat.busy = []
     let legal (r : LatReq) : Prop := r.word.toNat < latWords ∧ reqClassOk r.req.toNat r.cls.val r.master.val = true
     let issues (r : LatReq) : Prop := mayIssue s.phaseKind r.cls.val r.req.toNat = true
     let access (l : List LatReq) := exec (.latticeAccess l []) s
     let aged : LatReq := { r with age := s.time }
     let later := s.pass 10
     (idle → access [] = .next later) ∧
     (idle → legal r → ¬issues r → access [r] = .next { later with lat.waiting := [aged] }) ∧
     (idle → legal r → issues r → s.soundWord w → r.write = false → access [r] = .next { later with
       lat.inflight := s.lat.inflight ++ [⟨s.time + 40, r.req.toNat, w, BitVec.ofNat 256 (s.word w), 0⟩] }) ∧
     (idle → legal r → issues r → s.soundWord w → r.write = true → r.mask.toNat = 2 ^ 256 - 1 →
       ∃ u : State, access [r] = .next u ∧ u.word w = r.data.toNat ∧ s.bytesBut u [(8 * s.wordGran w 0, 32)] ∧
         u = { later with mem := u.mem, syn := u.syn, lat.fixes := u.lat.fixes }) ∧
     (idle → legal r → issues r → s.soundWord w → latRmw r = true → (r.cls.val = 1 ∨ r.cls.val = 2) →
       ∃ u : State, access [r] = .next u ∧ s.bytesBut u [(8 * s.wordGran w 0, 32)] ∧
         (∀ g, g < 4 → granPart (u.word w) g = if granPart r.mask.toNat g = 0 then granPart (s.word w) g
           else granPart ((BitVec.ofNat 256 (s.word w) &&& ~~~r.mask) ||| (r.data &&& r.mask)).toNat g) ∧
         u = { later with mem := u.mem, syn := u.syn, lat.fixes := u.lat.fixes, lat.busy := [(latBank w, aged)] }) ∧
     (idle → legal r → issues r → s.soundWord w → latRmw r = true → 4 ≤ r.cls.val →
       access [r] = .next { later with
         lat.halves := [⟨latBank w, aged, BitVec.ofNat 256 (s.word w), 0⟩] }) ∧
     (idle → legal r → legal x → issues r → issues x → r.write = false → x.write = false →
       s.soundWord w → s.soundWord x.word.toNat → latBank w = latBank x.word.toNat →
       (r.cls.val = 1 ∨ r.cls.val = 2) → (x.cls.val = 1 ∨ x.cls.val = 2) → r.req ≠ x.req → r.grp = 0 ∨ r.grp ≠ x.grp →
       ∃ u : State, access [r, x] = .next u ∧ u.rd LAT_BREACH_CNT.COUNT = s.more LAT_BREACH_CNT.COUNT ∧
         u.rd SCH_BREACH_CNT.COUNT = s.more SCH_BREACH_CNT.COUNT ∧ u.time = s.time + 10 ∧
         u.lat.inflight.length = s.lat.inflight.length + 1 ∧ u.lat.waiting.length = 1) ∧
     ((∀ h ∈ s.lat.halves, h.bank ≠ bank.toNat) → exec (.writeHalf bank) s = .next s) ∧
     (∀ h, s.lat.halves = [h] → h.bank = bank.toNat → s.lat.waiting = [] → h.ue = 0 → s.soundWord h.r.word.toNat →
       h.r.word.toNat < latWords →
       ∃ u : State, exec (.writeHalf bank) s = .next u ∧ s.bytesBut u [(8 * s.wordGran h.r.word.toNat 0, 32)] ∧
         u = { s with mem := u.mem, syn := u.syn, lat.halves := [], lat.fixes := u.lat.fixes } ∧
         ∀ g, g < 4 → granPart (u.word h.r.word.toNat) g = if granPart h.r.mask.toNat g = 0 then granPart (s.word h.r.word.toNat) g
           else granPart ((h.data &&& ~~~h.r.mask) ||| (h.r.data &&& h.r.mask)).toNat g) ∧
     (s.lat.inflight = [] → exec .readData s = .next s) ∧
     (∀ d t, s.lat.inflight = d :: t → exec .readData s =
       .next { s.until d.due with lat.inflight := t, resp := .latRead d.req d.word d.data d.ue })) ∧
  (∀ (s : State) (p : Fin 264) (b : BitVec 8) (n k : Fin 8) (mask : BitVec 32) (st : BitVec 2), s.live = true →
     let at_ (f : LatFix) := latGran f.pbank f.row f.gran
     let copying : Prop := s.rd LAT_SPARE_COPY.ACTIVE = 1
     let lb := s.rd LAT_SPARE_COPY.LBANK
     let row := s.rd LAT_SPARE_COPY.ROW
     let spare := s.rd LAT_SPARE_COPY.SPARE
     let isFree (k : Nat) : Prop := s.rd (LAT_SPARE.STATE k) = 0
     let pend := s.pendBanks.filter (fun b => s.lat.copyHold != some b)
     let entry := exec (.spareEntryWrite k st b) s
     ((∀ f ∈ s.lat.fixes, f.pbank = p.val → f.written = true) → exec (.eccWriteBack p) s = .next s) ∧
     (∀ f, s.lat.fixes = [f] → f.pbank = p.val → f.written = false → s.sound (at_ f) →
       ∃ u : State, exec (.eccWriteBack p) s = .next u ∧ u.num (8 * at_ f) 8 = (if f.cancelled then s.num (8 * at_ f) 8 else f.data.toNat) ∧
         s.bytesBut u [(8 * at_ f, 8)] ∧
         u = { s with mem := u.mem, syn := u.syn, lat.fixes := [{ f with written := true }] }) ∧
     ((∀ f ∈ s.lat.fixes, f.pbank = p.val → f.written = false) → exec (.eccReRead p) s = .next s) ∧
     (∀ f, s.lat.fixes = [f] → f.pbank = p.val → f.written = true → s.sound (at_ f) →
       exec (.eccReRead p) s = .next { s with lat.fixes := [] }) ∧
     (∀ f, s.lat.fixes = [f] → f.pbank = p.val → f.written = true → (s.gran (at_ f)).2 ≠ 0 → p.val < 256 →
       s.logBank p.val = some p.val → s.copyOf p.val = none →
       ∃ u : State, exec (.eccReRead p) s = .next u ∧ u.sparePend p.val = true ∧ u.rd RCV_STAT.DEG = 1 ∧
         s.logs u 0x20 0 p.val f.loc ∧ u.lat.fixes = [] ∧ u.mem = s.mem) ∧
     (s.rd LAT_CTL.SCRUB_EN = 0 → exec (.scrub []) s = .next s) ∧
     (s.rd LAT_CTL.SCRUB_EN = 1 → s.untilOpen s.lat.scrubAt = none → exec (.scrub []) s = .next s) ∧
     (∀ v, s.rd LAT_CTL.SCRUB_EN = 1 → s.untilOpen s.lat.scrubAt = some v → s.rd LAT_SCRUB_PTR.PTR + 1 < latWords →
       s.soundWord (s.rd LAT_SCRUB_PTR.PTR) → ∃ u : State, exec (.scrub []) s = .next u ∧
         s.sets u [(LAT_SCRUB_PTR.PTR, s.rd LAT_SCRUB_PTR.PTR + 1)] ∧
         u = { v with regs := u.regs, lat.scrubAt := v.tickAfter s.lat.scrubAt 9600 }) ∧
     (s.lat.ptabSel = none → exec .phaseTableActivate s = .next s) ∧
     (∀ t since v, t < 4 → s.lat.ptabSel = some (t, since) →
       s.untilRc (fun d => s.phaseIn d == 0 && decide (since < s.sch.roundStart + 10 * (s.rcr + d))) = some v →
       ∃ u : State, exec .phaseTableActivate s = .next u ∧
         s.sets u [if s.ptabValid t then (LAT_STAT.PTAB_ACT, t) else (LAT_STAT.PTAB_ERR, 1)] ∧
         u = { v with regs := u.regs, lat.ptabSel := none }) ∧
     (s.copyOf b.toNat ≠ none → exec (.spareCmd b) s = .next s) ∧
     (s.copyOf b.toNat = none → ∃ u : State, exec (.spareCmd b) s = .next u ∧
       s.setsOnly u [(⟨LAT_SPARE_PEND.addr (b.toNat / 32), b.toNat % 32, b.toNat % 32⟩, 1)]) ∧
     (∃ u : State, exec (.sparePendClear n mask) s = .next u ∧ s.regsBut u [LAT_SPARE_PEND.addr n] ∧
       u = { s with regs := u.regs, lat.exhReported := u.lat.exhReported } ∧
       ∀ i, i < 32 → bitb (u.rdReg (LAT_SPARE_PEND.addr n)) i = (bitb (s.rdReg (LAT_SPARE_PEND.addr n)) i &&
         !(bitb mask.toNat i && (s.copyOf (32 * n.val + i)).isNone))) ∧
     (copying ∨ pend = [] → exec .copyStart s = .next s) ∧
     (∀ x rest, ¬copying → pend = x :: rest → isFree k → (∀ j, j < k.val → ¬isFree j) →
       ∃ u : State, exec .copyStart s = .next u ∧ s.sets u [(⟨LAT_SPARE.addr k, 31, 0⟩, x + 2 ^ 30),
         (⟨LAT_SPARE_PEND.addr (x / 32), x % 32, x % 32⟩, 0), (⟨LAT_SPARE_COPY.addr, 31, 0⟩, x * 2 ^ 16 + k * 2 ^ 24 + 2 ^ 31),
         (LAT_STAT.SPARE_BUSY, 1)] ∧
         u = { s with regs := u.regs, lat.exhReported := s.lat.exhReported.filter (· != x), lat.copyAt := s.time }) ∧
     (∀ x, ¬copying → s.lat.copyHold ≠ some x → s.pendBanks = [x] → (∀ j, j < 8 → ¬isFree j) →
       x ∉ s.lat.exhReported → ∃ u : State, exec .copyStart s = .next u ∧ u.rd LAT_STAT.SPARE_EXH = 1 ∧
         u.rd RCV_STAT.DEG = 1 ∧ s.logs u 0x21 0 x 0 ∧ u.lat.exhReported = s.lat.exhReported ++ [x]) ∧
     (¬copying ∨ 12288 ≤ row → exec .rowCopy s = .next s) ∧
     (copying → row < 12288 → s.untilOpen s.lat.copyAt = none → exec .rowCopy s = .next s) ∧
     (∀ v, copying → row < 12288 → s.untilOpen s.lat.copyAt = some v → s.physBank lb ≠ 256 + spare → (∀ g, g < 4 →
       s.sound (latGran (s.physBank lb) row g) ∧
         s.sound (latGran (256 + spare) row g)) →
       ∃ u : State, exec .rowCopy s = .next u ∧ s.sets u [(LAT_SPARE_COPY.ROW, row + 1)] ∧
         u.bytes (8 * latGran (256 + spare) row 0) 32 = s.bytes (8 * latGran (s.physBank lb) row 0) 32 ∧
         s.bytesBut u [(8 * latGran (256 + spare) row 0, 32)] ∧
         u = { v with regs := u.regs, mem := u.mem, syn := u.syn, lat.copyAt := v.tickAfter s.lat.copyAt 640 }) ∧
     (¬copying ∨ row < 12288 → exec .spareSwitch s = .next s) ∧
     (copying → 12288 ≤ row → s.spareOf lb = none → ∃ u : State, exec .spareSwitch s = .next u ∧
       s.sets u [(LAT_SPARE.STATE spare, 2), (⟨LAT_SPARE_COPY.addr, 31, 0⟩, 0), (LAT_STAT.SPARE_BUSY, 0)] ∧
       u = { s.until s.nextBoundary with
         regs := u.regs, lat.homeOut := if lb ∈ s.lat.homeOut then s.lat.homeOut else s.lat.homeOut ++ [lb] }) ∧
     (s.rd SCH_STAT.STATE ≠ schStopped ∨ copying → entry = .next s) ∧
     (s.rd SCH_STAT.STATE = schStopped → ¬copying → isFree k → st = 2#2 → s.spareOf b.toNat = none →
       ∃ u : State, entry = .next u ∧ s.sets u [(⟨LAT_SPARE.addr k, 31, 0⟩, b.toNat + 2 ^ 31)] ∧
         u = { s with
           regs := u.regs
           lat.homeOut := if b.toNat ∈ s.lat.homeOut then s.lat.homeOut else s.lat.homeOut ++ [b.toNat] }) ∧
     (s.rd SCH_STAT.STATE = schStopped → ¬copying → isFree k → st = 3#2 →
       ∃ u : State, entry = .next u ∧ s.setsOnly u [(LAT_SPARE.STATE k, 3)]) ∧
     (s.rd SCH_STAT.STATE = schStopped → ¬copying → s.rd (LAT_SPARE.STATE k) = 3 → st = 0#2 →
       ∃ u : State, entry = .next u ∧ s.setsOnly u [(LAT_SPARE.STATE k, 0)]))

/-- R98 to R124, R149, R168: a launched chain's descriptor is fetched and checked, and a launch that fails is refused and
logged; its Cam table is loaded; a reader presents the elements at its addresses, a writer its items for the oldest beat
that awaits them, voted: a DUPLEX pair that differs stops with MISMATCH and stores nothing; a QSINK writer's messages wait
in the strand's input buffer; a stopped chain writes its outcome back once, its strands are freed and its fault or
completion is reported. Each access waits for a phase in which its class may issue. A message that finds its queue off is
dropped and counted. Where the spec leaves a point open, the statement follows the model's choices, log entries 69 and 74 to
78. -/
def Obligations.RibbonRuns : Prop :=
  ∀ (s v : State) (chain : BitVec 12) (r : RibRun) (port : Fin 4) (w : Fin 2) (diff : List StrandDiff) (dec : List StrandDec),
    s.live = true → s.sch.held = none → s.rd LAT_SPARE_COPY.ACTIVE = 0 →
    let n := chain.toNat
    let is (ph : RunPhase) : Prop := s.rib.runs = [r] ∧ r.chain = n ∧ r.phase = ph ∧ strandList r.strands ≠ []
    let none_ (ph : RunPhase) : Prop := ∀ x ∈ s.rib.runs, x.chain = n → x.phase ≠ ph
    let turn (write : Bool) : Prop := s.untilPhase (fun k => mayIssue k (r.cls write) 0) = some v
    let never (write : Bool) : Prop := s.untilPhase (fun k => mayIssue k (r.cls write) 0) = none
    let fetch := exec (.descriptorFetch chain dec) s
    let d := s.peekDesc n
    let desc : Prop := ∀ i, i < 8 → s.soundWord (8 * n + i)
    let caps := (upto 6).map (fun p => s.cctEntry (16 * dCwin d + slCidx d p))
    let checks (p : Nat) : Prop := slMode d p = modeOff ∨ s.streamCheck d p (caps.getD p Cap.null) = none
    let fault (u : State) (strands cause fidx addr stream tap : Nat) : Prop := s.rd RIB_FAULT_INFO.VALID = 0 →
      u.rdReg RIB_FAULT_INFO.addr = (n + strands * 2 ^ 20 + stream * 2 ^ 23 + cause * 2 ^ 26 + 2 ^ 31) % 2 ^ 32 ∧
      u.rdReg RIB_FAULT_IDX.addr = (fidx % 2 ^ 25 + tap * 2 ^ 25) % 2 ^ 32 ∧ u.rdReg RIB_FAULT_ADDR.addr = addr % 2 ^ 27
    let refused (res : Res) (cause strands fidx addr : Nat) : Prop := ∃ u : State, res = .next u ∧ u.rib.runs = [] ∧
      u.mem = s.mem ∧ fault u strands cause fidx addr 7 0 ∧ u.rd RIB_STAT.BUSY = 0
    let load := exec (.tableLoad ⟨chain, dec⟩) s
    let p := port.val
    let read := exec (.streamRead chain port dec) s
    let e := slEt r.desc p
    let at_ (k : Nat) : Nat := r.beatPos (r.nextUnit p).1 + k
    let a (k : Nat) : Int := slAddr r.desc p (at_ k)
    let inside (k : Nat) : Prop := dRidx r.desc ≤ at_ k ∧ at_ k < dLength r.desc
    let sl := 4 + w.val
    let et := slEt r.desc sl
    let write := exec (.streamWrite chain w diff) s
    let still : Prop := r.preempt = false ∧ (dLength r.desc ≤ r.beatPos r.beat ∨ ∃ q, q < 4 ∧ r.needs q = true)
    let writes (b : RibBeat) : Prop :=
      is .running ∧ turn true ∧ still ∧ r.beats = [b] ∧ b.left = [w.val] ∧ b.decs = [] ∧ slMode r.desc (5 - w.val) = modeOff
    let pair : Prop := strandList r.strands = [0, 1]
    let back := exec (.stopWriteBack chain diff) s
    let stopped : Prop := is .stopping ∧ turn true ∧ r.qlast = [] ∧ r.entry = none ∧ r.holds = true
    let merged (m v x : Nat) : Nat := Nat.lor (Nat.land x (2 ^ 256 - 1 - m)) (Nat.land v m)
    let sink := exec (.qsinkMessage chain w diff) s
    let mine (x : Nat × Nat × Nat × List Byte) : Bool := x.2.1 == 2 * n + w.val
    let off : Prop := s.rd QUE_CTL.EN = 0
    (none_ .launched ∨ (is .launched ∧ never false) → fetch = .next s) ∧
    (is .launched → turn false → desc → r.entry = none → dec = [] → descOk d r.soft = false →
      refused fetch 7 r.strands (dRidx d) 0) ∧
    (∀ x, is .launched → turn false → desc → r.entry = none → dec = [x] → x.bad = true → bitb r.strands x.strand = true →
      x.word < 8 → refused fetch 5 (2 ^ x.strand.val) 0 (256 * n + 32 * x.word + 8 * x.gran)) ∧
    (is .launched → turn false → desc → dec = [] → descOk d r.soft = true → (∀ q, q < 6 → checks q) → dRidx d ≠ dLength d →
      fetch = .next { v with rib.runs := [{ r with
        desc := d, caps := caps, phase := if dOp d 8 = 0 then .running else .table, beat := dRidx d / dN d, carry := startCarry d
        ocnt := if dRidx d = 0 then 0 else bits (dStat d) 63 39, done := startMark d }] }) ∧
    (∀ q c, is .launched → turn false → desc → dec = [] → descOk d r.soft = true → q < 6 → slMode d q ≠ modeOff →
      s.streamCheck d q (caps.getD q Cap.null) = some c → (∀ j, j < q → checks j) →
      ∃ (u : State) (x : RibRun), fetch = .next u ∧ u = { v with rib.runs := [x] } ∧ x.phase = .stopping ∧ x.desc = d ∧
        x.stop.end_ = 2 ∧ x.stop.cause = c ∧ x.stop.stream = q ∧ x.stop.ridx = dRidx d) ∧
    (none_ .table ∨ (is .table ∧ never false) → load = .next s) ∧
    (is .table → turn false → slCols r.desc 3 = 0 → dec = [] → ∃ (u : State) (x : RibRun), load = .next u ∧
      u = { v with rib.runs := [x] } ∧ x.phase = .stopping ∧ x.stop = ⟨2, 2, 3, r.ridxAt r.done.beat, dRidx r.desc, 0,
        slBase r.desc 3 % 2 ^ 27, r.strands⟩) ∧
    (none_ .running → read = .next s ∧ write = .next s) ∧
    (is .running → r.mayPresent p = false ∨ r.waitsFor p = true ∨ never false → read = .next s) ∧
    (is .running → still → turn false → r.mayPresent p = true → r.waitsFor p = false → r.beats = [] →
      r.beatPos r.done.beat < dLength r.desc → (∃ q, q < 4 ∧ q ≠ p ∧ r.needs q = true) → slMode r.desc p = modeLinear →
      etMask e = false → dWire r.desc 15 = 0 → dec = [] →
      (∀ k, k < dN r.desc → inside k → elemOk (r.caps.getD p Cap.null) (a k) (elemSz e) = true ∧ s.soundWord ((a k).toNat / 32)) →
      ∃ (u : State) (x : RdUnit), read = .next u ∧ x.decs = [] ∧
        u = { v with rib.runs := [{ r with reads := r.reads.set p (r.reads.getD p [] ++ [x]) }] } ∧
        (∀ k, k < dN r.desc → inside k →
          nth (x.vals.getD 0 []) k = s.word ((a k).toNat / 32) / 2 ^ (8 * ((a k).toNat % 32)) % 2 ^ etW e) ∧
        ∀ k, k < dN r.desc → ¬inside k → nth (x.vals.getD 0 []) k = 0) ∧
    (is .running → (∀ b ∈ r.beats, w.val ∉ b.left) ∨ never true → write = .next s) ∧
    (∀ b, is .running → turn true → still → r.beats = [b] → w.val ∈ b.left → b.left.erase w.val ≠ [] →
      write = .next { v with rib.runs := [{ r with
        beats := [{ b with left := b.left.erase w.val, diffs := b.diffs.set w.val diff }] }] }) ∧
    (∀ b i j x, writes b → diff = [] → b.items.getD w.val [] = [(i, j, x)] → slMode r.desc sl ≠ modeOff →
      slMode r.desc sl ≠ modeQsink → etMask et = false → s.lat.halves = [] →
      let dst := (slAddr r.desc sl i).toNat
      s.soundWord (dst / 32) → dst % 32 + elemSz et ≤ 32 → dst + elemSz et ≤ 0x6000000 →
      ∃ u : State, write = .next u ∧ u.regs = s.regs ∧ u.word (dst / 32) / 2 ^ (8 * (dst % 32)) % 2 ^ etW et = x % 2 ^ etW et ∧
        s.bytesBut u [(8 * s.wordGran (dst / 32) 0 + dst % 32, elemSz et)]) ∧
    (∀ b x rest, writes b → pair → b.diffs.length = 2 → r.proposals b w.val = x :: rest →
      proposalOf x diff 0 0 ≠ proposalOf x diff 1 0 → r.mmSent = 0 → r.retry = false → ∃ (u : State) (y : RibRun),
      write = .next u ∧ u = { v with regs := u.regs, rcv.mm := s.rcv.mm ++ [⟨n, r.strands, true, false, s.roundNo⟩], rib.runs := [y] } ∧
        y.phase = .stopping ∧ y.stop.end_ = 4 ∧ y.stop.stream = sl ∧ y.stop.ridx = r.ridxAt r.done.beat ∧
        u.rd RIB_VOTE_CNT.COUNT = s.more RIB_VOTE_CNT.COUNT) ∧
    (∀ b, writes b → diff = [] → slMode r.desc sl = modeQsink → etMask et = false → s.bufRoom r.lane (r.packs b w.val).1.length = true →
      ∃ u : State, write = .next u ∧ u.mem = s.mem ∧
        u.que.inbuf = s.que.inbuf ++ (r.packs b w.val).1.map (fun m => (r.lane, 2 * n + w.val, slQueue r.desc sl, m))) ∧
    (none_ .stopping ∨ (is .stopping ∧ (r.qlast ≠ [] ∨ never true)) → back = .next s) ∧
    (stopped → diff = [] → s.soundWord (8 * n + 1) → r.stop.end_ = 1 ∨ r.stop.end_ = 2 →
      ∃ u : State, back = .next u ∧ u.rib.runs = [] ∧ u.rd RIB_STAT.BUSY = 0 ∧
        u.word (8 * n + 1) = merged r.writeBack.1 r.writeBack.2 (s.word (8 * n + 1)) ∧
        s.bytesBut u [(8 * s.wordGran (8 * n + 1) 0, 32)] ∧
        (r.stop.end_ = 2 → fault u r.stop.strands r.stop.cause r.stop.fidx r.stop.addr r.stop.stream r.stop.tap) ∧
        (r.stop.end_ = 1 → s.regsBut u strandRegs ∧ u.rib.done = (if dDoneIe r.desc = true ∧ s.rib.done.length < 16 then
          s.rib.done ++ [n] else s.rib.done) ∧ u.rib.doneOvf = (s.rib.doneOvf || (dDoneIe r.desc && decide (16 ≤ s.rib.done.length))))) ∧
    (stopped → pair → wbDiff diff 0 ≠ wbDiff diff 1 → r.retry = false → r.mmSent = 0 → ∃ u : State, back = .next u ∧
      u.rib.runs = [] ∧ u.rd RIB_STAT.BUSY = 0 ∧ u.mem = s.mem ∧ u.rd RIB_VOTE_CNT.COUNT = s.more RIB_VOTE_CNT.COUNT ∧
      u.rcv.mm = s.rcv.mm ++ [⟨n, r.strands, true, false, s.roundNo⟩] ∧
      (r.soft = false → s.sch.retryq.length < 16 → u.sch.retryq = s.sch.retryq ++ [(n, r.strands)])) ∧
    ((∀ x ∈ s.que.inbuf, mine x = false) → none_ .stopping ∨ (is .stopping ∧ ∀ m ∈ r.qlast, m.1 ≠ w.val) → sink = .next s) ∧
    (∀ x, s.que.inbuf.find? mine = some x → none_ .running → off → ∃ u : State, sink = .next u ∧
      u.que.inbuf = s.que.inbuf.erase x ∧ u.rd QUE_DROP_CNT.COUNT = s.more QUE_DROP_CNT.COUNT ∧ u.mem = s.mem) ∧
    (∀ bs, (∀ x ∈ s.que.inbuf, mine x = false) → is .stopping → r.qlast = [(w.val, bs)] → bs.length = 64 → diff = [] → off →
      ∃ u : State, sink = .next u ∧ u.rib.runs = [{ r with qlast := [] }] ∧
        u.rd QUE_DROP_CNT.COUNT = s.more QUE_DROP_CNT.COUNT ∧ u.mem = s.mem)

/-- R113, R114, R126: LOAD starts a load of an image that lies in usable Bulk, COMMIT asks for the swap of a loaded table, each
refused with ERR otherwise; a finished load puts every tagged entry into the copy that is not active; RIB_DONE takes the
oldest completion; a lane map is accepted while the sequencer is STOPPED and no two spares serve one lane. Where the spec
leaves a point open, the statement follows the model's choices, log entry 79. -/
def Obligations.RibbonTables : Prop :=
  ∀ (s : State) (k : Fin 3) (v : BitVec 32),
    let base := s.cctBase
    let may : Prop := inBulk base 16384 = true ∧ s.rd RIB_CCT_CTL.BUSY = 0 ∧ s.rd RIB_CCT_CTL.CPEND = 0
    let sp (i : Nat) : Nat := bits v.toNat (8 * i + 7) (8 * i)
    let clash : Prop := ∃ i j, i < j ∧ j < 4 ∧ bitb (sp i) 7 = true ∧ bitb (sp j) 7 = true ∧ sp i % 64 = sp j % 64
    let map := exec (.lanemapWrite k v) s
    (may → ∃ u : State, exec .load s = .next u ∧ s.setsOnly u [(RIB_CCT_CTL.BUSY, 1)]) ∧
    (¬may → ∃ u : State, exec .load s = .next u ∧ s.setsOnly u [(RIB_CCT_CTL.ERR, 1)]) ∧
    (s.live = true → s.rd RIB_CCT_CTL.BUSY = 0 → exec .cctLoadDone s = .next s) ∧
    (s.live = true → s.rd RIB_CCT_CTL.BUSY = 1 → inBulk base 16384 = true → s.bulk.redir = [] →
      (∀ g, base / 8 ≤ g → g < base / 8 + 2048 → s.sound g) → ∃ u : State, exec .cctLoadDone s = .next u ∧
        s.sets u [(RIB_CCT_CTL.BUSY, 0)] ∧ (if s.rd RIB_CCT_CTL.ACT = 1 then u.rib.cct1 = s.rib.cct1 else u.rib.cct0 = s.rib.cct0) ∧
        u = { s with
          regs := u.regs, credit := u.credit, xw.turn := u.xw.turn, rib.cct0 := u.rib.cct0, rib.cct1 := u.rib.cct1, rib.loaded := true } ∧
        ∀ i, i < 1024 → SMap.get (fun _ => Cap.null) (if s.rd RIB_CCT_CTL.ACT = 1 then u.rib.cct0 else u.rib.cct1) i =
          if s.tagged (base + 16 * i) then ⟨BitVec.ofNat 128 (s.num (base + 16 * i) 16), true⟩ else Cap.null) ∧
    (s.rd RIB_CCT_CTL.CPEND = 1 → exec .commit s = .next s) ∧
    (s.rd RIB_CCT_CTL.CPEND = 0 → ∃ u : State, exec .commit s = .next u ∧
      s.setsOnly u [if s.rib.loaded then (RIB_CCT_CTL.CPEND, 1) else (RIB_CCT_CTL.ERR, 1)]) ∧
    (∀ c t, s.rib.done = c :: t → exec .ribDone s =
      .next { s with rib.done := t, resp := .data (toBytes 4 (c + b2n s.rib.doneOvf * 2 ^ 30 + 2 ^ 31)) }) ∧
    (s.rib.done = [] → exec .ribDone s =
      .next { s with rib.doneOvf := false, resp := .data (toBytes 4 (b2n s.rib.doneOvf * 2 ^ 30)) }) ∧
    (s.rd SCH_STAT.STATE ≠ schStopped ∨ clash → map = .next s) ∧
    (s.rd SCH_STAT.STATE = schStopped → ¬clash → ∃ u : State, map = .next u ∧
      s.setsOnly u ((⟨RIB_LANEMAP.addr k, 31, 0⟩, Nat.land v.toNat 0xBFBFBFBF) ::
        if (upto 4).any (fun i => bitb (sp i) 7 && !bitb (s.rdReg (RIB_LANEMAP.addr k)) (8 * i + 7))
          then [(RCV_STAT.DEG, 1)] else []))

/-- R195 to R203, R212: the codes of the voters in service are read: agreement on a slice records a mismatch and asks for a
resynchronisation, in DUPLEX it is a core reset, agreement on three ways and an alarm are core resets, an odd voter is
recorded; a resynchronisation pauses the slices for its copies and its restart counts it, retiring the slice left out; the
voters are tested at each whole second. R203 to R211, R216: a strand's mismatch is logged and counted, and a second one
within 1,000 rounds asks for a lane test, or for retirement after a test that passed; a test step runs in an OPEN rc while
no hard chain holds the strand, and the last one passes the strand, substitutes its failing lanes or retires it; parity
errors are logged, two of them and an expired Watcher call for a warm reset; RESYNC, LTEST and CLRHIST act as RCV_CMD asks.
R196, R197, R199, R202 to R205, R209 to R211, R216: where a command of the Recovery Controller completes, whatever slices,
voters and strands are in service. The voters' common code names a slice, and a resynchronisation is asked for; it pauses
the slices, and its restart ends it and is counted; a voter's test is counted; a mismatch is counted at its strands; a lane
test takes its step; the controller's own upsets are logged; an expired Watcher calls for a warm reset. Where the spec
leaves a point open, the statement follows the model's choices, log entries 4 and 22. -/
def Obligations.LockstepAndRecovery : Prop :=
  (∀ (s : State) (x : Fin 3) (c d : VCode) (failed : Fin 3) (tests : BitVec 9) (dist pass : Bool),
     s.live = true →
     s.rd RCV_STAT.VRET = 0 →
     let ok : Prop := s.rd RCV_STAT.LOCKSTEP_BROKEN = 0
     let votes : Prop := ok ∧ s.rcv.paused = none ∧ ∀ v, s.rcv.vtesting ≠ some (v, s.now)
     let vote (a b c : VCode) (al : Bool) := exec (.voterDisagreement a b c al) s
     let duplex : Prop := s.rd RCV_STAT.DUPLEX = 1
     let few : Prop := (s.rcv.resets.filter (fun t => decide (s.now ≤ t + 10000000000))).length < 3
     let core (res : Res) (cause : Nat) : Prop := ∃ u : State, res = .next u ∧ s.logs u 0x04 0 cause 0 ∧
       u.rd RCV_STAT.CORE_CAUSE = cause ∧ u.rd RCV_CORERST_CNT.COUNT = s.more RCV_CORERST_CNT.COUNT ∧
       s.calls u 1 (if cause = 2 then 5 else 13) ∧ u.rcv.resync = none ∧ u.rcv.paused = none ∧
       u.rd RCV_STAT.RESYNC = 0 ∧ u.mem = s.mem
     let lasting : Bool := s.mismatchedLately x
     let sync := exec (.resynchronisation ⟨failed, tests⟩) s
     let old : ResyncS := s.rcv.resync.getD ⟨none, 0⟩
     let test := exec (.voterSelfTest dist pass) s
     let k := match s.rcv.vtestAt with | some x => x.1 | none => max (s.rcv.vtests + 1) ((s.now + 999999999) / 1000000000)
     let due := match s.rcv.vtestAt with | some x => x.2 | none => k * 1000000000
     let at_ : State := { s.until (16 * due) with rcv.vtestAt := none, rcv.vtests := k }
     let restarts (u : State) (start tc : Nat) : Prop :=
       start + 16 * tc ≤ u.time + 16 * tc / 40000 + 1 ∧ u.time ≤ start + 16 * tc + 16 * tc / 40000 + 1
     (¬ok → vote c c d pass = .next s ∧ test = .next s) ∧
     (s.rcv.paused ≠ none → vote c c d pass = .next s) ∧
     (votes → vote .agree .agree .agree false = .next s) ∧
     (votes → ¬duplex → ∃ u : State, vote (.odd x) (.odd x) (.odd x) false = .next u ∧ s.logs u 0x01 x (b2n lasting) 0 ∧
       s.regsBut u [RCV_LOG_HEAD.addr] ∧ u = { s with
         regs := u.regs, rcv.log := u.rcv.log
         rcv.sliceAt := (x.val, s.now) :: s.rcv.sliceAt.filter (fun p => p.1 != x.val)
         rcv.resync := some ⟨if old.out.isSome then old.out else if lasting then some x.val else none, Nat.lor old.odd (2 ^ x.val)⟩ }) ∧
     (votes → few → duplex → core (vote (.odd x) (.odd x) (.odd x) false) 1) ∧
     (votes → few → core (vote .threeWay .threeWay .threeWay false) (if s.rd RCV_STAT.DUPLEX = 1 then 1 else 2)) ∧
     (votes → few → core (vote .agree .agree .agree true) 3) ∧
     (votes → ¬few → ∃ u : State, vote .threeWay .threeWay .threeWay false = .next u ∧ s.logs u 0x05 0 0 0 ∧ s.calls u 2 5) ∧
     (votes → c ≠ d → (∀ p ∈ s.rcv.voterAt, p.1 ≠ 0 ∨ p.2 + 10000000000 < s.now) → ∃ u : State, vote c d d false = .next u ∧
       s.logs u 0x06 0 (vcSlice c) 0 ∧ s.regsBut u [RCV_LOG_HEAD.addr] ∧ u = { s with
         regs := u.regs, rcv.log := u.rcv.log, rcv.voterAt := (0, s.now) :: s.rcv.voterAt.filter (fun p => p.1 != 0) }) ∧
     (s.rcv.resync = none ∨ s.rcv.paused ≠ none ∨ s.isOn DBG_STAT.HALTED = true → sync = .next s) ∧
     (∀ q, s.rcv.resync = some q → s.rcv.paused = none → s.isOn DBG_STAT.HALTED = false → failed.val < 2 →
       ∃ u : State, sync = .next u ∧ s.sets u [(RCV_STAT.RESYNC, 1)] ∧ u = { s with
         regs := u.regs
         rcv.paused := some ⟨s.time, (if q.out.isSome ∨ duplex then 1042 else 1043) + 1024 * failed.val, 1 + failed.val,
           tests.toNat⟩ }) ∧
     (s.rcv.resync ≠ none → s.rcv.paused = none → s.isOn DBG_STAT.HALTED = false → failed.val = 2 → few → core sync 5) ∧
     (s.rcv.resync = none ∨ s.rcv.paused = none → exec .resyncRestart s = .next s) ∧
     (∀ odd start tc n, s.rcv.resync = some ⟨none, odd⟩ → s.rcv.paused = some ⟨start, tc, n, 0⟩ → s.tri.wait = none →
       s.time ≤ start → ∃ u : State, exec .resyncRestart s = .next u ∧ restarts u start tc ∧
       State.logs { s with time := u.time } u 0x02 (s.sourceSlice odd) tc n ∧ u.rd RCV_STAT.RESYNC = 0 ∧
         u.rd RCV_STAT.LOCKSTEP_BROKEN = 0 ∧ u.rd RCV_STAT.SRET = s.rd RCV_STAT.SRET ∧
       u.rd RCV_RESYNC_CNT.COUNT = s.more RCV_RESYNC_CNT.COUNT ∧ u = { s with
         regs := u.regs, rcv.log := u.rcv.log, time := u.time, free := u.free, rcv.resync := none, rcv.paused := none }) ∧
     (∀ y odd start tc n, y < 3 → s.rcv.resync = some ⟨some y, odd⟩ → s.rcv.paused = some ⟨start, tc, n, 0⟩ → s.tri.wait = none →
       s.time ≤ start → ∃ u : State, exec .resyncRestart s = .next u ∧ restarts u start tc ∧
         u.rd RCV_STAT.SRET = Nat.lor (s.rd RCV_STAT.SRET) (2 ^ y) ∧ u.rd RCV_STAT.DUPLEX = 1 ∧
       u.rd RCV_STAT.DEG = 1 ∧ u.rcv.resync = none ∧ u.mem = s.mem) ∧
     (s.rd RCV_CTL.VTEST_EN = 0 → test = .next s) ∧
     (ok → s.rd RCV_CTL.VTEST_EN = 1 → dist = true → test =
       .next { at_ with rcv.vtestAt := some (k, due + 1024), rcv.vtesting := some (k % 3, at_.now) }) ∧
     (ok → s.rd RCV_CTL.VTEST_EN = 1 → dist = false → pass = true → ∃ u : State, test = .next u ∧
       at_.setsOnly u [(RCV_VTEST_CNT.COUNT, s.more RCV_VTEST_CNT.COUNT)]) ∧
     (ok → s.rd RCV_CTL.VTEST_EN = 1 → dist = false → pass = false → ∃ u : State, test = .next u ∧
       u.rd RCV_STAT.VRET = 2 ^ (k % 3) ∧ u.rd RCV_STAT.DEG = 1 ∧ u.rd RCV_VTEST_CNT.COUNT = s.more RCV_VTEST_CNT.COUNT ∧
       u.time = at_.time ∧ u.mem = s.mem)) ∧
  (∀ (s : State) (k : Fin 3) (m : BitVec 3) (found : LaneFinding),
     let st := s.strand k
     let others (u : State) : Prop := ∀ j, j < 3 → j ≠ k.val → u.strand j = s.strand j
     let step := exec (.testStep k found) s
     let ltest := exec (.ltest k) s
     let begun : LaneTest := ⟨false, 0, [], false⟩
     let lanes (t : LaneTest) : List Nat := match found with
       | .lanes l => (upto 68).filter (fun p => t.lanes.elem p || l.any (fun (x : Fin 68) => x.val == p))
       | _ => t.lanes
     let after (t : LaneTest) : LaneTest :=
       { t with steps := t.steps + 1, lanes := lanes t, shared := t.shared || (match found with | .shared => true | _ => false) }
     let clean (t : LaneTest) : Prop := (after t).shared = false ∧ (after t).lanes = []
     let mm (e : RibMm) (rest : List RibMm) (u : State) : Prop := exec .mismatchEvent s = .next u ∧ u.rcv.mm = rest ∧
       s.logs u 0x10 k e.chain e.round ∧ u.rd (RCV_RIB.MMCNT k) = s.more (RCV_RIB.MMCNT k) ∧ others u ∧ u.mem = s.mem
     (s.live = true → s.rcv.mm = [] → exec .mismatchEvent s = .next s) ∧
     (∀ e rest, s.live = true → s.rcv.mm = e :: rest → strandList e.strands = [k.val] → e.retry = false → e.pair = false →
       ∃ u : State, mm e rest u ∧ u.strand k =
         if bitb s.retired k = true ∨ st.retire ≠ none then { st with lastMm := some e.round }
         else if recentRound st.passed e.round = true then { st with lastMm := some e.round, retire := some 2 }
         else if st.test ≠ none ∨ recentRound st.lastMm e.round = false then { st with lastMm := some e.round }
         else { st with lastMm := some e.round, test := some begun }) ∧
     (s.live = true → st.test = none → step = .next s) ∧
     (∀ t, s.live = true → st.test = some t → t.running = false ∨ s.phaseKind ≠ 1 ∨ s.hardHolds k = true → step = .next s) ∧
     (∀ t, s.live = true → st.test = some t → t.running = true → s.phaseKind = 1 → s.hardHolds k = false → t.steps + 1 < 4096 →
       ∃ u : State, step = .next u ∧ u.strand k = { st with test := some (after t) } ∧ others u ∧ u.time = s.time + 10 ∧
         bitb (u.rd RCV_STAT.LTEST) k = true ∧ u.mem = s.mem ∧ s.regsBut u [RCV_STAT.addr, RCV_RIB.addr k]) ∧
     (∀ t, s.live = true → st.test = some t → t.running = true → s.phaseKind = 1 → s.hardHolds k = false → 4096 ≤ t.steps + 1 →
       clean t → ∃ u : State, step = .next u ∧ u.strand k = { st with test := none, passed := some s.roundNo } ∧ others u ∧
         State.logs { s with time := s.time + 10 } u 0x11 k 1 s.roundNo ∧ bitb (u.rd RCV_STAT.LTEST) k = false ∧ u.mem = s.mem) ∧
     (∀ t, s.live = true → st.test = some t → t.running = true → s.phaseKind = 1 → s.hardHolds k = false → 4096 ≤ t.steps + 1 →
       (after t).shared = true → ∃ u : State, step = .next u ∧
         u.strand k = { st with test := none, retire := some 0, passed := none } ∧ others u ∧ u.rd (RCV_RIB.PEND k) = 1 ∧
         State.logs { s with time := s.time + 10 } u 0x11 k 3 s.roundNo ∧ u.mem = s.mem) ∧
     (s.live = true → m = 0 → exec (.rcUpset m) s = .next s) ∧
     (∀ j, s.live = true → strandList m.toNat = [j] → ∃ u : State, exec (.rcUpset m) s = .next u ∧ s.logs u 0x30 j 0 0 ∧
       s.regsBut u [RCV_LOG_HEAD.addr] ∧ u = { s with regs := u.regs, rcv.log := u.rcv.log }) ∧
     (s.live = true → 2 ≤ popcount 3 m.toNat → ∃ u : State, exec (.rcUpset m) s = .next u ∧ s.calls u 2 6 ∧ u.mem = s.mem ∧
       u.rd RCV_LOG_HEAD.HEAD = (s.rd RCV_LOG_HEAD.HEAD + popcount 3 m.toNat) % 2 ^ 32) ∧
     (s.pwr.state ≠ .run ∨ s.rd DBG_STAT.FROST = 1 → exec .watcherExpiry s = .next s) ∧
     (s.pwr.state = .run → s.rd DBG_STAT.FROST = 0 → ∃ u : State, exec .watcherExpiry s = .next u ∧ s.calls u 2 4 ∧
       u.rd AOW_CNT.CNT = s.rd AOW_WLIM.W ∧ u = { s.fabUntil (16 * (s.icu.checkIn + 1000 * s.rd AOW_WLIM.W)) with
         regs := u.regs, rcv.wdt := true, pwr := u.pwr }) ∧
     exec .resync s = .next (if s.rd RCV_STAT.LOCKSTEP_BROKEN = 1 then
       { s with rcv.resync := some ⟨match s.rcv.resync with | some q => q.out | none => none, 0⟩ } else s) ∧
     (bitb s.retired k = true ∨ s.rd (RCV_RIB.PEND k) = 1 ∨ st.test ≠ none → ltest = .next s) ∧
     (bitb s.retired k = false → s.rd (RCV_RIB.PEND k) = 0 → st.test = none → ∃ u : State, ltest = .next u ∧
       u.strand k = { st with test := some begun } ∧ others u ∧ u.rd (RCV_RIB.PEND k) = 1 ∧ u.mem = s.mem) ∧
     ∃ u : State, exec .clrhist s = .next u ∧ u.rcv.sliceAt = [] ∧ u.rcv.voterAt = [] ∧ u.rcv.log = s.rcv.log ∧ u.mem = s.mem ∧
       ∀ j, j < 3 → u.strand j = { s.strand j with lastMm := none, passed := none }) ∧
  (∀ (s : State) (x : Fin 3) (k : Fin 3) (failed : Fin 3) (tests : BitVec 9) (m : BitVec 3) (found : LaneFinding),
     let ok : Prop := s.live = true ∧ s.rd RCV_STAT.LOCKSTEP_BROKEN = 0
     let test := match s.rcv.vtestAt with | some x => x.1 | none => max (s.rcv.vtests + 1) ((s.now + 999999999) / 1000000000)
     (ok → s.rcv.paused = none → s.rd RCV_STAT.DUPLEX = 0 → (∃ v, v < 3 ∧ s.voterOut v = false) → ∃ (u : State) (q : ResyncS),
       exec (.voterDisagreement (.odd x) (.odd x) (.odd x) false) s = .next u ∧ s.logs u 0x01 x (b2n (s.mismatchedLately x)) 0 ∧
       u.rcv.resync = some q ∧ bitb q.odd x = true ∧ (s.mismatchedLately x = true → q.out ≠ none)) ∧
     (∀ q, s.live = true → s.rcv.resync = some q → s.rcv.paused = none → s.rd DBG_STAT.HALTED = 0 → failed.val < 2 →
       ∃ (u : State) (pause : PauseS), exec (.resynchronisation ⟨failed, tests⟩) s = .next u ∧ u.rd RCV_STAT.RESYNC = 1 ∧
         u.rcv.paused = some pause ∧ pause.start = s.time ∧ pause.copies = 1 + failed.val) ∧
     (∀ q pause, s.live = true → s.rcv.resync = some q → s.rcv.paused = some pause → (∀ y, q.out = some y → y < 3) →
       ∃ u : State, exec .resyncRestart s = .next u ∧ u.rcv.resync = none ∧ u.rcv.paused = none ∧ u.rd RCV_STAT.RESYNC = 0 ∧
         u.rd RCV_STAT.LOCKSTEP_BROKEN = 0 ∧ u.rd RCV_RESYNC_CNT.COUNT = s.more RCV_RESYNC_CNT.COUNT ∧
         u.rd RCV_STAT.SRET = match q.out with | some y => Nat.lor (s.rd RCV_STAT.SRET) (2 ^ y) | none => s.rd RCV_STAT.SRET) ∧
     (ok → s.rd RCV_CTL.VTEST_EN = 1 → bitb (s.rd RCV_STAT.VRET) (test % 3) = false → ∃ u : State,
       exec (.voterSelfTest false true) s = .next u ∧ u.rd RCV_VTEST_CNT.COUNT = s.more RCV_VTEST_CNT.COUNT ∧ u.rcv.vtests = test) ∧
     (∀ e rest, s.live = true → s.rcv.mm = e :: rest → ∃ u : State, exec .mismatchEvent s = .next u ∧ u.rcv.mm = rest ∧
       ∀ j, j < 3 → (if bitb e.strands j = true then
         u.rd (RCV_RIB.MMCNT j) = s.more (RCV_RIB.MMCNT j) ∧ (u.strand j).lastMm = some e.round
         else u.rd (RCV_RIB.MMCNT j) = s.rd (RCV_RIB.MMCNT j) ∧ u.strand j = s.strand j)) ∧
     (∀ t, s.live = true → (s.strand k).test = some t → t.running = true → s.phaseKind = 1 → s.hardHolds k = false →
       ∃ u : State, exec (.testStep k found) s = .next u ∧ u.time = s.time + 10 ∧
         match (u.strand k).test with
         | some t' => t.steps + 1 < 4096 ∧ t'.steps = t.steps + 1 ∧ t'.running = true ∧ ∀ l ∈ t.lanes, l < 68 → l ∈ t'.lanes
         | none => 4096 ≤ t.steps + 1) ∧
     (s.live = true → ∃ u : State, exec (.rcUpset m) s = .next u ∧ u.mem = s.mem ∧
       u.rd RCV_LOG_HEAD.HEAD = (s.rd RCV_LOG_HEAD.HEAD + popcount 3 m.toNat) % 2 ^ 32 ∧
       (2 ≤ popcount 3 m.toNat → bitb (u.rd RST_CAUSE.CAUSE) 6 = true)) ∧
     (s.pwr.state = .run → s.rd DBG_STAT.FROST = 0 → ∃ u : State, exec .watcherExpiry s = .next u ∧
       bitb (u.rd RST_CAUSE.CAUSE) 4 = true ∧ u.rd AOW_CNT.CNT = s.rd AOW_WLIM.W ∧
       (0 ≤ (s.time : Int) + s.chn.fabOff → s.clocked = false → s.icu.checkIn + 1000 * s.rd AOW_WLIM.W ≤ u.refNow)) ∧
     (s.rd RCV_STAT.LOCKSTEP_BROKEN = 1 → ∃ (u : State) (q : ResyncS), exec .resync s = .next u ∧ u.rcv.resync = some q ∧ q.odd = 0) ∧
     (bitb s.retired k = false → s.rd (RCV_RIB.PEND k) = 0 → (s.strand k).test = none → ∃ (u : State) (t : LaneTest),
       exec (.ltest k) s = .next u ∧ (u.strand k).test = some t ∧ t.running = false ∧ t.steps = 0 ∧ u.rd (RCV_RIB.PEND k) = 1) ∧
     ∃ u : State, exec .clrhist s = .next u ∧ u.rcv.sliceAt = [] ∧ u.rcv.voterAt = [] ∧
       ∀ j, j < 3 → (u.strand j).lastMm = none ∧ (u.strand j).passed = none)

/-- R339, R340, R343 to R350, R361: a port comes up and its segment with it, or goes down, its frames lost; a good LACK ends a
frame, a bad one or 4 µs without one sends it once more, and then counts it as a link error; every frame received is
acknowledged, and, unless it repeats the last one, dropped, kept for this module or forwarded by its route. Where the spec
leaves a point open, the statement follows the model's choices, log entries 35, 36, 42, 45 and 88. -/
def Obligations.ChainLinks : Prop :=
  ∀ (s : State) (port : Fin 2) (lseq : BitVec 8) (bytes : List Byte),
    let p := port.val
    let up := if p = 0 then CHN_STAT.UP_U else CHN_STAT.UP_D
    let c := s.chnPort p
    let powered : Prop := s.chnPowered = true
    let topo (down : Nat) : Fld × Nat := (CHN_STAT.TOPO, if s.rd CHN_CTL.RING = 1 then 1 else if down = 0 then 0 else 2)
    let put (c' : ChnPort) : State := s.putChnPort p c'
    let oldest (x : TxFrame) : Prop := c.unacked.find? (fun y => y.lseq == lseq.toNat) = some x
    let marked (x : TxFrame) (t : Nat) : List TxFrame :=
      c.unacked.map (fun y => if y == x then { x with retried := true, sentAt := t } else y)
    let lack (t : State) (bad : Bool) : State := t.emits p [0x66, lseq, if bad then 1 else 0, 0, 0, 0, 0, 0]
    let seen : State := lack (put { c with rxLast := some lseq.toNat }) false
    let f := frameOf bytes
    let arrives (good : Bool) := exec (.frameForward port lseq bytes good) s
    (s.portUp p = true ∨ (s.pwr.state ≠ .run ∧ s.pwr.state ≠ .idle) → exec (.portUp port) s = .next s) ∧
    (∀ j, p = 0 → s.portUp 0 = false → s.pwr.state = .run → s.chnAddr ≠ 0 → s.segOf 0 = some j →
      ∃ u : State, exec (.portUp port) s = .next u ∧ u = { s with regs := u.regs, chn.down := u.chn.down } ∧
        (∀ i, bitb u.chn.down i = (bitb s.chn.down i && !(s.rd CHN_CTL.RING == 0 &&
          (i == j || (s.portUp 1 && s.segOf 1 == some i))))) ∧
        s.sets u [(CHN_STAT.UP_U, 1), (CHN_IRQ.LINK, 1), topo u.chn.down]) ∧
    (s.portUp p = false → exec (.segmentDown port) s = .next s) ∧
    (∀ j, s.portUp p = true → s.rd CHN_CTL.RING = 0 → s.segOf p = some j → c.waiting = [] →
      ∃ u : State, exec (.segmentDown port) s = .next u ∧
        u = { (put { c with unacked := [], waiting := [], fails := 0, rxLast := none }) with
          regs := u.regs, chn.down := u.chn.down } ∧
        (∀ i, bitb u.chn.down i = (i == j || (bitb s.chn.down i && !(s.portUp (1 - p) && s.segOf (1 - p) == some i)))) ∧
        s.sets u [(up, 0), (CHN_IRQ.LINK, 1), topo u.chn.down,
          (CHN_LOST_CNT.COUNT, min (s.rd CHN_LOST_CNT.COUNT + c.unacked.length) (2 ^ 32 - 1))]) ∧
    (¬powered → (∀ good, exec (.lack port lseq good) s = .next s) ∧ exec (.lackTimeout port) s = .next s) ∧
    ((∀ x ∈ c.unacked, x.lseq ≠ lseq.toNat) → ∀ good, exec (.lack port lseq good) s = .next s) ∧
    (∀ x, powered → oldest x → c.waiting = [] → exec (.lack port lseq true) s =
      .next (put { c with unacked := c.unacked.erase x, fails := 0 })) ∧
    (∀ x, powered → oldest x → x.retried = false → exec (.lack port lseq false) s =
      .next ((put { c with unacked := marked x s.fabNow }).emits p (frameBlock x.lseq x.frame))) ∧
    (∀ x, powered → oldest x → x.retried = true → c.fails < 2 → c.waiting = [] → ∃ u : State, exec (.lack port lseq false) s = .next u ∧
      State.setsOnly (put { c with unacked := c.unacked.erase x, fails := c.fails + 1 }) u
        [(CHN_LINKERR_CNT.COUNT, s.more CHN_LINKERR_CNT.COUNT)]) ∧
    (c.unacked = [] → exec (.lackTimeout port) s = .next s) ∧
    (∀ x, powered → firstSent c.unacked = some x → x.retried = false →
      let t := s.fabUntil (x.sentAt + 64000)
      exec (.lackTimeout port) s =
        .next ((t.putChnPort p { c with unacked := marked x t.fabNow }).emits p (frameBlock x.lseq x.frame))) ∧
    (∀ x, powered → firstSent c.unacked = some x → x.retried = true → c.fails < 2 → c.waiting = [] →
      ∃ u : State, exec (.lackTimeout port) s = .next u ∧
        State.setsOnly ((s.fabUntil (x.sentAt + 64000)).putChnPort p { c with unacked := c.unacked.erase x, fails := c.fails + 1 }) u
          [(CHN_LINKERR_CNT.COUNT, s.more CHN_LINKERR_CNT.COUNT)]) ∧
    (s.portUp p = false → ∀ g, arrives g = .next s) ∧
    (s.portUp p = true → arrives false = .next (lack s true)) ∧
    (s.portUp p = true → c.rxLast = some lseq.toNat → arrives true = .next (lack s false)) ∧
    (s.portUp p = true → c.rxLast ≠ some lseq.toNat → s.frameBad f = true → ∃ u : State, arrives true = .next u ∧
      seen.setsOnly u [(CHN_DROP_CNT.COUNT, s.more CHN_DROP_CNT.COUNT)]) ∧
    (s.portUp p = true → c.rxLast ≠ some lseq.toNat → s.frameBad f = false → f.cls = clsTime → f.enc = false → f.src = 0 →
      arrives true = .next { seen with chn.rx := s.chn.rx ++ [⟨p, f, f.body.take f.len, none, s.time⟩] }) ∧
    (s.portUp p = true → c.rxLast ≠ some lseq.toNat → s.frameBad f = false → f.hopLocal = false → s.chnAddr ≠ 0 →
      f.dst = s.chnAddr → f.cls = clsSnap → f.enc = false → s.rd CHN_STAT.CC_RESTART = 0 → s.rd DBG_STAT.FROST = 0 →
      arrives true = .next { seen with
        chn.rx := s.chn.rx ++ [⟨p, f, f.body.take f.len, none, s.time⟩]
        chn.epochs := if f.src = 0 then s.chn.epochs else SMap.set (fun _ => 0) s.chn.epochs f.src f.sepoch }) ∧
    (∀ q, s.portUp p = true → c.rxLast ≠ some lseq.toNat → s.frameBad f = false → f.hopLocal = false → s.chnAddr ≠ 0 →
      f.dst ≠ s.chnAddr → f.dst ≠ 255 → s.routeTo f.dst = some q → s.idlePort q → q ≠ p →
      arrives true = .next (seen.sent q f)) ∧
    (s.portUp p = true → c.rxLast ≠ some lseq.toNat → s.frameBad f = false → f.hopLocal = false → s.chnAddr ≠ 0 →
      f.dst ≠ s.chnAddr → f.dst ≠ 255 → s.routeTo f.dst = none → arrives true = .next seen)

/-- R358, R359, R366: PDREQ is sent, answered and measured into the link delay, the mean of the last 8; the head sends SYNC; at
a SYNC on the time port the offset is kept, the master copy is stepped while the sequencer is STOPPED and the offset exceeds
1 µs, and LOCK follows the offset and is lost without a SYNC; a listening head takes a locked neighbour's time, and CHN_TSET
sets it. Where the spec leaves a point open, the statement follows the model's choices, log entries 41, 81 and 88. -/
def Obligations.ChainTime : Prop :=
  ∀ (s : State) (port : Fin 2) (seq : BitVec 16) (turn t4 stamp res : BitVec 64) (hi : BitVec 32),
    let p := port.val
    let c := s.chnPort p
    let mark (t : State) (kind n : Nat) : State := t.emits p ([0x4B, BitVec.ofNat 8 kind] ++ toBytes 2 n ++ [0, 0, 0, 0])
    let pd (r : RxFrame) : Bool := r.port == p && r.frame.cls == clsTime && r.frame.sub == 1
    let sy (r : RxFrame) : Bool := r.port == p && r.frame.cls == clsTime && r.frame.sub == 0
    let off (r : RxFrame) : Int := stamp.toNat - (16 * (r.frame.h2 : Int) + asInt (ofBytes (r.text.take 8)) 64 + s.linkDelay p)
    let stepped (t : State) (x : Nat) : State :=
      { t with
        chn.fabOff := t.chn.fabOff + t.time - x, sch.roundStart := x / s.roundLen * s.roundLen
        lat.scrubAt := t.lat.scrubAt + x - t.time, lat.copyAt := t.lat.copyAt + x - t.time, time := x }
    let sync := exec (.timeSync port stamp res) s
    let steers (u : State) : List (Fld × Nat) := [(CLK_RSTEER.STEER, u.rd CLK_RSTEER.STEER), (CLK_REFERR.ERR, u.rd CLK_REFERR.ERR)]
    let unlock : List (Fld × Nat) := if s.rd CHN_STAT.LOCK = 1 then [(CHN_STAT.LOCK, 0), (CHN_IRQ.LOCK, 1)] else []
    (s.portUp p = false → exec (.peerDelay port) s = .next s ∧ exec (.pdreq port seq turn) s = .next s) ∧
    (s.portUp p = true → exec (.peerDelay port) s =
      .next (mark (s.putChnPort p { c with pdSeq := (c.pdSeq + 1) % 65536, t1 := s.fabNow }) 1 c.pdSeq)) ∧
    (s.idlePort p → exec (.pdreq port seq turn) s =
      .next ((mark s 2 seq.toNat).posts p clsTime 0 0 1 0 0 (toBytes 8 turn.toNat))) ∧
    ((∀ r ∈ s.chn.rx, pd r = false) → exec (.pdresp port t4) s = .next s) ∧
    (∀ r, s.chn.rx.find? pd = some r →
      let d : Int := (((t4.toNat : Int) - c.t1) - asInt (ofBytes (r.text.take 8)) 64) / 2
      let l := (d :: c.delays).take 8
      ∃ u : State, exec (.pdresp port t4) s = .next u ∧ State.setsOnly ((s.consumed r).putChnPort p { c with delays := l }) u
        [(if p = 0 then CHN_TDLY_U.DELAY else CHN_TDLY_D.DELAY, ofInt (l.foldl (· + ·) 0 / (l.length : Int)) 32)]) ∧
    (s.isHead = false → exec .syncSend s = .next s) ∧
    (∀ j, s.isHead = true → s.portUp 0 = false → s.idlePort 1 → s.segOf 1 = some j → s.segOpen j = true → p = 1 →
      exec .syncSend s = .next ((mark (s.putChnPort 1 { c with pdSeq := (c.pdSeq + 1) % 65536 }) 0 c.pdSeq).posts 1 clsTime 0 0 0 0
        s.now (toBytes 8 (s.time % 16)))) ∧
    ((∀ r ∈ s.chn.rx, sy r = false) → sync = .next s) ∧
    (∀ r, s.chn.rx.find? sy = some r → s.timePort ≠ some p → sync = .next (s.consumed r)) ∧
    (∀ r, s.chn.rx.find? sy = some r → s.timePort = some p → s.portUp (1 - p) = false → s.rd SCH_STAT.STATE = schStopped →
      16000 < (off r).natAbs → ∃ u : State, sync = .next u ∧ u.time = ((s.time : Int) - off r).toNat ∧
        s.sets u ((CHN_TOFF.OFFSET, ofInt (off r) 32) :: steers u ++ unlock) ∧
        u = { (stepped (s.consumed r) ((s.time : Int) - off r).toNat) with
          regs := u.regs, chn.good := 0, chn.syncAt := u.refNow, free := u.free }) ∧
    (∀ r, s.chn.rx.find? sy = some r → s.timePort = some p → s.portUp (1 - p) = false → (off r).natAbs ≤ 64 →
      ∃ u : State, sync = .next u ∧ u.time = s.time ∧ u.rd CHN_TOFF.OFFSET = ofInt (off r) 32 ∧
        u.chn.good = min 16 (s.chn.good + 1) ∧ u.chn.rx = s.chn.rx.erase r ∧
        u.rd CHN_STAT.LOCK = (if 15 ≤ s.chn.good then 1 else s.rd CHN_STAT.LOCK) ∧ u.mem = s.mem) ∧
    (s.isHead = true → exec .syncTimeout s = .next s) ∧
    (s.isHead = false → ∃ u : State, exec .syncTimeout s = .next u ∧
      State.setsOnly { s.fabUntil (16 * (s.chn.syncAt + 2000000)) with chn.good := 0 } u unlock) ∧
    (s.chn.listen = none → exec .helloListen s = .next s) ∧
    (∀ e, s.chn.listen = some (e, none) → exec .helloListen s =
      .next { s.fabUntil (16 * e) with chn.listen := none }) ∧
    (∀ e o, s.chn.listen = some (e, some o) → s.rd SCH_STAT.STATE = schStopped → exec .helloListen s =
      .next (stepped { s.fabUntil (16 * e) with chn.listen := none } (((s.fabUntil (16 * e)).time : Int) + o).toNat)) ∧
    (∀ e o, s.chn.listen = some (e, some o) → s.rd SCH_STAT.STATE ≠ schStopped → ∃ u : State, exec .helloListen s = .next u ∧
      State.setsOnly { s.fabUntil (16 * e) with chn.listen := none, free := u.free } u (steers u)) ∧
    (s.isHead = false ∨ s.rd SCH_STAT.STATE ≠ schStopped → exec (.chnTset hi) s = .next s) ∧
    (s.isHead = true → s.rd SCH_STAT.STATE = schStopped → ∃ u : State, exec (.chnTset hi) s = .next u ∧
      s.sets u [(CHN_TSET_HI.T, hi.toNat)] ∧
      u = { (stepped s (16 * (s.rd CHN_TSET_LO.T + hi.toNat * 2 ^ 32))) with regs := u.regs })

/-- R342, R346, R352 to R354, R361, R364: enumeration gives a module the address it is told and passes the next one on, and ends
at the head; TOPO and TRUST of a higher generation are taken; a challenged module answers with its certificate and
signature, and the head marks a module whose answer verifies; WAKE ends Idle; RESET calls for a reset at its instant. Where
the spec leaves a point open, the statement follows the model's choices, log entries 37, 38, 43, 84, 85 and 93. -/
def Obligations.ChainManagement : Prop :=
  ∀ (s : State), s.rd DBG_STAT.FROST = 0 → s.rd CHN_STAT.CC_RESTART = 0 →
    let none_ (k : Nat) : Prop := ∀ r ∈ s.chn.rx, r.frame.mgmt k = false
    let got (k : Nat) (r : RxFrame) : Prop := s.chn.rx.find? (fun r => r.frame.mgmt k) = some r
    let takes (n : Nat) : List (Fld × Nat) := if s.chnAddr = n then [] else [(CHN_ADDR.ADDR, n), (CHN_IRQ.ENUM, 1),
      (CHN_EPOCH.EPOCH, if (s.rd CHN_EPOCH.EPOCH + 1) % 65536 = 0 then 1 else s.rd CHN_EPOCH.EPOCH + 1)]
    let keys (n : Nat) : List SessKey := if s.chnAddr = n then s.chn.keys else []
    let sess (n : Nat) : List SessX := if s.chnAddr = n then s.chn.sess else []
    let ends (res : Res) (n : Nat) : Prop := ∃ u : State, res = .next u ∧ u.rd CHN_STAT.ENUM_BUSY = 0 ∧ u.rd CHN_ADDR.COUNT = n ∧
      u.rd CHN_ADDR.UNUSED = (if s.isRing then n else 0) ∧ u.rd CHN_IRQ.LINK = 1 ∧ u.chn.topoGen = s.chn.topoGen + 1 ∧
      u.out = s.out ∧ u.mem = s.mem
    let trust (m : Nat) (u : State) : Prop := u.trustMap = m ∧ (u.rd CHN_STAT.TRUSTED = b2n (bitb m s.chnAddr))
    (s.isHead = false → exec .enum s = .next s) ∧
    (s.isHead = true → s.chnAlone → ends (exec .enum s) 1) ∧
    (s.isHead = true → s.idlePort 1 → ∃ (u t : State), exec .enum s = .next u ∧ s.sets t ((CHN_STAT.ENUM_BUSY, 1) :: takes 1) ∧
      t = { s with regs := t.regs, chn.excess := false, chn.keys := keys 1, chn.sess := sess 1 } ∧
      u = t.posts 1 clsMgmt 0 0 0 0 2 []) ∧
    (none_ 0 → exec .mgmtEnum s = .next s) ∧
    (∀ r, got 0 r → s.isHead = false → r.port = 0 → 1 ≤ bits r.frame.h2 7 0 → bits r.frame.h2 7 0 < 250 → s.idlePort 1 →
      let n := bits r.frame.h2 7 0
      ∃ (u t : State), exec .mgmtEnum s = .next u ∧ s.sets t (takes n) ∧
        t = { (s.consumed r) with regs := t.regs, chn.keys := keys n, chn.sess := sess n } ∧
        u = t.posts 1 clsMgmt 0 0 0 0 (n + 1) []) ∧
    (∀ r, got 0 r → s.isHead = true → s.chnAlone → r.port = 0 → ends (exec .mgmtEnum s) (bits r.frame.h2 7 0 - 1)) ∧
    (none_ 1 → exec .hello s = .next s) ∧
    (∀ r, got 1 r → s.isHead = false → exec .hello s = .next (s.consumed r)) ∧
    (∀ r, got 1 r → s.isHead = true → r.frame.src ≠ 0 → s.chnAlone → ∃ (u : State) (nonce : List Byte), exec .hello s = .next u ∧
      nonce.length = 32 ∧ u = { (s.consumed r) with
        free := u.free, chn.tag := u.chn.tag, chn.certs := s.chn.certs.filter (fun x => x.1 != r.frame.src)
        chn.nonces := (r.frame.src, nonce) :: s.chn.nonces.filter (fun x => x.1 != r.frame.src)
        chn.listen := match s.chn.listen with
          | some (e, none) => some (e, if bitb r.frame.arg 0 then
              some (16 * (r.frame.h2 : Int) + s.linkDelay r.port - r.at16) else none)
          | l => l }) ∧
    (∀ r, got 1 r → s.isHead = true → r.frame.src = 0 → s.chnAlone → ends (exec .hello s) 1) ∧
    (none_ 2 → exec .enumEnd s = .next s) ∧
    (∀ r, got 2 r → s.isHead = false ∨ s.rd CHN_STAT.ENUM_BUSY = 0 → exec .enumEnd s = .next (s.consumed r)) ∧
    (∀ r, got 2 r → s.isHead = true → s.rd CHN_STAT.ENUM_BUSY = 1 → s.chnAlone →
      ends (exec .enumEnd s) (bits r.frame.arg 7 0)) ∧
    (none_ 3 → exec .topo s = .next s) ∧
    (∀ r, got 3 r → bits r.frame.h2 39 8 ≤ s.chn.topoGen → exec .topo s = .next (s.consumed r)) ∧
    (∀ r, got 3 r → s.chn.topoGen < bits r.frame.h2 39 8 → s.rd CHN_ADDR.COUNT = bits r.frame.arg 7 0 →
      let down := s.segsUp (ofBytes (r.text.take 32))
      ∃ u : State, exec .topo s = .next u ∧ s.sets u [(CHN_ADDR.UNUSED, bits r.frame.h2 7 0), (CHN_IRQ.LINK, 1),
          (CHN_ADDR.COUNT, bits r.frame.arg 7 0), (CHN_STAT.TOPO, if s.isRing then 1 else if down = 0 then 0 else 2)] ∧
        u = { (s.consumed r) with regs := u.regs, chn.topoGen := bits r.frame.h2 39 8, chn.down := down }) ∧
    (none_ 4 → exec .chal s = .next s) ∧
    (∀ r, got 4 r → s.keyUsable = false → exec .chal s = .next (s.consumed r)) ∧
    (∀ r p, got 4 r → s.keyUsable = true → s.sec.cert ≠ [] → r.frame.src ≠ 255 → s.routeTo r.frame.src = some p → s.idlePort p →
      let msg := r.text ++ toBytes 1 s.chnAddr ++ toBytes 2 (s.rd CHN_EPOCH.EPOCH) ++ toBytes 8 s.sec.serial.toNat
      let parts := chunksOf 256 (s.sec.cert ++ Config.deviceSign msg)
      ∃ (u : State) (later : List Out), exec .chal s = .next u ∧ u.regs = s.regs ∧ u.mem = s.mem ∧
        u.out = (State.posts (s.consumed r) p clsMgmt r.frame.src (s.epochOf r.frame.src) 5 (parts.length * 256) 0
          (parts.headD [])).out ++ later) ∧
    (none_ 5 → exec .cert s = .next s) ∧
    (∀ r, got 5 r → (∀ x ∈ s.chn.nonces, x.1 ≠ r.frame.src) → exec .cert s = .next (s.consumed r)) ∧
    (∀ r nonce, got 5 r → s.chn.nonces.find? (fun x => x.1 == r.frame.src) = some (r.frame.src, nonce) →
      bits r.frame.arg 15 8 = 1 → bits r.frame.arg 7 0 = 0 → s.isHead = true → s.chnAlone → r.frame.src < 251 →
      ∃ u : State, exec .cert s = .next u ∧ u.chn.nonces = s.chn.nonces.filter (fun x => x.1 != r.frame.src) ∧ u.out = s.out ∧
        (if Config.certVerify s.trustAnchor.1 r.text nonce r.frame.src r.frame.sepoch = true then
            trust (Nat.lor s.trustMap (Nat.lor (2 ^ r.frame.src) 2)) u ∧ u.chn.trustGen = s.chn.trustGen + 1
          else u.regs = s.trustAnchor.2.regs ∧ u.chn.trustGen = s.chn.trustGen)) ∧
    (none_ 6 → exec .trust s = .next s) ∧
    (∀ r, got 6 r → r.frame.h2 ≤ s.chn.trustGen → exec .trust s = .next (s.consumed r)) ∧
    (∀ r, got 6 r → s.chn.trustGen < r.frame.h2 → ∃ u : State, exec .trust s = .next u ∧
      trust (ofBytes (r.text.take 32)) u ∧ u = { (s.consumed r) with regs := u.regs, chn.trustGen := r.frame.h2 }) ∧
    (none_ 7 → exec .mgmtWake s = .next s) ∧
    (∀ r, got 7 r → s.trusted r.frame.src = false → exec .mgmtWake s = .next (s.consumed r)) ∧
    (∀ r, got 7 r → s.trusted r.frame.src = true → bits r.frame.arg 7 0 = s.chnAddr → exec .mgmtWake s =
      .next (if s.pwr.state = .idle then { (s.consumed r) with pwr.wakeChain := true } else s.consumed r)) ∧
    exec .wakeU s = .next { s with out := s.out ++ [(⟨.chainU, 1, s.time, [0x00, 0xFF]⟩ : Out)] } ∧
    exec .wakeD s = .next { s with out := s.out ++ [(⟨.chainD, 1, s.time, [0x00, 0xFF]⟩ : Out)] } ∧
    (none_ 8 → exec .mgmtReset s = .next s) ∧
    (∀ r, got 8 r → exec .mgmtReset s = .next { (s.consumed r) with
      chn.rst := some (bits r.frame.arg 1 0 + 1, Nat.max s.now (ofBytes (r.text.take 8))) }) ∧
    (s.chn.rst = none → exec .resetInstant s = .next s) ∧
    (∀ k t, s.chn.rst = some (k, t) → s.pwr.state = .run → ∃ u : State, exec .resetInstant s = .next u ∧ s.calls u k 7 ∧
      u = { s.until (16 * t) with regs := u.regs, pwr := u.pwr, chn.rst := none } ∧ s.regsBut u [RST_CAUSE.addr])

/-- R350, R351, R356, R357, R362, R365, R366, R449 to R451, R466: a session offer that fails its checks is counted, one that
passes is answered and remembered, and a key is installed exactly where the peer's signature verifies; a remote message goes
to its mailbox or queue when the ACL covers it, and is refused with a NAK otherwise, which is logged where it arrives; a
snapshot is pending until its instant, at which the blocks latch their counters; the Chain Controller restarts at a
mismatch; a debug answer reaches its module. Where the spec leaves a point open, the statement follows the model's choices,
log entries 30, 34, 38, 40, 43 and 92. -/
def Obligations.ChainServices : Prop :=
  ∀ (s : State) (r : RxFrame) (id : BitVec 16), s.rd DBG_STAT.FROST = 0 → s.rd CHN_STAT.CC_RESTART = 0 →
    let first (want : RxFrame → Bool) : Prop := s.chn.rx.find? want = some r
    let none_ (want : RxFrame → Bool) : Prop := ∀ x ∈ s.chn.rx, want x = false
    let step (k : Nat) (x : RxFrame) : Bool := x.frame.mgmt 10 && bits x.frame.arg 7 0 == k
    let post (x : RxFrame) : Bool := x.frame.cls == clsMsg && x.frame.sub == 0
    let enq (x : RxFrame) : Bool := x.frame.cls == clsMsg && x.frame.sub == 1
    let nak (x : RxFrame) : Bool := x.frame.cls == clsNak
    let snap (x : RxFrame) : Bool := x.frame.cls == clsSnap
    let reply (x : RxFrame) : Bool := x.frame.cls == clsDebug && x.frame.sub == 1
    let batch (x : RxFrame) : Bool := x.frame.cls == clsDebug && x.frame.sub == 0
    let a := r.frame.src
    let failed (res : Res) : Prop := ∃ u : State, res = .next u ∧
      (s.consumed r).setsOnly u [(CHN_AUTHFAIL_CNT.COUNT, s.more CHN_AUTHFAIL_CNT.COUNT)]
    let k := ofBytes ((r.text.drop 96).take 1)
    let allow := if a = 1 then SEC_SESSCTL.ALLOW_HEAD else SEC_SESSCTL.ALLOW_OTHER
    let grantable : Prop := s.trusted a = true ∧ r.frame.len = 98 ∧ k ≠ 0 ∧ s.keyUsable = true
    let installed (x : SessX) : List SessKey :=
      let l := s.chn.keys.filter (fun y => !(y.peer == x.peer && y.num == x.num))
      (if l.length < 16 then l else l.drop 1) ++ [s.sessKeyOf x]
    let refuses (res : Res) (reason : Nat) : Prop := ∀ p, s.routeTo a = some p → s.idlePort p → a ≠ 255 → a ≠ 0 → r.frame.dst ≠ 255 →
      res = .next ((s.consumed r).posts p clsNak a r.frame.sepoch 0 (r.frame.tag + clsMsg * 2 ^ 16 + reason * 2 ^ 20) 0 [])
    let n := bits r.frame.arg 5 0
    let q := bits r.frame.arg 19 0
    let msg := if r.frame.enc then r.text.drop 8 else r.text
    let bells := if r.frame.enc then ofBytes (r.text.take 4) else r.frame.h2
    let t := s.rd2 CHN_SNAP_T_LO.T CHN_SNAP_T_HI.T
    let late : List (Fld × Nat) := [(CHN_SNAP_STAT.LATE, 1), (CHN_IRQ.SNAP, 1)]
    let ovr : List (Fld × Nat) := if s.chn.snap = none then [] else [(CHN_SNAP_STAT.OVR, 1)]
    (none_ (step 1) → exec .sessionOffer s = .next s) ∧
    (first (step 1) → ¬grantable → failed (exec .sessionOffer s)) ∧
    (first (step 1) → grantable → (∀ x ∈ s.chn.sess, x.peer ≠ a ∨ x.initiator = false) → s.routeTo a = none → a ≠ 255 →
      ∃ (u : State) (x : SessX), exec .sessionOffer s = .next u ∧ u.chn.rx = s.chn.rx.erase r ∧ u.free = s.free + 2 ∧
        u.chn.sess = x :: s.chn.sess.filter (fun y => !(y.peer == a && !y.initiator)) ∧ u.regs = s.regs ∧ x.peer = a ∧
        x.initiator = false ∧ x.num = k ∧ x.rights = Nat.land (ofBytes ((r.text.drop 97).take 1)) (s.rd allow) ∧ x.eph = s.free ∧
        x.bytes.take r.text.length = r.text) ∧
    (none_ (step 2) → exec .sessionAccept s = .next s) ∧
    (∀ x, first (step 1) → grantable → s.chn.sess.find? (fun y => y.peer == a && y.initiator && y.num == k) = some x → s.chnAddr < a →
      exec .sessionOffer s = .next (s.consumed r)) ∧
    (first (step 2) → s.findSess a true = none → failed (exec .sessionAccept s)) ∧
    (∀ x, first (step 2) → s.findSess a true = some x → s.trusted x.peer = true → r.frame.len = 161 → s.keyUsable = true →
      s.routeTo x.peer = none → x.peer ≠ 255 → ∃ u : State, exec .sessionAccept s = .next u ∧
        u.chn.sess = s.chn.sess.filter (· != x) ∧ u.chn.rx = s.chn.rx.erase r ∧ u.chn.keys =
          if Config.peerVerify x.peer (x.bytes ++ r.text.take 97) (r.text.drop 97) = true then
            installed { x with bytes := x.bytes ++ r.text, rights := ofBytes ((r.text.drop 96).take 1) }
          else s.chn.keys) ∧
    (none_ (step 3) → exec .sessionConfirm s = .next s) ∧
    (first (step 3) → s.findSess a false = none → failed (exec .sessionConfirm s)) ∧
    (∀ x, first (step 3) → s.findSess a false = some x → s.trusted x.peer = true → r.frame.len = 64 → ∃ u : State, exec .sessionConfirm s = .next u ∧
      u.chn.sess = s.chn.sess.filter (· != x) ∧ u.chn.rx = s.chn.rx.erase r ∧
      (if Config.peerVerify x.peer x.bytes r.text = true then u.chn.keys = installed x ∧ u.regs = s.regs
        else u.chn.keys = s.chn.keys ∧ u.rd CHN_AUTHFAIL_CNT.COUNT = s.more CHN_AUTHFAIL_CNT.COUNT)) ∧
    (none_ post → exec .msgPost s = .next s) ∧
    (first post → s.aclCovers 0 a n = false → refuses (exec .msgPost s) nakDenied) ∧
    (first post → s.aclCovers 0 a n = true → 32 ≤ n → r.frame.enc = false → refuses (exec .msgPost s) nakSecure) ∧
    (first post → s.aclCovers 0 a n = true → n < 32 ∨ r.frame.enc = true → s.rd (MBX_CFG.SENDER n) = 1 →
      ∃ u : State, exec .msgPost s = .next u ∧ (s.consumed r).setsOnly u ([(MBX_DB.DB n, Nat.lor (s.rd (MBX_DB.DB n)) bells % 2 ^ 32),
        (if s.rd (MBX_STAT.FULL n) = 1 then MBX_STAT.COLLIDE n else MBX_STAT.FULL n, 1)] ++
        (upto 16).flatMap (fun w => [(MBX_TX.DATA n w, ofBytes ((msg.drop (4 * w)).take 4)),
          (MBX_RX.DATA n w, ofBytes ((msg.drop (4 * w)).take 4))]))) ∧
    (none_ enq → exec .msgEnq s = .next s) ∧
    (first enq → s.aclCovers 1 a q = false → refuses (exec .msgEnq s) nakDenied) ∧
    (∀ d, first enq → s.aclCovers 1 a q = true → r.frame.len = 64 → r.text.length = 64 → s.queueAt q d → d.depth < d.n →
      s.queCached q = true → ∃ u : State, exec .msgEnq s = .next u ∧ u.chn.rx = s.chn.rx.erase r ∧
        u.bytes (d.slotAddr ((d.head + d.depth) % d.n)) 64 = r.text ∧
        (qdescOf (u.bytes (s.queDescAddr q) 32)).depth = d.depth + 1 ∧ u.rd QUE_OPS_CNT.COUNT = s.more QUE_OPS_CNT.COUNT ∧
        s.bytesBut u [(d.slotAddr ((d.head + d.depth) % d.n), 64), (s.queDescAddr q, 32)]) ∧
    (none_ nak → exec .nak s = .next s) ∧
    (first nak → ∃ u : State, exec .nak s = .next u ∧ (s.consumed r).setsOnly u
      [(CHN_NAK_CNT.COUNT, s.more CHN_NAK_CNT.COUNT), (CHN_NAKLOG.ARG, r.frame.arg), (CHN_IRQ.NAK, 1)]) ∧
    (∃ (ct : Nat) (u : State), s.now ≤ ct + 6 ∧ ct ≤ s.now - 2 ∧ exec (.snapshotRequest id) s = .next u ∧
      (t < ct + 50000 → State.setsOnly { s with free := s.free + 1 } u ((CHN_SNAP_CMD.ID, id.toNat) :: late)) ∧
      (ct + 50000 ≤ t → s.chnAlone → s.sets u ([(CHN_SNAP_CMD.ID, id.toNat), (CHN_SNAP_STAT.PEND, 1)] ++ ovr) ∧
        u = { s with
          regs := u.regs, free := s.free + 1, chn.snap := some (t, id.toNat), chn.tag := (s.chn.tag + 1) % 65536 })) ∧
    (none_ snap → exec .snap s = .next s) ∧
    (first snap → r.frame.h2 ≤ s.now → ∃ u : State, exec .snap s = .next u ∧ (s.consumed r).setsOnly u late) ∧
    (first snap → s.now < r.frame.h2 → ∃ u : State, exec .snap s = .next u ∧ s.sets u ((CHN_SNAP_STAT.PEND, 1) :: ovr) ∧
      u = { (s.consumed r) with regs := u.regs, chn.snap := some (r.frame.h2, bits r.frame.arg 15 0) }) ∧
    (s.chn.snap = none → exec .snapshotStrobe s = .next s) ∧
    (∀ at_ i, s.chn.snap = some (at_, i) → ∃ u : State, exec .snapshotStrobe s = .next u ∧
      u = { s.until ((16 * at_ + 9) / 10 * 10) with regs := u.regs, chn.snap := none } ∧
      s.sets u ([(CHN_SNAP_STAT.PEND, 0), (CHN_SNAP_STAT.DONE, 1), (CHN_SNAP_STAT.ID, i % 2 ^ 16), (CHN_IRQ.SNAP, 1),
          (CHN_SNAP_STAT.UNLOCKED, 1 - s.rd CHN_STAT.LOCK)] ++
        (upto 64).flatMap (fun b => (upto 16).map (fun k => (FLD_PSNAP.SNAP b k, s.rd (FLD_PCNT.COUNT b k)))) ++
        (upto 8).map (fun c => (CAM_FSNAP.SNAP c, s.rd (CAM_FCNT.COUNT c))))) ∧
    (∃ u : State, exec .chainCtrlMm s = .next u ∧ s.logs u 0x32 0 0 0 ∧ u.rd CHN_STAT.CC_RESTART = 1 ∧ u.mem = s.mem ∧
      ∀ c, c < 64 → s.rd (MBX_CFG.RECEIVER c) = 1 → u.rd (MBX_DBMASK.MASK c) = 2 ^ 32 - 1 ∧ u.rd (MBX_STAT.FMASK c) = 1) ∧
    exec .ccRestartEnd s = .next s ∧
    (none_ reply → exec .debugReply s = .next s) ∧
    (first reply → exec .debugReply s = .next { (s.consumed r) with resp := .data r.text }) ∧
    (none_ batch → exec .debugBatch s = .next s) ∧
    (first batch → r.frame.enc = false → exec .debugBatch s = .next (s.consumed r)) ∧
    (first batch → r.frame.enc = true → r.text = [] → (∀ x ∈ s.chn.keys, x.peer ≠ a ∨ x.num ≠ r.frame.h2 / 2 ^ 56) →
      exec .debugBatch s = .next (s.consumed r))

/-- R354, R363, R365, R366: a module takes part in a recipe transfer in Lull or with RCP_EN, and refuses it otherwise; an offer
that is too long or not encrypted is refused by its STATE, any other begins a transfer; a chunk in order is stored in the
staging area and any other is answered; a commit verifies the hash first. After its restart the Chain Controller works
again. Where the spec leaves a point open, the statement follows the model's choices, log entries 38, 43, 44 and 52. -/
def Obligations.RecipeTransfers : Prop :=
  ∀ (s : State) (r : RxFrame), s.rd DBG_STAT.FROST = 0 → s.rd CHN_STAT.CC_RESTART = 0 → s.routeTo r.frame.src = none →
    r.frame.src ≠ 255 → r.frame.enc = false →
    let first (k : Nat) : Prop := s.chn.rx.find? (fun x => x.recipe k) = some r
    let none_ (k : Nat) : Prop := ∀ x ∈ s.chn.rx, x.recipe k = false
    let takes (i : Instr) (k : Nat) : Prop := none_ k → exec i s = .next s
    let shut (i : Instr) (k : Nat) : Prop := first k → s.rcpOpen = false → r.frame.dst ≠ 255 → r.frame.src ≠ 0 → r.frame.cls ≠ clsNak →
      exec i s = .next { (s.consumed r) with chn.tag := (s.chn.tag + 1) % 65536 }
    let state (st : Nat) : List (Fld × Nat) :=
      if s.rd CHN_RSTAT.STATE = st then [] else [(CHN_RSTAT.STATE, st), (CHN_IRQ.RCP, 1)]
    let answered (i : Instr) (l : List (Fld × Nat)) : Prop := ∃ u : State, exec i s = .next u ∧
      State.setsOnly { (s.consumed r) with chn.tag := (s.chn.tag + 1) % 65536 } u l
    let len := ofBytes (r.text.take 8)
    let c := r.frame.arg % 2 ^ 16
    let want := min 2048 (s.chn.rcpLen - 2048 * c)
    let at_ := s.stageBase + 2048 * c
    let bulk (n : Nat) : Prop := inBulk (s.stageBase) n = true ∧ s.pwr.asserted ≤ 1 ∧ s.bulk.redir = [] ∧ s.bulk.ueGran = [] ∧
      ∀ g, bulkBase / 8 ≤ g → g < bulkEnd / 8 → s.sound g
    takes .recipeOffer 0 ∧ takes .recipeData 1 ∧ takes .recipeStatus 2 ∧ takes .recipeCommit 3 ∧
    shut .recipeOffer 0 ∧ shut .recipeData 1 ∧ shut .recipeCommit 3 ∧
    (first 0 → s.rcpOpen = true → r.text.length = 40 → s.inLull = false → answered .recipeOffer (state rcpRefused)) ∧
    (first 0 → s.rcpOpen = true → r.text.length = 40 → s.inLull = true → 0x8000000 < len →
      answered .recipeOffer (state rcpToobig)) ∧
    (first 0 → s.rcpOpen = true → r.text.length = 40 → s.inLull = true → len ≤ 0x8000000 →
      ∃ u : State, exec .recipeOffer s = .next u ∧ s.sets u ([(CHN_RSTAT.SRC, r.frame.src), (CHN_RSTAT.NEXT, 0)] ++ state rcpReady) ∧
        u = { (s.consumed r) with
          regs := u.regs, chn.tag := (s.chn.tag + 1) % 65536, chn.rcpLen := len, chn.rcpHash := r.text.drop 8, chn.rcpRun := 0 }) ∧
    (first 1 → s.rcpOpen = true → s.rcpMine r = false → exec .recipeData s = .next (s.consumed r)) ∧
    (first 1 → s.rcpOpen = true → s.rcpMine r = true → c ≠ s.rd CHN_RSTAT.NEXT ∨ want = 0 ∨ r.text.length ≠ want →
      answered .recipeData []) ∧
    (first 1 → s.rcpOpen = true → s.rcpMine r = true → c = s.rd CHN_RSTAT.NEXT → want ≠ 0 → r.text.length = want →
      bulk (2048 * c + want) → (s.chn.rcpRun + 1) % 16 ≠ 0 → ∃ u : State, exec .recipeData s = .next u ∧
        s.sets u ((CHN_RSTAT.NEXT, (c + 1) % 2 ^ 16) :: state rcpReceiving) ∧ u.bytes at_ want = r.text ∧ s.bytesBut u [(at_, want)] ∧
        u = { (s.consumed r) with
          regs := u.regs, mem := u.mem, syn := u.syn, tags := u.tags, credit := u.credit, xw.turn := u.xw.turn, chn.rcpRun := (s.chn.rcpRun + 1) % 16 }) ∧
    (first 2 → 2 ≤ bits r.frame.arg 19 16 → exec .recipeStatus s = .next (s.consumed r)) ∧
    (first 2 → bits r.frame.arg 19 16 < 2 → bulk 64 → fieldOf (s.bytes s.stageBase 64) 0x10 4 ≤ 2048 * c →
      ∃ u : State, exec .recipeStatus s = .next u ∧ u = { (s.consumed r) with credit := u.credit, xw.turn := u.xw.turn }) ∧
    (first 2 → bits r.frame.arg 19 16 < 2 → bulk (2048 * c + 2048) → 2048 * c + 2048 ≤ fieldOf (s.bytes s.stageBase 64) 0x10 4 →
      ∃ u : State, exec .recipeStatus s = .next u ∧
        u = { (s.consumed r) with credit := u.credit, xw.turn := u.xw.turn, chn.tag := (s.chn.tag + 1) % 65536 }) ∧
    (first 3 → s.rcpOpen = true → s.rcpMine r = false → exec .recipeCommit s = .next (s.consumed r)) ∧
    (first 3 → s.rcpOpen = true → s.rcpMine r = true → bulk s.chn.rcpLen →
      let img := s.bytes s.stageBase s.chn.rcpLen
      let ends (u : State) (st : Nat) : Prop := s.sets u (state st) ∧
        u = { (s.consumed r) with
          regs := u.regs, credit := u.credit, xw.turn := u.xw.turn, chn.tag := (s.chn.tag + 1) % 65536 }
      ∃ u : State, exec .recipeCommit s = .next u ∧
        if Config.sha256 img ≠ s.chn.rcpHash then ends u rcpHashfail
        else if s.recipeOk (img.take 4096) = false then ends u rcpSigfail
        else s.inLull = false → if imageRole img = none ∨ (imageRole img).any (fun f => f % 4 == b2n s.isHead + 2 * b2n s.isRing) = true then
          ends u rcpVerified
        else u.rd CHN_RSTAT.STATE = rcpVerified ∧ u.rd CHN_EPOCH.EPOCH =
          if (s.rd CHN_EPOCH.EPOCH + 1) % 65536 = 0 then 1 else s.rd CHN_EPOCH.EPOCH + 1) ∧
    ∀ t : State, t.rd CHN_STAT.CC_RESTART = 1 → ∃ u : State, exec .ccRestartEnd t = .next u ∧
      t.setsOnly u [(CHN_STAT.CC_RESTART, 0), (CHN_IRQ.CCRST, 1)]

/-- R403, R406, R407, R410, R412: START copies the image into the processor's bank and leaves it RECOVERING; recovery finds each
drive ABSENT, REFUSED or ACTIVE, with every record up to the first that a missing Flush lost, releases PERST_N (R490), and
leaves READY with the sequence range of the records retained; a watchdog restart is counted and proceeds as after START, and
the third within 10 s leaves FAULT. A FAILED drive returns by REPROBE; one whose link is lost, with a fatal status, or whose
command fails twice leaves the rotation, and its requests end with IOERR. Where the spec leaves a point open, the statement
follows the model's choices, log entries 31, 32, 53 and 86. -/
def Obligations.ArchiveControl : Prop :=
  ∀ (s : State) (probes : List DriveProbe) (p : DriveProbe) (d : Fin 4) (used : BitVec 8),
    let a := s.rd ARC_FW_BASE_LO.ADDR_LO * 4096 + s.rd ARC_FW_BASE_HI.ADDR_HI * 2 ^ 32
    let n := min (s.rd ARC_FW_LEN.LEN) 0x80000
    let image : Prop := inBulk a n = true ∧ s.pwr.asserted ≤ 1 ∧ s.bulk.redir = [] ∧ s.bulk.ueGran = [] ∧
      ∀ g, bulkBase / 8 ≤ g → g < bulkEnd / 8 → s.sound g
    let starts (u : State) : Prop := u.rd ARC_STAT.STATE = arcRecovering ∧ u.bytes arcBank n = s.bytes a n ∧
      s.bytesBut u [(arcBank, n)] ∧ u.arc.reqs = [] ∧ u.arc.comps = [] ∧ u.arc.drives = s.arc.drives ∧
      ∀ c, c < 64 → s.rd (MBX_CFG.RECEIVER c) = 2 → u.rd (MBX_DBMASK.MASK c) = 2 ^ 32 - 1 ∧ u.rd (MBX_STAT.FMASK c) = 1
    let recent := s.arc.restarts.filter (fun t => decide (s.now ≤ t + 10000000000))
    let found (u : State) (p : DriveProbe) : Prop :=
      u.rd (ARC_DRV.STATE p.drive) = (if p.present = false then drvAbsent else if p.formatOk = false then drvRefused else drvActive) ∧
      (p.present = true → u.rd (ARC_DRV.SPEED p.drive) = p.speed ∧ u.rd (ARC_DRV.WIDTH p.drive) = p.width) ∧
      (∃ n, (u.drive p.drive).recs = (s.drive p.drive).recs.take n ∧
        ∀ r, (s.drive p.drive).recs[n]? = some r → r.flushed = false ∧ (u.drive p.drive).head = r.lba) ∧
      (p.present = true → p.formatOk = true → (u.drive p.drive).cap = min p.cap 1953125000)
    let hi (u : State) : Nat := u.arcRecs.foldl (fun m x => max m x.2.seq) 0
    let range (u : State) : Prop := (∀ x ∈ u.arcRecs, x.2.seq < 2 ^ 64) →
      u.rd2 ARC_HEADSEQ_LO.SEQ ARC_HEADSEQ_HI.SEQ = hi u ∧
      (∀ x ∈ u.arcRecs, u.rd2 ARC_TAILSEQ_LO.SEQ ARC_TAILSEQ_HI.SEQ ≤ x.2.seq) ∧
      (u.arcRecs ≠ [] → ∃ x ∈ u.arcRecs, u.rd2 ARC_TAILSEQ_LO.SEQ ARC_TAILSEQ_HI.SEQ = x.2.seq)
    let hit := s.arc.reqs.filter (fun r => r.drive == d.val)
    let fails (i : Instr) : Prop := ∃ u : State, exec i s = .next u ∧ u.rd (ARC_DRV.STATE d) = drvFailed ∧ u.rd ARC_IRQ.DRV = 1 ∧
      u.drive d = s.drive d ∧
      u.arc.reqs = s.arc.reqs.filter (fun r => r.drive != d.val) ∧
      u.rd ARC_ERR_CNT.COUNT = min (s.rd ARC_ERR_CNT.COUNT + hit.length) (2 ^ 32 - 1) ∧
      (s.arc.comps ≠ [] ∨ s.rd ARC_CQUEUE.QUEUE ∉ s.que.attached →
        u.arc.comps = s.arc.comps ++ hit.map (fun r => completion r.msg stIoerr d 0 r.seq r.lba))
    let active : Prop := s.rd (ARC_DRV.STATE d) = drvActive
    ((s.rd ARC_STAT.STATE = arcOff ∨ s.rd ARC_STAT.STATE = arcFault) → s.rd PWR_DOWN.ARC = 0 → image →
      ∃ u : State, exec .archiveStart s = .next u ∧ starts u) ∧
    (s.rd ARC_STAT.STATE ≠ arcOff → s.rd ARC_STAT.STATE ≠ arcFault → exec .archiveStart s = .next s) ∧
    (s.rd ARC_STAT.STATE = arcRecovering → s.arcStill = false → probes.Pairwise (fun x y => x.drive ≠ y.drive) →
      ∃ u : State, exec (.archiveRecovery probes) s = .next u ∧ (∀ p ∈ probes, found u p) ∧ range u ∧
        u.rd ARC_STAT.STATE = arcReady ∧ u.rd ARC_IRQ.READY = 1 ∧ u.arc.nextSeq = hi u + 1 ∧ u.mem = s.mem ∧ u.arc.perst = false ∧
        u.out = s.out ++ if s.arc.perst = true then (upto 4).map (fun x => (⟨.perst, x, s.time, [1]⟩ : Out)) else []) ∧
    (s.rd ARC_STAT.STATE ≠ arcRecovering → exec (.archiveRecovery probes) s = .next s) ∧
    (s.rd ARC_STAT.STATE = arcReady → s.arcStill = false → s.rd (ARC_DRV.STATE p.drive) = drvFailed →
      ∃ u : State, exec (.reprobe p) s = .next u ∧ found u p ∧ range u ∧ u.rd ARC_IRQ.DRV = 1 ∧ u.mem = s.mem ∧
        u.arc.nextSeq = max s.arc.nextSeq (hi u + 1)) ∧
    (s.rd (ARC_DRV.STATE p.drive) ≠ drvFailed → exec (.reprobe p) s = .next s) ∧
    (s.arcStill = false → s.rd ARC_STAT.STATE ≠ arcOff → s.rd ARC_STAT.STATE ≠ arcFault →
      ∃ u : State, exec .archiveWatchdog s = .next u ∧ u.rd ARC_STAT.RESTARTS = s.more ARC_STAT.RESTARTS ∧
        u.rd ARC_IRQ.RESTART = 1 ∧ u.arc.restarts = s.now :: recent ∧
        (2 ≤ recent.length → u.rd ARC_STAT.STATE = arcFault) ∧ (recent.length < 2 → image → starts u)) ∧
    (s.rd ARC_STAT.STATE = arcOff ∨ s.rd ARC_STAT.STATE = arcFault → exec .archiveWatchdog s = .next s) ∧
    (active → fails (.pcieLinkDown d false) ∧ fails (.nvmeFatalError d)) ∧
    (¬active → exec (.pcieLinkDown d false) s = .next s ∧ exec (.nvmeFatalError d) s = .next s) ∧
    exec (.pcieLinkDown d true) s = .next s ∧
    (s.arcStill = false → hit = [] → exec (.commandTimeout d) s = .next s) ∧
    (∀ r, s.arcStill = false → s.arc.reqs.find? (fun r => r.drive == d.val) = some r →
      (r.retried = true → active → fails (.commandTimeout d)) ∧
      (r.retried = false → exec (.commandTimeout d) s =
        .next { s with arc.reqs := s.arc.reqs.map (fun x => if x = r then { r with retried := true } else x) })) ∧
    (s.rd ARC_STAT.STATE = arcReady → s.arcStill = false → ∃ u : State, exec (.wearCheck d used) s = .next u ∧
      s.setsOnly u ((ARC_DRV.WEAR d, used.toNat) :: if 90 ≤ used.toNat then [(ARC_IRQ.WEAR, 1)] else [])) ∧
    (active → s.arcStill = false → (s.drive d).dirty = true → ∃ u : State, exec (.superblockRewrite d) s = .next u ∧
      u = { s with arc.drives := u.arc.drives } ∧
      ∀ x, u.drive x = if x = d then { s.drive d with gen := (s.drive d).gen + 1, dirty := false } else s.drive x) ∧
    ((s.drive d).dirty = false → exec (.superblockRewrite d) s = .next s)

/-- R406 to R409, R411: the Archive takes its requests from ARC_RQUEUE in order. An APPEND is written whole at the head of the
next ACTIVE drive, or at LBA 2 where it no longer fits, with the next sequence number, behind its header and padded with
zeros, and waits for a Flush, which completes it with OK; with no ACTIVE drive it ends with NOSPACE. A READ copies the
record, or ends with GONE or SMALL; a buffer outside the window ends with BADREQ. A completion that ARC_CQUEUE does not take
is retried. Where the spec leaves a point open, the statement follows the model's choices, log entries 33, 46, 95 and 96. -/
def Obligations.ArchiveRequests : Prop :=
  ∀ (s : State) (d : QDesc) (m : List Byte),
    let q := s.rd ARC_RQUEUE.QUEUE
    let cq := s.rd ARC_CQUEUE.QUEUE
    let works : Prop := s.rd ARC_STAT.STATE = arcReady ∧ s.arcStill = false
    let takes : Prop := works ∧ s.arc.comps.length < 64 ∧ s.queueAt q d ∧ 0 < d.depth ∧ s.bytes (d.slotAddr d.head) 64 = m
    let held : Prop := s.arc.comps ≠ [] ∨ cq ∉ s.que.attached
    let taken (u : State) : Prop := (qdescOf (u.bytes (s.queDescAddr q) 32)).depth = d.depth - 1 ∧
      (qdescOf (u.bytes (s.queDescAddr q) 32)).head = (d.head + 1) % d.n
    let len := msgNum m 4 4
    let buf := msgNum m 8 8
    let apart (n : Nat) : Prop := buf + n ≤ s.queDescAddr q ∨ s.queDescAddr q + 32 ≤ buf
    let ends (i : Instr) (status drive seq lba : Nat) : Prop := ∃ u : State, exec i s = .next u ∧ taken u ∧
      u.arc = { s.arc with comps := s.arc.comps ++ [completion m status drive 0 seq lba] } ∧
      s.bytesBut u [(s.queDescAddr q, 32)]
    let seq := msgNum m 48 8
    let n := s.arc.nextSeq
    let b := (64 + len + 4095) / 4096
    (takes → held → msgNum m 0 1 ≠ 1 → msgNum m 0 1 ≠ 2 → ends .append stBadreq 0 0 0) ∧
    (takes → held → msgNum m 0 1 = 1 → 16777152 < len ∨ (s.arcInWindow buf len = false ∧ arcInLattice buf len = false) →
      ends .append stBadreq 0 0 0) ∧
    (takes → held → msgNum m 0 1 = 1 → len ≤ 16777152 → s.arcInWindow buf len = true → s.arcNext = none →
      ends .append stNospace 0 0 0) ∧
    (∀ x, takes → msgNum m 0 1 = 1 → len ≤ 16777152 → s.arcInWindow buf len = true → apart len → s.arcNext = some x →
      (s.arc.reqs.filter (fun r => r.drive == x)).length < 256 → 2 + b ≤ (s.drive x).cap →
      let lba := if (s.drive x).head + b ≤ (s.drive x).cap then (s.drive x).head else 2
      let payload := s.bytes buf len
      ∃ u : State, exec .append s = .next u ∧ taken u ∧
        u.bytes (arcAt x lba) (64 + len) = recHeader m payload n s.chnAddr ++ payload ∧
        (∀ k, 64 + len ≤ k → k < 4096 * b → u.byte (arcAt x lba + k) = 0) ∧
        s.bytesBut u [(arcAt x lba, 4096 * b), (s.queDescAddr q, 32)] ∧
        u.arc = { s.arc with
          drives := u.arc.drives, last := x, nextSeq := n + 1, reqs := s.arc.reqs ++ [(⟨x, lba, n, true, false, m⟩ : ArcReq)] } ∧
        (∀ y, u.drive y = if y = x then { s.drive x with
            head := lba + b
            recs := tailOver lba b (s.drive x).recs ++ [(⟨lba, b, n, false⟩ : ArcRec)]
            dirty := true } else s.drive y) ∧
        (∀ y ∈ tailOver lba b (s.drive x).recs, y.lba + y.blocks ≤ lba ∨ lba + b ≤ y.lba) ∧
        ((∀ y ∈ u.arcRecs, y.2.seq < 2 ^ 64) →
          (∀ y ∈ u.arcRecs, u.rd2 ARC_TAILSEQ_LO.SEQ ARC_TAILSEQ_HI.SEQ ≤ y.2.seq) ∧
          ∃ y ∈ u.arcRecs, u.rd2 ARC_TAILSEQ_LO.SEQ ARC_TAILSEQ_HI.SEQ = y.2.seq)) ∧
    (takes → held → msgNum m 0 1 = 2 → s.arcInWindow buf len = false → ends .read stBadreq 0 seq 0) ∧
    (takes → held → msgNum m 0 1 = 2 → s.arcInWindow buf len = true → s.arcRecs.find? (fun x => x.2.seq == seq) = none →
      ends .read stGone 0 seq 0) ∧
    (∀ x r, takes → held → msgNum m 0 1 = 2 → s.arcInWindow buf len = true →
      s.arcRecs.find? (fun x => x.2.seq == seq) = some (x, r) →
      let size := 64 + s.num (arcAt x r.lba + 8) 4
      (len < size → ends .read stSmall x seq r.lba) ∧
      (size ≤ len → apart size → ∃ u : State, exec .read s = .next u ∧ taken u ∧ u.bytes buf size = s.bytes (arcAt x r.lba) size ∧
        u.arc = { s.arc with comps := s.arc.comps ++ [completion m stOk x size seq r.lba] } ∧
        s.bytesBut u [(buf, size), (s.queDescAddr q, 32)])) ∧
    (¬works → exec .append s = .next s ∧ exec .read s = .next s ∧ exec .completionRetry s = .next s) ∧
    (∀ x : Fin 4, works → held → s.rd (ARC_DRV.STATE x) = drvActive →
      let done := s.arc.reqs.filter (fun r => r.drive == x.val)
      ∃ u : State, exec (.flush x) s = .next u ∧
        u.arc = { s.arc with
          drives := u.arc.drives
          reqs := s.arc.reqs.filter (fun r => r.drive != x.val)
          comps := s.arc.comps ++ done.map (fun r => completion r.msg stOk x 0 r.seq r.lba) } ∧
        (∀ y, u.drive y = if y = x then { s.drive x with recs := (s.drive x).recs.map (fun r => { r with flushed := true }) }
          else s.drive y) ∧
        u.rd ARC_REC_CNT.COUNT = min (s.rd ARC_REC_CNT.COUNT + done.length) (2 ^ 32 - 1) ∧
        ((∀ r ∈ done, r.seq < 2 ^ 64) → u.rd2 ARC_HEADSEQ_LO.SEQ ARC_HEADSEQ_HI.SEQ =
          done.foldl (fun v r => max v r.seq) (s.rd2 ARC_HEADSEQ_LO.SEQ ARC_HEADSEQ_HI.SEQ)) ∧
        u.mem = s.mem ∧ u.rd ARC_STAT.HB = (s.rd ARC_STAT.HB + 1) % 2 ^ 16) ∧
    (∀ x : Fin 4, s.rd (ARC_DRV.STATE x) ≠ drvActive → exec (.flush x) s = .next s) ∧
    (works → s.arc.comps = [m] → m.length = 64 → s.queueAt cq d → d.depth < d.n →
      ∃ u : State, exec .completionRetry s = .next u ∧ u.arc = { s.arc with comps := [] } ∧
        u.bytes (d.slotAddr ((d.head + d.depth) % d.n)) 64 = m ∧
        (qdescOf (u.bytes (s.queDescAddr cq) 32)).depth = d.depth + 1 ∧
        s.bytesBut u [(d.slotAddr ((d.head + d.depth) % d.n), 64), (s.queDescAddr cq, 32)]) ∧
    (works → cq ∉ s.que.attached → ∃ u : State, exec .completionRetry s = .next u ∧ u.arc = s.arc ∧ u.mem = s.mem)

/-- R341, R414 to R418, R444, R494: Idle and Dormant are entered only with the schedule STOPPED, the movers idle and the Archive
OFF or in FAULT, and refused otherwise; a Watcher slot or MGMT WAKE ends Idle; the wake pattern ends Dormant by Thaw, which
keeps the RWK fields and Toffee, and a port that begins to draw ends Off; the supplies VOUT are on but in Dormant and Off
(R494). The status shows which ports draw and each voltage within 2 %. Neither port drawing, power fails and is lost. Blocks
powered down hold their reset values. Where the spec leaves a point open, the statement follows the model's choices, log
entries 8 and 47. -/
def Obligations.PowerStates : Prop :=
  ∀ (s : State) (port : Fin 2) (vin : BitVec 12) (value : BitVec 32),
    let may : Prop := s.rd SCH_STAT.STATE = 0 ∧ (∀ n, n < 8 → s.rd (MV_STAT.BUSY n) = 0) ∧
      (s.rd ARC_STAT.STATE = 0 ∨ s.rd ARC_STAT.STATE = 4) ∧ s.rd DBG_STAT.HALTED = 0 ∧ s.pwr.state = .run
    let refused (i : Instr) : Prop := ∃ u : State, exec i s = .next u ∧ s.setsOnly u [(PWR_STAT.REFUSED, 1)]
    let slot : Prop := s.icu.latch ≠ 0 ∧ s.rd AOW_CTL.WAKE_EN = 1
    let draws : Prop := s.pwr.mayU = true ∨ s.pwr.mayD = true
    let outputs (v : Nat) : List Out := if b2n s.pwr.vout = v then [] else
      (upto 2).map (fun k => (⟨.vout, k, s.time, [BitVec.ofNat 8 v]⟩ : Out))
    let toffee (u : State) : Prop := ∀ a, toffeeBase ≤ a → a < toffeeBase + 0x1000 → u.byte a = s.byte a
    let fresh (u : State) : Prop := u.pwr.state = .run ∧ u.pwr.asserted = 3 ∧ u.pwr.last = 3 ∧ u.pwr.vout = true ∧ u.rd RST_CAUSE.CAUSE = 1 ∧
      u.rd RST_STARTS.COUNT = 0 ∧ (∀ k, k < 8 → u.rd (RST_BKP.DATA k) = 0) ∧ u.tri = TriS.reset
    let v := vin.toNat
    let t : State := if port.val = 0 then { s with pwr.vinU := v, pwr.mayU := mayDraw s.pwr.mayU v }
      else { s with pwr.vinD := v, pwr.mayD := mayDraw s.pwr.mayD v }
    let near (x : Nat) : Prop := v - v / 50 ≤ x ∧ x ≤ v + v / 50
    let bit_ (b : Bool) : Nat := if b then 1 else 0
    let w := value.toNat
    (may → ∃ u : State, exec .idle s = .next u ∧ u.pwr.state = .idle ∧ u.pwr.winLeft = s.pwr.winLeft - (s.refNow - s.pwr.winFrom) ∧
      u = { s with regs := u.regs, pwr := u.pwr, icu := { s.icu with latch := 0, seen := u.linesNow } } ∧
      s.sets u ((AOW_WAKE.WAKE, 0) :: (upto 8).flatMap (fun n => [(CAM_STAT.LINK n, 0), (CAM_STAT.SPEED n, 0)]))) ∧
    (may → ∃ u : State, exec .dormant s = .next u ∧
      u = { s with
        regs := u.regs
        dbg.run := false
        chn := { ChnS.reset with fabOff := s.chn.fabOff }
        out := s.out ++ outputs 0
        pwr := { s.pwr with state := .dormant, req := 0, asserted := 0, vout := false } } ∧
      s.sets u [(CHN_STAT.UP_U, 0), (CHN_STAT.UP_D, 0), (DBG_STAT.UNLOCKED, 0), (DBG_STAT.SCOPESEC, 0)]) ∧
    (¬may → refused .idle ∧ refused .dormant) ∧
    (s.pwr.state = .idle → slot ∨ s.pwr.wakeChain = true → ∃ u : State, exec .idleWake s = .next u ∧ u.pwr.state = .run ∧
      u.pwr.wakeChain = false ∧
      u = { s with regs := u.regs, pwr := u.pwr, icu := { s.icu with latch := 0, seen := u.linesNow, checkIn := s.refNow } } ∧
      (slot → u.rd PWR_STAT.WOKE_SLOT = 1) ∧ (s.pwr.wakeChain = true → u.rd PWR_STAT.WOKE_CHAIN = 1) ∧
      ∀ k, k < 32 → bitb s.icu.latch k = true → sourceOk (s.rd (AOW_SEL.SOURCE k)) = true →
        bitb (u.rd (ICU_PEND.PEND (s.rd (AOW_SEL.SOURCE k) / 32))) (s.rd (AOW_SEL.SOURCE k) % 32) = true) ∧
    (s.pwr.state ≠ .idle ∨ (¬slot ∧ s.pwr.wakeChain = false) → exec .idleWake s = .next s) ∧
    (s.pwr.state = .dormant → s.regsWf = true → ∃ u : State, exec .thaw s = .next u ∧ fresh u ∧ toffee u ∧
      u.rd PWR_STAT.THAWED = 1 ∧ u.rd CHN_EPOCH.EPOCH = s.rd CHN_EPOCH.EPOCH ∧ u.rd CHN_CTL.HEAD = s.rd CHN_CTL.HEAD ∧
      u.rd CHN_CTL.RING = s.rd CHN_CTL.RING ∧ u.rd CHN_ADDR.ADDR = s.rd CHN_ADDR.ADDR ∧
      u.rd SEC_TAMPER.CAUSE = s.rd SEC_TAMPER.CAUSE) ∧
    (s.pwr.state ≠ .dormant → exec .thaw s = .next s) ∧
    (s.pwr.state = .off → draws → ∃ u : State, exec .linePowerOn s = .next u ∧ fresh u ∧ u.rd CHN_EPOCH.EPOCH ≠ 0 ∧
      u.rd PWR_STAT.THAWED = 0) ∧
    (s.pwr.state ≠ .off ∨ ¬draws → exec .linePowerOn s = .next s) ∧
    (s.pwr.state = .off ∨ s.pwr.state = .dormant → exec (.portDrawChange port vin) s = .next t) ∧
    (s.pwr.state = .run ∨ s.pwr.state = .idle → ∃ u : State, exec (.portDrawChange port vin) s = .next u ∧
      u = { t with regs := u.regs, free := u.free, pwr.fail := u.pwr.fail } ∧
      s.sets u [(PWR_STAT.DRAW_U, bit_ (t.pwr.mayU && (!t.pwr.mayD || decide (t.pwr.vinD ≤ t.pwr.vinU + 16)))),
        (PWR_STAT.DRAW_D, bit_ (t.pwr.mayD && (!t.pwr.mayU || decide (t.pwr.vinU ≤ t.pwr.vinD + 16)))),
        (CHN_STAT.OV_U, bit_ (decide (3440 < t.pwr.vinU))), (CHN_STAT.OV_D, bit_ (decide (3440 < t.pwr.vinD))),
        (PWR_VIN_U.VIN, u.rd PWR_VIN_U.VIN), (PWR_VIN_D.VIN, u.rd PWR_VIN_D.VIN)] ∧
      near (u.rd (if port.val = 0 then PWR_VIN_U.VIN else PWR_VIN_D.VIN))) ∧
    (s.pwr.state ≠ .off → ¬draws → exec .powerFail s = .next { s with pwr.fail := true }) ∧
    (s.pwr.state = .off ∨ draws → exec .powerFail s = .next s ∧ exec .powerLoss s = .next s) ∧
    (s.pwr.state ≠ .off → ¬draws → ∃ u : State, exec .powerLoss s = .next u ∧ u.mem = s.mem ∧
      u.pwr = { s.pwr with state := .off, req := 0, asserted := 0, fail := false, vout := false } ∧ u.out = s.out ++ outputs 0 ∧
      s.sets u [(CHN_STAT.UP_U, 0), (CHN_STAT.UP_D, 0)] ∧
      ∀ d, (∀ r ∈ (s.drive d).recs, r.flushed = true) → u.drive d = s.drive d) ∧
    ∃ u : State, exec (.pwrDown value) s = .next u ∧ u.rd PWR_DOWN.FGRP = bits w 15 8 ∧ u.rd PWR_DOWN.CAM = bit w 1 ∧
      u.rd PWR_DOWN.ARC = bit w 0 ∧ u.tri = s.tri ∧ u.lat = s.lat ∧
      (∀ b a, b < 64 → bitb w (8 + b / 8) = true → 0x50000000 + 0x1000 * b ≤ a → a < 0x50001000 + 0x1000 * b →
        u.rdReg a = (regReset a).toNat) ∧
      (∀ b k, b < 64 → bitb w (8 + b / 8) = true → k < 16 → u.port1 b k = PortS.idle) ∧
      (∀ b k, b < 64 → bitb w (8 + b / 8) = false → k < 16 → u.port1 b k = s.port1 b k) ∧
      (bitb w 1 = true → u.cam = CamS.reset ∧ ∀ a, 0x50040000 ≤ a → a < 0x50050000 → u.rdReg a = (regReset a).toNat) ∧
      (bitb w 1 = false → u.cam = s.cam) ∧
      (bitb w 0 = true → u.arc.reqs = [] ∧ u.arc.comps = [] ∧ u.arc.perst = true ∧
        ∀ a, 0x60010000 ≤ a → a < 0x60020000 → u.rdReg a = (regReset a).toNat) ∧
      (bitb w 0 = false → u.arc = s.arc)

/-- R22, R31, R75, R78, R158, R209, R219, R309, R322, R331, R365, R397, R411, R419 to R423, R425: what each kind of reset
leaves. A start that has not succeeded has failed. Every reset keeps the causes, the backup registers and Toffee and returns
Trifle to its reset state, its epochs kept; a core reset leaves the other blocks running; a warm one keeps memories, but for
the Lattice's granules in flight, and stops the schedule; a cold one clears the memories on the die and advances the role
epoch. R419 to R421, R424 to R427: each source calls for its kind of reset and leaves its cause; a start succeeds by a write
of RST_STARTED in its window, and the window or the watchdog expiring calls for a warm reset; in Off and Dormant requests
are ignored. Where the spec leaves a point open, the statement follows the model's choices, log entries 8, 47, 49, 64 and
90. -/
def Obligations.Resets : Prop :=
  (∀ s : State, s.regsWf = true → s.pwr.state = .run ∨ s.pwr.state = .idle →
     let failed : Prop := s.rd RST_STAT.WIN = 1
     let common (k : Nat) (u : State) : Prop :=
       u.pwr.asserted = max s.pwr.asserted k ∧ u.pwr.last = k ∧ u.pwr.req = 0 ∧ u.pwr.until_ = s.refNow + 20000 ∧ u.pwr.state = .run ∧
       (failed → u.rd RST_STARTS.COUNT = s.more RST_STARTS.COUNT) ∧
       (¬failed → u.rd RST_STARTS.COUNT = s.rd RST_STARTS.COUNT ∧ u.rd RST_CAUSE.CAUSE = s.rd RST_CAUSE.CAUSE) ∧
       (failed → u.rd RST_CAUSE.CAUSE =
         if s.rd RST_STARTS.COUNT = 2 then Nat.lor (s.rd RST_CAUSE.CAUSE) (2 ^ 12) else s.rd RST_CAUSE.CAUSE) ∧
       (∀ n, n < 8 → u.rd (RST_BKP.DATA n) = s.rd (RST_BKP.DATA n)) ∧ u.rd PWR_STAT.THAWED = s.rd PWR_STAT.THAWED ∧
       u.rd DBG_STAT.HALTED = 0 ∧ u.rd DBG_STAT.FROST = 0 ∧ u.rd DBG_STAT.LINK = 0 ∧ u.rd DBG_STAT.RESETSEEN = 1 ∧
         (⟨.resetN, 0, s.time, [0]⟩ : Out) ∈ u.out ∧
       (∀ a, toffeeBase ≤ a → a < toffeeBase + 0x1000 → u.byte a = s.byte a)
     let tri (u : State) : Prop := u.tri =
       { TriS.reset with eprW := s.tri.epr, epr := s.tri.epr, eprUsed := s.tri.eprUsed }
     let flash (u : State) : Prop := (⟨.flash, 2, s.time, [0]⟩ : Out) ∈ u.out ∧ (⟨.flash, 3, s.time, [0]⟩ : Out) ∈ u.out
     let masked (e : Nat) (u : State) : Prop := ∀ c, c < 64 → s.rd (MBX_CFG.RECEIVER c) = e →
       u.rd (MBX_DBMASK.MASK c) = 2 ^ 32 - 1 ∧ u.rd (MBX_STAT.FMASK c) = 1
     (s.pwr.req = 1 → ∃ u : State, exec .coreReset s = .next u ∧ common 1 u ∧ tri u ∧ masked 0 u ∧ u.mem = s.mem ∧
       u.rd XW_CTL.REMAP = 0 ∧ u.lat = s.lat ∧ u.rib = s.rib ∧ u.sch = s.sch ∧ u.bulk = s.bulk ∧ u.fld = s.fld ∧ u.cam = s.cam ∧
       u.mv = s.mv ∧ u.chn = s.chn ∧ u.arc = s.arc ∧ (∀ k, k < 16 → u.rd (ICU_PEND.PEND k) = s.rd (ICU_PEND.PEND k)) ∧
       ∀ a, a / 0x10000 ∉ [0x4000, 0x4005, 0x4006] → a ∉ [XW_CTL.addr, RCV_STAT.addr, DBG_STAT.addr] →
         a ∉ [CHN_STAT.addr, CHN_IRQ.addr] ∨ s.rd DBG_STAT.FROST = 0 → u.rdReg a = s.rdReg a) ∧
     (s.pwr.req = 2 → ∃ u : State, exec .warmReset s = .next u ∧ common 2 u ∧ tri u ∧ flash u ∧ masked 0 u ∧ masked 1 u ∧ masked 2 u ∧
       (∀ a, a < 2 ^ 43 ∨ (2 ^ 44 ≤ a ∧ s.lat.halves = []) → u.byte a = s.byte a) ∧ u.rd SCH_STAT.STATE = 0 ∧ u.rd SCH_STAT.ACT = s.rd SCH_STAT.ACT ∧
       u.rd CHN_STAT.CC_RESTART = 1 ∧ u.rd ARC_STAT.STATE = 0 ∧ u.arc.reqs = [] ∧ u.arc.drives = s.arc.drives ∧ u.arc.perst = true ∧
       u.que = QueS.reset ∧ u.rib = RibS.reset ∧ u.cam = CamS.reset ∧ u.mv = MvS.reset ∧ u.fld = FldS.reset ∧ u.bulk = s.bulk ∧
       (∀ a, a / 0x10000 = 0x4004 → u.rdReg a = s.rdReg a) ∧ u.rd RCV_STAT.DUPLEX = s.rd RCV_STAT.DUPLEX ∧
       ∀ n, n < 8 → u.rdReg (LAT_SPARE_PEND.addr n) = s.rdReg (LAT_SPARE_PEND.addr n) ∨ s.rd LAT_SPARE_COPY.ACTIVE = 1) ∧
     (s.pwr.req = 3 → ∃ u : State, exec .coldReset s = .next u ∧ common 3 u ∧ u.tri = TriS.reset ∧ flash u ∧
       u.rd CHN_EPOCH.EPOCH = (if (s.rd CHN_EPOCH.EPOCH + 1) % 65536 = 0 then 1 else s.rd CHN_EPOCH.EPOCH + 1) ∧
       u.rd CHN_CTL.HEAD = s.rd CHN_CTL.HEAD ∧ u.rd CHN_ADDR.ADDR = s.rd CHN_ADDR.ADDR ∧
       u.rd CHN_STAT.UP_U = 0 ∧ u.rd CHN_STAT.UP_D = 0 ∧ u.rd SCH_STAT.STATE = 0 ∧ u.rd SCH_STAT.ACT = 0 ∧
       u.rd ARC_STAT.STATE = 0 ∧ u.arc.drives = s.arc.drives ∧ u.lat = LatS.reset ∧ u.que = QueS.reset ∧ u.rcv = RcvS.reset ∧
       (∀ a, a / 0x10000 ∈ [0x4004, 0x4005, 0x4007, 0x6005, 0x6006] → u.rdReg a = (regReset a).toNat) ∧
       (s.stuck = [] → ∀ a, (tLocalBase ≤ a ∧ a < tLocalBase + 0x200000) ∨ (secureBase ≤ a ∧ a < secureBase + 0x10000) ∨
         (sstoreBase ≤ a ∧ a < sstoreBase + 0x400000) ∨ (latticeBase ≤ a ∧ a < latticeBase + 264 * 12288 * 32) → u.byte a = 0)) ∧
     (s.pwr.req ≠ 1 → exec .coreReset s = .next s) ∧ (s.pwr.req ≠ 2 → exec .warmReset s = .next s) ∧
     (s.pwr.req ≠ 3 → exec .coldReset s = .next s)) ∧
  (∀ (s : State) (key : BitVec 16),
     let awake : Prop := s.pwr.state = .run ∨ s.pwr.state = .idle
     let only (i : Instr) (kind cause : Nat) (l : List (Fld × Nat)) : Prop := ∃ u : State, exec i s = .next u ∧ s.calls u kind cause ∧
       u = { s with regs := u.regs, pwr := u.pwr } ∧
       s.sets u ((RST_CAUSE.CAUSE, Nat.lor (s.rd RST_CAUSE.CAUSE) (2 ^ cause)) :: l)
     let draws : Prop := s.pwr.mayU = true ∨ s.pwr.mayD = true
     (awake → only .swCoreReset 1 8 [] ∧ only .swWarmReset 2 8 [] ∧ only .swColdReset 3 8 []) ∧
     (¬awake → exec .swCoreReset s = .next s ∧ exec .swWarmReset s = .next s ∧ exec .swColdReset s = .next s ∧
       exec .bor s = .next s ∧ exec .pin s = .next s) ∧
     (awake → draws → only .bor 3 1 []) ∧ (¬draws → exec .bor s = .next s) ∧
     (awake → only .pin (if s.rd RST_CTL.PINWARM = 1 then 2 else 3) 2 [(DBG_STAT.LINK, 0), (DBG_STAT.RESETSEEN, 1)]) ∧
     (s.rd RST_STAT.WIN = 1 → s.pwr.state = .run → s.frozen 1 = false → ∃ u : State, exec .startWindow s = .next u ∧ s.calls u 2 3 ∧
       u = { s.fabUntil (16 * (s.pwr.winFrom + s.pwr.winLeft)) with regs := u.regs, pwr := u.pwr } ∧
       s.sets u [(RST_STAT.WIN, 0), (RST_STARTS.COUNT, s.more RST_STARTS.COUNT),
         (RST_CAUSE.CAUSE, Nat.lor (if s.rd RST_STARTS.COUNT = 2 then Nat.lor (s.rd RST_CAUSE.CAUSE) (2 ^ 12)
           else s.rd RST_CAUSE.CAUSE) (2 ^ 3))]) ∧
     (s.rd RST_STAT.WIN = 0 ∨ s.pwr.state ≠ .run ∨ s.frozen 1 = true → exec .startWindow s = .next s) ∧
     (s.rd RST_STAT.WIN = 1 → ∃ u : State, exec .rstStarted s = .next u ∧
       s.setsOnly u [(RST_STARTS.COUNT, 0), (RST_STAT.STARTED, 1), (RST_STAT.WIN, 0)]) ∧
     (s.rd RST_STAT.WIN = 0 → exec .rstStarted s = .next s) ∧
     (s.rd RST_WDT.EN = 1 → s.pwr.state = .run → s.frozen 0 = false → ∃ u : State, exec .watchdogExpiry s = .next u ∧ s.calls u 2 3 ∧
       u = { s.fabUntil (16 * (s.pwr.wdtFrom + 1000000 * s.rd RST_WDT.PERIOD)) with regs := u.regs, pwr := u.pwr } ∧
       s.sets u [(RST_CAUSE.CAUSE, Nat.lor (s.rd RST_CAUSE.CAUSE) (2 ^ 3))]) ∧
     (s.rd RST_WDT.EN = 0 ∨ s.pwr.state ≠ .run ∨ s.frozen 0 = true → exec .watchdogExpiry s = .next s) ∧
     (key = 0x5A5A → exec (.kick key) s =
       .next { s with pwr.wdtFrom := if s.frozen 0 = true ∨ s.pwr.state = .idle then 0 else s.refNow }) ∧
     (key ≠ 0x5A5A → ∃ u : State, exec (.kick key) s = .next u ∧ s.setsOnly u [(RST_STAT.BADKICK, 1)]))

/-- R359, R421, R424, R426, R428 to R434: after the stretch the reset is released and the boot ROM takes the first path whose
condition holds: BLANK and RETIRED wait; three failed starts lead to Lull; else the start window begins, a swap is taken up
once, a valid boot record starts the image it names where header and hash agree, and with no valid flash header it waits.
Where the spec leaves a point open, the statement follows the model's choices, log entries 16, 47, 50, 88 and 89. -/
def Obligations.Starts : Prop :=
  ∀ s : State, s.rd DBG_CTL.HALTRST = 0 →
    let released : Prop := s.pwr.asserted ≠ 0 ∧ s.pwr.req = 0 ∧ (s.pwr.state = .run ∨ s.pwr.state = .idle)
    let waits (u : State) : Prop := u.pwr.path = 0xFF
    let shut : Prop := s.lifecycle = 0 ∨ s.lifecycle = 4
    let swap : Prop := s.pwr.last = 1 ∧ s.rd SCH_SWAP_STAT.FWSWAP = 1
    let r := s.bootRec
    let act := bit (fieldOf r 4 4) 0
    let base := (recSlot r act).1
    let len := (recSlot r act).2.1
    let free : Prop := s.bulk.redir = [] ∧ s.bulk.ueGran = [] ∧ (∀ g, bulkBase / 8 ≤ g → g < bulkEnd / 8 → s.sound g) ∧
      ∀ g, tLocalBase / 8 ≤ g → g < (tLocalBase + 0x200000) / 8 → s.sound g
    (¬released → exec .resetRelease s = .next s) ∧
    (released → ∃ u : State, exec .resetRelease s = .next u ∧ u.pwr.asserted = 0 ∧ u.rd CLK_STAT.LOCK = 0xF ∧
      u.rd CLK_STAT.REFOK = 1 ∧ (∃ t, (⟨.resetN, 0, t, [1]⟩ : Out) ∈ u.out) ∧
      (s.pwr.asserted = 3 → u.time = 0 ∧ u.chn.listen = if s.rd CHN_CTL.HEAD = 1 then some (u.refNow + 10000000, none) else none) ∧
      (0 ≤ (s.time : Int) + s.chn.fabOff → u.refNow = max s.refNow (s.pwr.until_ + 1000)) ∧
      (shut → waits u ∧ u.rd RST_STAT.WIN = s.rd RST_STAT.WIN ∧ (s.rd RST_STAT.LULL = 0 → u.mem = s.mem)) ∧
      (¬shut → 3 ≤ s.rd RST_STARTS.COUNT → waits u ∧ u.rd RST_STAT.LULL = 1 ∧ u.stageBase = 0x808000000 ∧
        u.rd RST_STAT.WIN = s.rd RST_STAT.WIN ∧ (s.pwr.last = 1 → u.rd SCH_STAT.STATE = 0 ∧ u.rd ARC_STAT.STATE = 0)) ∧
      (¬shut → s.rd RST_STARTS.COUNT < 3 → u.rd RST_STAT.WIN = 1 ∧ u.pwr.winLeft = 2000000000 ∧ (swap → u.rd SCH_SWAP_STAT.FWSWAP = 0) ∧
        (¬swap → s.pwr.last ≥ 3 ∨ s.bootRecOk = false → recipeFormOk (s.bytes (flashAt 0 0) 4096) = false →
          recipeFormOk (s.bytes (flashAt 1 0) 4096) = false → waits u ∧ (s.rd RST_STAT.LULL = 0 → u.mem = s.mem)) ∧
        (¬swap → s.pwr.last < 3 → s.bootRecOk = true → bitb (fieldOf r 4 4) 1 = false → inBulk base (min len 0x200000) = true → free →
          match fwImage (s.bytes base (min len 0x200000)) with
          | none => True
          | some img => img.len = len → Config.sha256 img.body = (recSlot r act).2.2 →
            u.tri.pc = BitVec.ofNat 40 (tLocalBase + img.entry) ∧ u.pwr.path = (if s.pwr.last = 1 then 2 else 1) ∧
            (u.g 1).toNat = (if s.pwr.last = 1 then 2 else 1) ∧ (u.g 2).toNat = fieldOf r 8 8 ∧
            (u.g 3).toNat = fieldOf r 0x10 8 ∧ (u.g 4).toNat = s.rdReg RST_CAUSE.addr ∧
            u.bytes (tLocalBase + img.load) img.body.length = img.body)))

/-- R436, R443: a write of RST_FL_CTL with GO starts the operation, and GO is ignored while one runs, the other fields being
written (R8); RAW sends its bytes at once; DRST pulses the device's reset contact. READ copies flash to Bulk; PROGRAM clears
bits of the flash as Bulk has them clear; ERASE sets every bit; one that fails, or whose addresses break the rules, leaves
ERR. Where the spec leaves a point open, the statement follows the model's choices, log entries 9, 48 and 87. -/
def Obligations.FlashEngine : Prop :=
  ∀ (s : State) (value : BitVec 32) (dev op fa ba len : Nat),
    let w := value.toNat
    let idle : Prop := s.rd RST_FL_CTL.BUSY = 0
    let job (op : Nat) : Nat × Nat × Nat × Nat × Nat := (bit w 25, op, s.rd RST_FL_FADDR.FADDR,
      s.rd RST_FL_BADDR_LO.ADDR_LO * 64 + s.rd RST_FL_BADDR_HI.ADDR_HI * 2 ^ 32, s.rd RST_FL_LEN.LEN)
    let fields (op : Nat) : List (Fld × Nat) := [(RST_FL_CTL.OP, op), (RST_FL_CTL.DEV, bit w 25), (RST_FL_CTL.OCT, bit w 24),
      (RST_FL_CTL.DUMMY, bits w 23 16), (RST_FL_CTL.MHZ, bits w 15 8)]
    let plain : Prop := bitb w 29 = false ∧ bitb w 28 = false
    let starts (i : Instr) (op : Nat) : Prop := ∃ u : State, exec i s = .next u ∧
      u = { s with regs := u.regs, pwr.flash := some (job op) } ∧ s.sets u ((RST_FL_CTL.BUSY, 1) :: fields op)
    let only (i : Instr) (op : Nat) : Prop := ∃ u : State, exec i s = .next u ∧ s.setsOnly u (fields op)
    let at_ := flashAt dev fa
    let ends (res : Res) (err : Nat) : Prop := ∃ u : State, res = .next u ∧ s.sets u [(RST_FL_CTL.BUSY, 0), (RST_FL_CTL.ERR, err)] ∧
      u = { s with regs := u.regs, pwr.flash := none }
    let fits : Prop := fa + len ≤ 2 ^ 27 ∧ dev < 2
    let bulk : Prop := inBulk ba len = true ∧ s.pwr.asserted ≤ 1 ∧ s.bulk.redir = [] ∧ s.bulk.ueGran = [] ∧
      ∀ g, bulkBase / 8 ≤ g → g < bulkEnd / 8 → s.sound g
    let done (u : State) : Prop := u.pwr = { s.pwr with flash := none } ∧ u.rd RST_FL_CTL.BUSY = 0 ∧
      u.rd RST_FL_CTL.ERR = s.rd RST_FL_CTL.ERR
    (plain → idle → starts (.flashRead value) 0 ∧ starts (.program value) 1 ∧ starts (.erase value) 2) ∧
    (plain → ¬idle → only (.flashRead value) 0 ∧ only (.program value) 1 ∧ only (.erase value) 2 ∧ only (.raw value) 3) ∧
    (plain → idle → bitb w 24 = false → ∃ u : State, exec (.raw value) s = .next u ∧
      u = { s with regs := u.regs, out := u.out, pwr.flash := some (job 3) } ∧ s.sets u ((RST_FL_CTL.BUSY, 1) :: fields 3) ∧
      u.out = s.out ++ [(⟨.flash, bit w 25, s.time, [0x06]⟩ : Out), (⟨.flash, bit w 25, s.time,
        [BitVec.ofNat 8 (s.rd RST_FL_RAW.OP)] ++
        (if s.rd RST_FL_RAW.HASADDR = 1 then (toBytes 4 (s.rd RST_FL_FADDR.FADDR)).reverse else []) ++
        (if s.rd RST_FL_RAW.HASDATA = 1 then [BitVec.ofNat 8 (s.rd RST_FL_RAW.DATA)] else [])⟩ : Out)]) ∧
    (plain → idle → bitb w 24 = true → only (.raw value) 3) ∧
    (bitb w 31 = false → bitb w 29 = false → ∃ u : State, exec (.drst value) s = .next u ∧
      u = { s with regs := u.regs, out := s.out ++ [(⟨.flash, 2 + bit w 25, s.time, [0]⟩ : Out)] } ∧
      s.sets u (fields (bits w 27 26))) ∧
    (s.pwr.flash = none → exec (.flashDone false) s = .next s ∧ exec (.flashDone true) s = .next s) ∧
    (s.pwr.flash = some (dev, op, fa, ba, len) → ends (exec (.flashDone true) s) 1) ∧
    (s.pwr.flash = some (dev, 3, fa, ba, len) → fa + len ≤ 2 ^ 27 →
      ends (exec (.flashDone false) s) (s.rd RST_FL_CTL.ERR)) ∧
    (s.pwr.flash = some (dev, op, fa, ba, len) → 2 ^ 27 < fa + len ∨ (op = 0 ∧ len % 64 ≠ 0) ∨
      (op = 1 ∧ (fa % 256 ≠ 0 ∨ len % 256 ≠ 0)) ∨ (op = 2 ∧ (fa % 4096 ≠ 0 ∨ len % 4096 ≠ 0)) → ends (exec (.flashDone false) s) 1) ∧
    (s.pwr.flash = some (dev, 0, fa, ba, len) → fits → len % 64 = 0 → bulk → ∃ u : State, exec (.flashDone false) s = .next u ∧
      done u ∧ u.bytes ba len = s.bytes at_ len ∧ s.bytesBut u [(ba, len)]) ∧
    (s.pwr.flash = some (dev, 1, fa, ba, len) → fits → fa % 256 = 0 → len % 256 = 0 → bulk →
      ∃ u : State, exec (.flashDone false) s = .next u ∧ done u ∧ s.bytesBut u [(at_, len)] ∧
        ∀ i, i < len → u.byte (at_ + i) = s.byte (ba + i) &&& s.byte (at_ + i)) ∧
    (s.pwr.flash = some (dev, 2, fa, ba, len) → fits → fa % 4096 = 0 → len % 4096 = 0 →
      ∃ u : State, exec (.flashDone false) s = .next u ∧ done u ∧ s.bytesBut u [(at_, len)] ∧
        ∀ i, i < len → u.byte (at_ + i) = 0xFF)

/-- R421, R446 to R448, R451 to R456: the lifecycle moves by its commands alone; a move blows its fuse, wipes the Secure Store,
erases the session keys, ends the debug unlock and calls for a cold reset; any other is refused. A key slot is programmed
once, in PROVISIONED, and revoked by another slot's signature. Every command draws a fresh nonce. A tamper source wipes,
erases, clears the secure mailbox channels and calls for a cold reset; the lifecycle stays as it was. Where the spec leaves
a point open, the statement follows the model's choices, log entries 12, 13 and 91. -/
def Obligations.Lifecycle : Prop :=
  ∀ (s : State) (arg : Fin 4) (src : BitVec 4), s.pwr.state = .run ∨ s.pwr.state = .idle →
    let locked (u : State) : Prop := u.rd DBG_STAT.UNLOCKED = 0 ∧ u.rd DBG_STAT.SCOPESEC = 0 ∧ u.dbg = { s.dbg with run := false }
    let wiped (u : State) : Prop := (s.secureStuck = [] → u.rd SEC_STAT.WIPEFAIL = s.rd SEC_STAT.WIPEFAIL ∧
        ∀ a, secureBase ≤ a → a < secureBase + 0x10000 → u.byte a = 0) ∧
      (∀ g i j, i < j → j < 64 → s.secureStuck = [(g, BitVec.ofNat 72 (2 ^ i + 2 ^ j))] → u.rd SEC_STAT.WIPEFAIL = 1) ∧
      ∀ a, a < secureBase ∨ secureBase + 0x10000 ≤ a → u.byte a = s.byte a
    let keyless (u : State) : Prop := u.chn = { s.chn with keys := [], sess := [] }
    let moves (i : Instr) (n : Nat) (retired : Bool) : Prop := ∃ u : State, exec i s = .next u ∧
      u.sec = { s.sec with n := n, retired := retired, nonce := s.free } ∧ u.free = s.free + 1 ∧ keyless u ∧ wiped u ∧ locked u ∧
      s.calls u 3 11 ∧ u.tri = s.tri
    let refused (i : Instr) : Prop := ∃ u : State, exec i s = .next u ∧ s.sets u [(SEC_STAT.REFUSED, 1)] ∧
      u = { s with regs := u.regs, free := s.free + 1, sec.nonce := s.free }
    let n := s.sec.n
    let k := arg.val
    let m := if s.pwr.fail = true then Nat.land src.toNat 9 else src.toNat
    (s.lifecycle = if s.sec.retired = true then 4 else if n = 0 then 0 else if n = 1 then 1 else if n % 2 = 0 then 2 else 3) ∧
    (s.lifecycle = 0 → moves (.provision true) (n + 1) s.sec.retired) ∧ refused (.provision false) ∧
    (s.lifecycle ≠ 0 → refused (.provision true)) ∧
    (s.lifecycle = 1 → s.sec.prog % 16 ≠ 0 → moves .deploy (n + 1) s.sec.retired) ∧
    (s.lifecycle ≠ 1 ∨ s.sec.prog % 16 = 0 → refused .deploy) ∧
    (s.lifecycle = 2 → n ≤ 126 → if s.authorised (fun _ => true) 3 arg then moves (.service arg) (n + 1) s.sec.retired
      else refused (.service arg)) ∧
    (s.lifecycle ≠ 2 ∨ 126 < n → refused (.service arg)) ∧
    (s.lifecycle = 3 → moves .lifecycleResume (n + 1) s.sec.retired) ∧ (s.lifecycle ≠ 3 → refused .lifecycleResume) ∧
    (s.lifecycle = 1 ∨ s.lifecycle = 3 → moves (.retire arg) n true) ∧
    (s.lifecycle = 2 → if s.authorised (fun _ => true) 5 arg then moves (.retire arg) n true else refused (.retire arg)) ∧
    (s.lifecycle = 0 ∨ s.lifecycle = 4 → refused (.retire arg)) ∧
    (s.lifecycle = 1 → bitb s.sec.prog k = false → exec (.keyprog arg) s = .next { s with
      free := s.free + 1
      sec := { s.sec with
        nonce := s.free, prog := Nat.lor s.sec.prog (2 ^ k)
        keys := (k, s.words16 SEC_KBUF.KBUF) :: s.sec.keys.filter (fun x => x.1 != k) } }) ∧
    (s.lifecycle ≠ 1 ∨ bitb s.sec.prog k = true → refused (.keyprog arg)) ∧
    ((∃ j, j < 4 ∧ j ≠ k ∧ s.slotUsable j = true) → if s.authorised (fun j => j != k) 7 k then
        exec (.revoke arg) s = .next { s with
          free := s.free + 1, sec := { s.sec with nonce := s.free, revoked := Nat.lor s.sec.revoked (2 ^ k) } }
      else refused (.revoke arg)) ∧
    ((∀ j, j < 4 → j ≠ k → s.slotUsable j = false) → refused (.revoke arg)) ∧
    (∃ u : State, exec .wipe s = .next u ∧ wiped u ∧ u = { s with regs := u.regs, mem := u.mem, syn := u.syn }) ∧
    (m = 0 ∨ s.lifecycle = 0 → exec (.tamper src) s = .next s) ∧
    (m ≠ 0 → s.lifecycle ≠ 0 → ∃ u : State, exec (.tamper src) s = .next u ∧ u.sec = s.sec ∧ keyless u ∧ wiped u ∧ locked u ∧
      s.calls u 3 10 ∧ u.rd SEC_TAMPER.CAUSE = Nat.lor (s.rd SEC_TAMPER.CAUSE) m ∧
      u.rd SEC_TAMPER_CNT.COUNT = s.more SEC_TAMPER_CNT.COUNT ∧
      (∀ c w, 32 ≤ c → c < 64 → w < 16 → u.rd (MBX_RX.DATA c w) = 0 ∧ u.rd (MBX_TX.DATA c w) = 0 ∧ u.rd (MBX_DB.DB c) = 0 ∧
        u.rd (MBX_STAT.FULL c) = 0 ∧ u.rd (MBX_STAT.EMPTY c) = 0 ∧ u.rd (MBX_STAT.COLLIDE c) = 0) ∧
      ∀ c w, c < 32 → w < 16 → u.rd (MBX_RX.DATA c w) = s.rd (MBX_RX.DATA c w) ∧ u.rd (MBX_STAT.FULL c) = s.rd (MBX_STAT.FULL c))

/-- R459, R460, R462 to R464, R467: the wire wakes by eight even pulses and sleeps after a long low or a millisecond; an ACTIVE
one answers each command with its STATUS: BADCRC for a wrong CRC, WAIT while an access has still to answer, LOCKED beyond
the access level, BADCMD for a reserved register or a misaligned address. A memory access reads or writes 4 bytes and moves
DBG_MADDR on; one that is slow answers WAIT and leaves its result for RSLT. Where the spec leaves a point open, the
statement follows the model's choices, log entries 54, 62 and 90. -/
def Obligations.DebugWire : Prop :=
  ∀ (s : State) (crc : BitVec 8) (idx : BitVec 8) (v : BitVec 32) (a : BitVec 40) (ps : List Nat),
    let powered : Prop := s.pwr.state = .run ∨ s.pwr.state = .idle
    let active : Prop := powered ∧ s.rd DBG_STAT.LINK = 1
    let all (p : Instr → Prop) : Prop := p (.drd idx crc) ∧ p (.dwr idx v crc) ∧ p (.mrd a crc false) ∧ p (.mwr a v crc false) ∧
      p (.mrdn crc false) ∧ p (.mwrn v crc false) ∧ p (.rslt crc)
    let good (c : DCmd) : Prop := active ∧ crc8 c.fields = crc.toNat
    let free (c : DCmd) : Prop := good c ∧ s.dbg.waits = false ∧ s.dbgFree = true
    let line (u : State) (st : Nat) (d : Option Nat) : Prop := u.resp = .code st (d.getD 0) ∧ ∃ x, u.out = s.out ++
      [(⟨.debugWire, 0, s.time, toBytes 1 st ++ (match d with | some y => toBytes 4 y | none => []) ++ [x]⟩ : Out)]
    let tells (i : Instr) (st : Nat) (d : Option Nat) : Prop := ∃ u : State, exec i s = .next u ∧ line u st d ∧
      u = { s with resp := u.resp, out := u.out, dbg.edgeAt := s.refNow }
    let bad (i : Instr) (c : DCmd) : Prop := active → crc8 c.fields ≠ crc.toNat → ∃ u : State, exec i s = .next u ∧
      line u dBadcrc none ∧ s.sets u [(DBG_STAT.BADCRC, 1)] ∧
      u = { s with regs := u.regs, resp := u.resp, out := u.out, dbg.edgeAt := s.refNow }
    let next4 (x : Nat) : List (Fld × Nat) := [(DBG_MADDR_LO.ADDR_LO, (x + 4) % 2 ^ 32 / 4),
      (DBG_MADDR_HI.ADDR_HI, (x + 4) % 2 ^ 40 / 2 ^ 32)]
    let got (x : Nat) : Nat := s.num x 4
    let here (x : Nat) : Prop := x % 4 = 0 ∧ s.inLocal 4 x
    let reads (i : Instr) (x : Nat) : Prop := ∃ u : State, exec i s = .next u ∧ line u dOk (some (got x)) ∧ s.sets u (next4 x) ∧
      u = { s with regs := u.regs, resp := u.resp, out := u.out, credit := u.credit, xw.turn := u.xw.turn, dbg.edgeAt := s.refNow }
    let writes (i : Instr) (x : Nat) : Prop := ∃ u : State, exec i s = .next u ∧ line u dOk none ∧ s.sets u (next4 x) ∧
      u.num x 4 = v.toNat ∧ s.bytesBut u [(x, 4)] ∧ u.tagged x = false ∧ u.tri = s.tri
    let even : Prop := ps.length = 8 ∧ (∀ p ∈ ps, 10 * p ≤ 11 * ps.headD 0 ∧ 9 * ps.headD 0 ≤ 10 * p) ∧
      16000 ≤ ps.foldl (· + ·) 0 ∧ ps.foldl (· + ·) 0 ≤ 112000
    (¬active → all (fun i => exec i s = .next s)) ∧
    bad (.drd idx crc) (.drd idx.toNat) ∧ bad (.dwr idx v crc) (.dwr idx.toNat v.toNat) ∧ bad (.mrd a crc false) (.mrd a.toNat) ∧
    bad (.mwr a v crc false) (.mwr a.toNat v.toNat) ∧ bad (.mrdn crc false) .mrdn ∧ bad (.mwrn v crc false) (.mwrn v.toNat) ∧
    bad (.rslt crc) .rslt ∧
    (s.dbg.waits = true → (good (.drd idx.toNat) → tells (.drd idx crc) dWait none) ∧
      (good (.dwr idx.toNat v.toNat) → tells (.dwr idx v crc) dWait none) ∧ (good (.mrd a.toNat) → tells (.mrd a crc false) dWait none) ∧
      (good (.mwr a.toNat v.toNat) → tells (.mwr a v crc false) dWait none) ∧ (good .mrdn → tells (.mrdn crc false) dWait none) ∧
      (good (.mwrn v.toNat) → tells (.mwrn v crc false) dWait none)) ∧
    (s.dbg.waits = false → s.dbgFree = false →
      (good (.drd idx.toNat) → idx.toNat ∉ [0, 8, 9, 14] → idx.toNat < 16 ∨ 24 ≤ idx.toNat → tells (.drd idx crc) dLocked none) ∧
      (good (.dwr idx.toNat v.toNat) → idx.toNat ≠ 10 → idx.toNat < 32 ∨ 48 ≤ idx.toNat → tells (.dwr idx v crc) dLocked none) ∧
      (good (.mrd a.toNat) → tells (.mrd a crc false) dLocked none) ∧ (good (.mwr a.toNat v.toNat) → tells (.mwr a v crc false) dLocked none) ∧
      (good .mrdn → tells (.mrdn crc false) dLocked none) ∧ (good (.mwrn v.toNat) → tells (.mwrn v crc false) dLocked none)) ∧
    (free (.drd 8) → tells (.drd 8 crc) dOk (some (s.sec.serial.toNat % 2 ^ 32))) ∧
    (free (.drd 9) → tells (.drd 9 crc) dOk (some (s.sec.serial.toNat / 2 ^ 32))) ∧
    (free (.drd 11) → tells (.drd 11 crc) dBadcmd none) ∧
    (free (.drd 5) → s.rd DBG_STAT.HALTED = 1 → s.rd DBG_RSEL.FILE = 0 → s.rd DBG_RSEL.NUM < 32 →
      tells (.drd 5 crc) dOk (some ((s.g (s.rd DBG_RSEL.NUM)).toNat / 2 ^ 32 % 2 ^ 32))) ∧
    (free (.drd 4) → s.rd DBG_STAT.HALTED = 1 → 7 ≤ s.rd DBG_RSEL.FILE →
      tells (.drd 4 crc) dOk (some (s.tri.pc.toNat % 2 ^ 32))) ∧
    (free (.drd 4) → s.rd DBG_STAT.HALTED = 0 → ∃ u : State, exec (.drd 4 crc) s = .next u ∧ line u dFault none ∧
      s.sets u [(DBG_STAT.ERR, 1)]) ∧
    (free (.dwr 3 v.toNat) → ∃ u : State, exec (.dwr 3 v crc) s = .next u ∧ line u dOk none ∧
      u.rd DBG_RSEL.PART = bits v.toNat 13 12 ∧ u.rd DBG_RSEL.FILE = bits v.toNat 10 8 ∧ u.rd DBG_RSEL.NUM = bits v.toNat 7 0 ∧
      s.regsBut u [DBG_RSEL.addr] ∧
      u = { s with regs := u.regs, resp := u.resp, out := u.out, dbg.edgeAt := s.refNow }) ∧
    (free (.dwr 11 v.toNat) → tells (.dwr 11 v crc) dBadcmd none) ∧
    (free (.mrd a.toNat) → here a.toNat → reads (.mrd a crc false) a.toNat) ∧
    (free .mrdn → here s.dbgMaddr → reads (.mrdn crc false) s.dbgMaddr) ∧
    (free (.mwr a.toNat v.toNat) → here a.toNat → writes (.mwr a v crc false) a.toNat) ∧
    (free (.mwrn v.toNat) → here s.dbgMaddr → writes (.mwrn v crc false) s.dbgMaddr) ∧
    (free (.mrd a.toNat) → a.toNat % 4 ≠ 0 → tells (.mrd a crc false) dBadcmd none) ∧
    (free (.mrd a.toNat) → here a.toNat → ∃ u : State, exec (.mrd a crc true) s = .next u ∧ line u dWait none ∧
      u.dbg = { s.dbg with edgeAt := s.refNow, waits := true, last := (dOk, got a.toNat) }) ∧
    (good .rslt → s.dbg.waits = true → s.dbgFree = true → ∃ u : State, exec (.rslt crc) s = .next u ∧
      line u s.dbg.last.1 (if s.dbg.last.1 = dOk then some s.dbg.last.2 else none) ∧
      u = { s with resp := u.resp, out := u.out, dbg := { s.dbg with edgeAt := s.refNow, waits := false } }) ∧
    (free .rslt → tells (.rslt crc) dBadcmd none) ∧
    (powered → s.rd DBG_STAT.LINK = 0 → even → ∃ u : State, exec (.wakeSequence ps) s = .next u ∧
      u = { s with regs := u.regs, out := s.out ++ [(⟨.debugWire, 0, s.time, []⟩ : Out)], dbg.edgeAt := s.refNow } ∧
      s.sets u [(DBG_STAT.LINK, 1), (DBG_STAT.TC, ps.foldl (· + ·) 0 / 500)]) ∧
    (¬powered ∨ s.rd DBG_STAT.LINK = 1 ∨ ¬even → exec (.wakeSequence ps) s = .next s) ∧
    (powered → ∃ u : State, exec .longLow s = .next u ∧ s.setsOnly u [(DBG_STAT.LINK, 0), (DBG_STAT.RESETSEEN, 1)]) ∧
    (¬powered → exec .longLow s = .next s) ∧
    (active → ∃ u : State, exec .linkTimeout s = .next u ∧ s.sets u [(DBG_STAT.LINK, 0)] ∧
      u = { s.fabUntil (16 * (s.dbg.edgeAt + 1000000)) with regs := u.regs }) ∧
    (¬active → exec .linkTimeout s = .next s)

/-- R203, R419, R466 to R475: HALT stops Trifle at once where it may stop and at the next boundary otherwise, in Frost or Freeze
as MODE says, whose change in a halt stops the counts that Freeze names; STEP and RESUME act only on a halted Trifle; LOCK
ends the unlock; RST calls for a reset; DBG_RDATA_HI writes the selected register of a halted Trifle; UNLOCK is granted
where its signature verifies and draws a new nonce; the terminal's buffers pass bytes in order, 64 at most; a batch does by
the tunnel what the wire does. A probe without access is LOCKED. Where the spec leaves a point open, the statement follows
the model's choices, log entries 22, 51 and 62. -/
def Obligations.RunControl : Prop :=
  ∀ (s : State) (value : BitVec 32) (b : Byte) (scope : BitVec 8) (r : RxFrame), s.pwr.state = .run ∨ s.pwr.state = .idle →
    let w := value.toNat
    let plain : Prop := bits w 31 29 = 0 ∧ bits w 24 22 = 0
    let ctl : List (Fld × Nat) := [(DBG_CTL.MODE, bit w 28), (DBG_CTL.HALTRST, bit w 27), (DBG_CTL.MASKINT, bit w 26),
      (DBG_CTL.SECURE, bit w 25)]
    let okay : Resp := .code dOk 0
    let v : State := s.pauseFrom (s.wr DBG_CTL.MODE (bit w 28))
    let pauses (b : Nat) : Prop := s.rd DBG_CTL.MODE = 0 ∧ bit w 28 = 1 ∧ s.rd DBG_STAT.FROST = 0 ∧ bitb (s.rd DBG_FREEZE.BLOCKS) b = true
    let acts (i : Instr) (l : List (Fld × Nat)) (dbg : DbgS) : Prop := ∃ u : State, exec i s = .next u ∧
      u = { s with regs := u.regs, resp := okay, dbg := dbg, pwr := v.pwr } ∧ s.sets u (l ++ ctl)
    let free : Prop := s.dbgFree = true ∧ plain
    let mayStop : Prop := s.triClocked = true ∧ s.tri.slot = none ∧ s.tri.rpt = none
    let halted : Prop := s.rd DBG_STAT.HALTED = 1
    let resets (i : Instr) (k : Nat) : Prop := ∃ u : State, exec i s = .next u ∧ v.calls u k 9 ∧
      u = { s with regs := u.regs, pwr := u.pwr, resp := okay } ∧
      s.sets u ((RST_CAUSE.CAUSE, Nat.lor (s.rd RST_CAUSE.CAUSE) (2 ^ 9)) :: ctl)
    let refused (i : Instr) : Prop := exec i s = .next { s with resp := .code dLocked 0 }
    let n := s.rd DBG_RSEL.NUM
    let k := s.sourceSlice 0
    let full : List (Fld × Nat) := [(DBG_VTSTAT.LOST, s.more DBG_VTSTAT.LOST)]
    let msg := nonceBytes s.sec.dbgNonce ++ toBytes 8 s.sec.serial.toNat ++ [0x08] ++ toBytes 1 scope.toNat
    (¬halted ∨ bit w 28 = s.rd DBG_CTL.MODE → v.pwr = s.pwr) ∧
    (halted → pauses 1 → v.pwr.winLeft = s.pwr.winLeft - (s.refNow - s.pwr.winFrom)) ∧
    (halted → pauses 0 → v.pwr.wdtFrom = s.refNow - s.pwr.wdtFrom) ∧
    (free → ¬halted → mayStop → ∃ u : State, exec (.halt value) s = .next u ∧ u.resp = okay ∧ u.rd DBG_STAT.HALTED = 1 ∧
      u.rd RCV_STAT.LOCKSTEP_BROKEN = 1 ∧ u.rd DBG_STAT.FROST = 1 - bit w 28 ∧ u.rd DBG_CTL.HALT = 1 ∧
      u.dbg = { s.dbg with halting := false } ∧ u.mem = s.mem ∧ u.rd DBG_STAT.SLICE = k ∧ s.logs u 0x09 k 0 0 ∧
      u.tri = { s.tri with g := u.tri.g, f := u.tri.f, v := u.tri.v, p := u.tri.p, pc := u.tri.pc } ∧
      (s.rcv.resync.any (fun q => bitb q.odd k) = false → u.tri = s.tri)) ∧
    (free → ¬halted → ¬mayStop → acts (.halt value) [(DBG_CTL.HALT, 1)] { s.dbg with halting := true }) ∧
    (free → halted → acts (.halt value) [(DBG_CTL.HALT, 1)] s.dbg) ∧
    (free → halted → s.tri.ev = false ∨ s.tri.wait = none → acts (.step value) [] { s.dbg with step := true }) ∧
    (∀ (rd : Fin 32) (x : Nat), free → halted → s.tri.wait = some (.event rd x) → s.tri.ev = true → s.pwr.state = .run →
      s.pwr.asserted = 0 → s.pwr.req = 0 → s.rcv.paused = none → ∃ u : State, exec (.step value) s = .next u ∧ u.resp = okay ∧ u.tri.ev = false ∧
        u.tri.wait = none ∧ ∀ r : Fin 32, u.g r = if r = rd then 0 else s.g r) ∧
    (free → ¬halted → acts (.step value) [] s.dbg ∧ acts (.resume value) [] s.dbg) ∧
    (free → halted → ∃ u : State, exec (.resume value) s = .next u ∧ u.resp = okay ∧ u.rd DBG_STAT.HALTED = 0 ∧
      u.rd DBG_STAT.FROST = 0 ∧ u.rd DBG_CTL.HALT = 0 ∧ u.rd CHN_STAT.LOCK = s.rd CHN_CTL.HEAD ∧ u.dbg = { s.dbg with step := false } ∧
      u.mem = s.mem ∧ (s.rd RCV_STAT.LOCKSTEP_BROKEN = 1 →
        u.rcv.resync = some ⟨match s.rcv.resync with | some q => q.out | none => none, 0⟩)) ∧
    (free → acts (.lock value) [(DBG_STAT.UNLOCKED, 0), (DBG_STAT.SCOPESEC, 0)] { s.dbg with run := false }) ∧
    (free → resets (.dbgCoreReset value) 1 ∧ resets (.dbgWarmReset value) 2 ∧ resets (.dbgColdReset value) 3) ∧
    (s.dbgFree = false → refused (.halt value) ∧ refused (.step value) ∧ refused (.resume value) ∧ refused (.lock value) ∧
      refused (.dbgCoreReset value) ∧ refused (.dbgWarmReset value) ∧ refused (.dbgColdReset value) ∧ refused (.dbgRdata value) ∧
      refused (.dbgTxd none) ∧ refused (.dbgRxd (some b))) ∧
    (s.lifecycle = 4 → refused (.unlock scope)) ∧
    (s.lifecycle ≠ 4 → ∃ u : State, exec (.unlock scope) s = .next u ∧ u.resp = okay ∧ u.free = s.free + 1 ∧
      u.sec = { s.sec with dbgNonce := s.free } ∧
      if scope.toNat < 4 ∧ s.slotSigned (fun _ => true) msg (s.words16 DBG_AUTH.AUTH) = true then
        u.dbg = { s.dbg with run := bitb scope.toNat 0 } ∧
        s.sets u [(DBG_STAT.UNLOCKED, 1), (DBG_STAT.SCOPESEC, bit scope.toNat 1)]
      else u.dbg = s.dbg ∧ s.sets u [(DBG_STAT.UNLKFAIL, 1)]) ∧
    (s.dbgFree = true → ¬halted → ∃ u : State, exec (.dbgRdata value) s = .next u ∧
      u = { s with regs := u.regs, resp := okay } ∧ s.sets u [(DBG_RDATA_HI.DATA, w)]) ∧
    (s.dbgFree = true → halted → s.rd DBG_RSEL.FILE = 0 → n < 32 → ∃ u : State, exec (.dbgRdata value) s = .next u ∧
      u = { s with regs := u.regs, resp := okay, tri.g := u.tri.g } ∧ s.sets u [(DBG_RDATA_HI.DATA, w)] ∧
      ∀ x, u.g x = if x = n ∧ n ≠ 0 then BitVec.ofNat 64 (s.rd DBG_RDATA_LO.DATA + w * 2 ^ 32) else s.g x) ∧
    (s.dbgFree = true → halted → 7 ≤ s.rd DBG_RSEL.FILE → ∃ u : State, exec (.dbgRdata value) s = .next u ∧
      u = { s with regs := u.regs, resp := okay, tri.pc := BitVec.ofNat 40 (s.rd DBG_RDATA_LO.DATA + w * 2 ^ 32) }) ∧
    (s.dbg.tx.length < 64 → exec (.dbgTxd (some b)) s = .next { s with resp := .done, dbg.tx := s.dbg.tx ++ [b] }) ∧
    (64 ≤ s.dbg.tx.length → ∃ u : State, exec (.dbgTxd (some b)) s = .next u ∧ u = { s with regs := u.regs, resp := .done } ∧
      s.sets u full) ∧
    (∀ rest, s.dbgFree = true → s.dbg.tx = b :: rest →
      exec (.dbgTxd none) s = .next { s with resp := .code dOk (b.toNat + 2 ^ 31), dbg.tx := rest }) ∧
    (s.dbgFree = true → s.dbg.rx.length < 64 →
      exec (.dbgRxd (some b)) s = .next { s with resp := okay, dbg.rx := s.dbg.rx ++ [b] }) ∧
    (∀ rest, s.dbg.rx = b :: rest →
      exec (.dbgRxd none) s = .next { s with resp := .data (toBytes 4 (b.toNat + 2 ^ 31)), dbg.rx := rest }) ∧
    (s.dbg.rx = [] → exec (.dbgRxd none) s = .next { s with resp := .data (toBytes 4 0) }) ∧
    (s.rd DBG_STAT.FROST = 0 → s.rd CHN_STAT.CC_RESTART = 0 →
      s.chn.rx.find? (fun x => x.frame.cls == clsDebug && x.frame.sub == 0) = some r → r.frame.enc = true →
      (∀ k ∈ s.chn.keys, k.peer ≠ r.frame.src) → s.dbgFree = true → r.text = [2, 13] ++ toBytes 4 w → s.dbg.rx.length < 64 →
      exec .debugBatch s = .next { (s.consumed r) with dbg.rx := s.dbg.rx ++ [BitVec.ofNat 8 w] })

/-- The block's step, as this model takes it: the command at the front of the queue runs on the state with the queue's rest. On
an empty queue one rc passes in Run and Idle, of which Frost leaves only the fabric counter's, and nothing else changes (the
model's choice, log entry 2). -/
def Obligations.StepLaw : Prop :=
  (∀ (c : Instr) (s : State), step { s with pending := c :: s.pending } = exec c s) ∧
  ∀ s : State, s.pending = [] →
    step s = .next (if s.pwr.state = .run ∨ s.pwr.state = .idle then s.pass 10 else s)

/-- R21, R77, R158, R219, R283, R304, R419, R427: after reset, as the spec gives it: Trifle at the boot ROM's first byte with
its registers zero and the root capabilities in place, POR as the cause, the schedule STOPPED, chain time 0, the chain table
empty; and that state's memory and registers are in their canonical forms. Where the spec leaves a point open, the statement
follows the model's choices, log entries 8, 13, 14 and 16. -/
def Obligations.ResetState : Prop :=
  let s := State.reset
  (∀ r, s.g r = 0) ∧ s.tri.mul = [] ∧ s.tri.waiting = [] ∧ s.tri.stack = [] ∧ s.tri.pc = 0 ∧ s.rd XW_CTL.REMAP = 0 ∧
  s.region s.tri.pc.toNat = .bootRom 0 ∧
  (∀ i, i < 16 → (s.c i).tag = decide (i < 7 ∨ i = 15)) ∧
  ((s.c 0).base, (s.c 0).len) = (0, 0xFFFFFFFFFF) ∧ s.c 15 = s.c 0 ∧ s.tri.fcap = s.c 0 ∧
  ((s.c 1).base, (s.c 1).len, (s.c 2).base, (s.c 2).len) = (0, 1024, 0, 1048576) ∧
  ((s.c 3).base, (s.c 3).len, (s.c 4).base, (s.c 4).len) = (0, 64, 0, 8) ∧
  ((s.c 5).base, (s.c 5).len, (s.c 6).base, (s.c 6).len) = (0, 4096, 1, 4095) ∧
  s.tri.htb = 0 ∧ s.tri.esb = 0x1FE000 ∧ s.tri.ml = 0 ∧
  s.rd RST_CAUSE.CAUSE = 1 ∧ s.rd RST_STARTS.COUNT = 0 ∧ s.rd RST_WDT.PERIOD = 1000 ∧ s.rd SCH_STAT.STATE = 0 ∧
  s.rd SCH_STAT.ACT = 0 ∧ s.time = 0 ∧ (∀ w, w < 0x300000 → s.word w = 0) ∧
  (∀ n, n < 64 → s.rd (MBX_STAT.FMASK n) = 1) ∧ s.steady

/-- While only register operations wait, every step, whatever it finds (an instruction that runs, a fault that enters its
handler or escalates, a reset that it calls for, a halt), keeps the memory and the register map in canonical form, the entry
stack within 32 frames, and the compartment and ACTL within their ranges (R289, R292, R294, R295). -/
def Obligations.SteadySteps : Prop :=
  ∀ s t : State, s.steady → step s = .next t → t.steady

/-- R102, R106, R110, R114, R118, R119, R149, R325: where a command of a ribbon chain completes, whatever other chains run, in a
phase in which its class may issue (R57). A descriptor that passes its checks is in use; a Cam table that lies within TLEN
is loaded as it stands; a reader that may present does, and goes on to its next beat-tap; a writer's words for a beat on
which the strands agree are stored; so is the outcome of a stopped chain; a QSINK writer's message reaches a queue that
takes it. Where the spec leaves a point open, the statement follows the model's choices, log entries 65, 69 and 80. -/
def Obligations.RibbonCompletes : Prop :=
  ∀ (s v : State) (chain : BitVec 12) (r : RibRun) (port : Fin 4) (w : Fin 2) (diff : List StrandDiff) (dec : List StrandDec),
    s.live = true → s.rd LAT_SPARE_COPY.ACTIVE = 0 →
    let n := chain.toNat
    let is (ph : RunPhase) : Prop := s.rib.runs.find? (fun x => x.chain == n && x.phase == ph) = some r
    let turn (write : Bool) : Prop := s.untilPhase (fun k => mayIssue k (r.cls write) 0) = some v
    let goesOn (i : Instr) (own : State → RibRun → Prop) : Prop := ∃ (u : State) (y : RibRun), exec i s = .next u ∧
      u.rib.runs = s.rib.runs.map (fun x => if x.chain == n then y else x) ∧ y.chain = n ∧ own u y
    let d := s.peekDesc n
    let caps := (upto 6).map (fun p => s.cctEntry (16 * dCwin d + slCidx d p))
    let p := port.val
    let sz := etW (slEt r.desc 3) / 8
    let at_ (o : Nat) : Nat := slBase r.desc 3 + o * sz
    let el (o : Nat) : Nat := s.word (at_ o / 32) / 2 ^ (8 * (at_ o % 32)) % 2 ^ (8 * sz)
    let pc := bits (el 0) 8 0
    let merged (m x old : Nat) : Nat := Nat.lor (Nat.land old (2 ^ 256 - 1 - m)) (Nat.land x m)
    let stores (u : State) (q : Nat) (d : QDesc) (msg : List Byte) : Prop :=
      u.bytes (d.slotAddr ((d.head + d.depth) % d.n)) 64 = msg ∧ (qdescOf (u.bytes (s.queDescAddr q) 32)).depth = d.depth + 1
    let mine (x : Nat × Nat × Nat × List Byte) : Bool := x.2.1 == 2 * n + w.val
    (is .launched → turn false → (∀ i, i < 8 → s.soundWord (8 * n + i)) → (∀ x ∈ dec, x.bad = false) → descOk d r.soft = true →
      (∀ q, q < 6 → slMode d q ≠ modeOff → s.streamCheck d q (caps.getD q Cap.null) = none) →
      goesOn (.descriptorFetch chain dec) (fun u y => y.desc = d ∧ y.caps = caps ∧ y.phase ≠ .launched ∧ u.mem = s.mem)) ∧
    (is .table → turn false → dec = [] → sz ∣ slBase r.desc 3 → 0 < sz → 0 < slCols r.desc 3 → pc + 1 ≤ slCols r.desc 3 →
      camLen ((upto (pc + 1)).map el) pc ≤ slCols r.desc 3 →
      (∀ o, o < slCols r.desc 3 → s.soundWord (at_ o / 32) ∧ elemOk (r.caps.getD 3 Cap.null) (at_ o) sz = true) →
      goesOn (.tableLoad ⟨chain, dec⟩) (fun _ y => y.phase ≠ .table ∧ (∀ o, o < y.cam.length → nth y.cam o = el o) ∧
        (y.camOk = true → y.cam.length = max (camLen ((upto (pc + 1)).map el) pc) (pc + 1)))) ∧
    (is .running → turn false → r.mayPresent p = true → r.waitsFor p = false →
      goesOn (.streamRead chain port dec) (fun _ y => y.phase = .running →
        if slMode r.desc p = modeBcast then y.reads.getD p [] ≠ [] else r.nextTapNo p < y.nextTapNo p)) ∧
    (∀ b, is .running → turn true → r.beats.find? (fun b => b.left.elem w.val) = some b → b.beat < r.beat →
      goesOn (.streamWrite chain w diff) (fun _ y => y.phase = .running →
        ∀ x ∈ y.beats, x.beat = b.beat → x.left = b.left.erase w.val)) ∧
    (∀ b, is .running → turn true → r.beats = [b] → b.left = [w.val] → b.decs = [] → diff = [] → b.diffs = [[], []] →
      slMode r.desc (4 + w.val) ≠ modeQsink → slMode r.desc (5 - w.val) = modeOff → s.lat.halves = [] →
      (∀ x ∈ r.proposals b w.val, x.word < latWords ∧ s.soundWord x.word) →
      goesOn (.streamWrite chain w diff) (fun u _ =>
        ∀ x ∈ r.proposals b w.val, u.word x.word = merged x.mask x.data (s.word x.word))) ∧
    (is .stopping → turn true → r.qlast = [] → (∀ k, k < 3 → wbDiff diff k = 0) → s.sch.held = none → s.lat.halves = [] →
      s.soundWord (8 * n + 1) → ∃ u : State, exec (.stopWriteBack chain diff) s = .next u ∧ (∀ x ∈ u.rib.runs, x.chain ≠ n) ∧
        u.word (8 * n + 1) = merged r.writeBack.1 r.writeBack.2 (s.word (8 * n + 1))) ∧
    (∀ x qd, s.que.inbuf.find? mine = some x → x.2.2.2.length = 64 → s.queueAt x.2.2.1 qd → qd.depth < qd.n →
      s.queCached x.2.2.1 = true → ∃ u : State, exec (.qsinkMessage chain w diff) s = .next u ∧ stores u x.2.2.1 qd x.2.2.2 ∧
        ((∀ y ∈ s.rib.runs, y.chain = n → y.phase ≠ .running) → u.que.inbuf = s.que.inbuf.erase x)) ∧
    (∀ m qd, is .stopping → s.que.inbuf.find? mine = none → r.qlast.find? (fun y => y.1 == w.val) = some m → diff = [] →
      m.2.length = 64 → s.queueAt (slQueue r.desc (4 + w.val)) qd → qd.depth < qd.n →
      s.queCached (slQueue r.desc (4 + w.val)) = true →
      goesOn (.qsinkMessage chain w diff) (fun u y => y.qlast = r.qlast.erase m ∧ stores u (slQueue r.desc (4 + w.val)) qd m.2))
end

