-- ==== Sys2Proof/Laws/SMap.lean ====
section
/-! SUPPORT. Laws/SMap.lean: what the operations of Machine/SMap.lean do to the value read at a key, and that each keeps
the canonical form. -/

namespace Sys2Proof.Machine

variable {α : Type}

@[simp] theorem SMap.get_nil (d : Nat → α) (k : Nat) : SMap.get d [] k = d k := rfl

theorem SMap.get_cons (d : Nat → α) (a : Nat) (v : α) (t : List (Nat × α)) (k : Nat) :
    SMap.get d ((a, v) :: t) k = if k = a then v else SMap.get d t k := rfl

/-- Erasing a key leaves its default and every other key as it was. -/
theorem SMap.get_erase (d : Nat → α) (m : List (Nat × α)) (k j : Nat) :
    SMap.get d (SMap.erase k m) j = if j = k then d j else SMap.get d m j := by
  induction m with
  | nil => simp [SMap.erase]
  | cons c t ih =>
    obtain ⟨a, w⟩ := c
    by_cases h : k = a
    · subst h; simp only [SMap.erase, if_true, SMap.get_cons, ih]; split <;> simp_all
    · simp only [SMap.erase, if_neg h, SMap.get_cons, ih]
      by_cases hj : j = a
      · subst hj; simp [Ne.symm h]
      · simp [hj]

/-- Inserting a key that is absent gives it its value and leaves every other key as it was. -/
theorem SMap.get_insert (d : Nat → α) (m : List (Nat × α)) (k : Nat) (v : α) (j : Nat) :
    SMap.get d (SMap.insert k v (SMap.erase k m)) j = if j = k then v else SMap.get d m j := by
  induction m with
  | nil => simp [SMap.erase, SMap.insert, SMap.get_cons]
  | cons c t ih =>
    obtain ⟨a, w⟩ := c
    by_cases h : k = a
    · subst h; simp only [SMap.erase, if_true, ih, SMap.get_cons]; split <;> simp_all
    · simp only [SMap.erase, if_neg h]
      by_cases hl : k < a
      · simp only [SMap.insert, if_pos hl, SMap.get_cons, SMap.get_erase]
        by_cases hj : j = k <;> simp [hj]
      · simp only [SMap.insert, if_neg hl, SMap.get_cons, ih]
        by_cases hj : j = a
        · subst hj; simp [Ne.symm h]
        · simp [hj]

/-- A set key reads as its value; every other key reads as before. -/
theorem SMap.get_set [DecidableEq α] (d : Nat → α) (m : List (Nat × α)) (k : Nat) (v : α) (j : Nat) :
    SMap.get d (SMap.set d m k v) j = if j = k then v else SMap.get d m j := by
  unfold SMap.set
  split
  · next h => rw [SMap.get_erase]; split <;> simp_all
  · rw [SMap.get_insert]

@[simp] theorem SMap.get_set_same [DecidableEq α] (d : Nat → α) (m : List (Nat × α)) (k : Nat) (v : α) :
    SMap.get d (SMap.set d m k v) k = v := by simp [SMap.get_set]

theorem SMap.get_set_other [DecidableEq α] (d : Nat → α) (m : List (Nat × α)) (k : Nat) (v : α) (j : Nat) (h : j ≠ k) :
    SMap.get d (SMap.set d m k v) j = SMap.get d m j := by simp [SMap.get_set, h]

/-- A cleared range reads as its defaults; every other key reads as before. -/
theorem SMap.get_clear (d : Nat → α) (m : List (Nat × α)) (lo hi k : Nat) :
    SMap.get d (SMap.clear m lo hi) k = if lo ≤ k ∧ k < hi then d k else SMap.get d m k := by
  unfold SMap.clear
  induction m with
  | nil => simp
  | cons c t ih =>
    obtain ⟨a, w⟩ := c
    by_cases h : a < lo ∨ hi ≤ a
    · rw [List.filter_cons_of_pos (by simpa using h), SMap.get_cons, SMap.get_cons, ih]
      by_cases hk : k = a
      · have hn : ¬(lo ≤ k ∧ k < hi) := by omega
        simp [hk ▸ hn, hk]
      · simp [hk]
    · rw [List.filter_cons_of_neg (by simpa using h), SMap.get_cons, ih]
      by_cases hk : k = a
      · have hn : lo ≤ k ∧ k < hi := by omega
        rw [if_pos hn, if_pos hn]
      · simp [hk]

/-! The canonical form. -/

variable [DecidableEq α]

@[simp] theorem SMap.wf_nil (d : Nat → α) : SMap.wf d [] = true := rfl

theorem SMap.wfFrom_cons (d : Nat → α) (lo a : Nat) (v : α) (t : List (Nat × α)) :
    SMap.wfFrom d lo ((a, v) :: t) = true ↔ lo ≤ a ∧ v ≠ d a ∧ SMap.wfFrom d (a + 1) t = true := by
  simp [SMap.wfFrom, and_assoc]

/-- A form canonical above a bound is canonical above a lower one. -/
theorem SMap.wfFrom_mono (d : Nat → α) (lo lo' : Nat) (m : List (Nat × α)) (h : lo' ≤ lo)
    (hm : SMap.wfFrom d lo m = true) : SMap.wfFrom d lo' m = true := by
  cases m with
  | nil => rfl
  | cons c t =>
    obtain ⟨a, v⟩ := c
    rw [SMap.wfFrom_cons] at hm ⊢
    exact ⟨by omega, hm.2⟩

theorem SMap.wfFrom_erase (d : Nat → α) (k : Nat) (m : List (Nat × α)) :
    ∀ lo, SMap.wfFrom d lo m = true → SMap.wfFrom d lo (SMap.erase k m) = true := by
  induction m with
  | nil => intro lo h; exact h
  | cons c t ih =>
    obtain ⟨a, v⟩ := c
    intro lo h
    rw [SMap.wfFrom_cons] at h
    unfold SMap.erase
    split
    · exact SMap.wfFrom_mono d (a + 1) lo _ (by omega) (ih (a + 1) h.2.2)
    · rw [SMap.wfFrom_cons]; exact ⟨h.1, h.2.1, ih (a + 1) h.2.2⟩

theorem SMap.wfFrom_insert (d : Nat → α) (k : Nat) (v : α) (hv : v ≠ d k) (m : List (Nat × α)) :
    ∀ lo, lo ≤ k → SMap.wfFrom d lo m = true → SMap.wfFrom d lo (SMap.insert k v (SMap.erase k m)) = true := by
  induction m with
  | nil => intro lo hk _; simp only [SMap.erase, SMap.insert, SMap.wfFrom_cons]; exact ⟨hk, hv, rfl⟩
  | cons c t ih =>
    obtain ⟨a, w⟩ := c
    intro lo hk h
    rw [SMap.wfFrom_cons] at h
    by_cases ha : k = a
    · subst ha
      simp only [SMap.erase, if_true]
      exact ih lo hk (SMap.wfFrom_mono d (k + 1) lo _ (by omega) h.2.2)
    · simp only [SMap.erase, if_neg ha]
      by_cases hl : k < a
      · simp only [SMap.insert, if_pos hl, SMap.wfFrom_cons]
        exact ⟨hk, hv, by omega, h.2.1, SMap.wfFrom_erase d k t (a + 1) h.2.2⟩
      · simp only [SMap.insert, if_neg hl, SMap.wfFrom_cons]
        exact ⟨h.1, h.2.1, ih (a + 1) (by omega) h.2.2⟩

/-- Setting a key keeps the canonical form. -/
theorem SMap.wf_set (d : Nat → α) (m : List (Nat × α)) (k : Nat) (v : α) (h : SMap.wf d m = true) :
    SMap.wf d (SMap.set d m k v) = true := by
  unfold SMap.set
  split
  · exact SMap.wfFrom_erase d k m 0 h
  · next hv => exact SMap.wfFrom_insert d k v hv m 0 (Nat.zero_le k) h

theorem SMap.wfFrom_filter (d : Nat → α) (p : Nat × α → Bool) (m : List (Nat × α)) :
    ∀ lo, SMap.wfFrom d lo m = true → SMap.wfFrom d lo (m.filter p) = true := by
  induction m with
  | nil => intro lo h; exact h
  | cons c t ih =>
    obtain ⟨a, v⟩ := c
    intro lo h
    rw [SMap.wfFrom_cons] at h
    rw [List.filter_cons]
    split
    · rw [SMap.wfFrom_cons]; exact ⟨h.1, h.2.1, ih (a + 1) h.2.2⟩
    · exact SMap.wfFrom_mono d (a + 1) lo _ (by omega) (ih (a + 1) h.2.2)

/-- Clearing a range keeps the canonical form. -/
theorem SMap.wf_clear (d : Nat → α) (m : List (Nat × α)) (lo hi : Nat) (h : SMap.wf d m = true) :
    SMap.wf d (SMap.clear m lo hi) = true := SMap.wfFrom_filter d _ m 0 h

/-- Every key of a form canonical above a bound is at least that bound. -/
theorem SMap.key_ge (d : Nat → α) (m : List (Nat × α)) :
    ∀ lo, SMap.wfFrom d lo m = true → ∀ c ∈ m, lo ≤ c.1 ∧ c.2 ≠ d c.1 := by
  induction m with
  | nil => intro _ _ c hc; cases hc
  | cons x t ih =>
    obtain ⟨a, v⟩ := x
    intro lo h c hc
    rw [SMap.wfFrom_cons] at h
    rcases List.mem_cons.1 hc with rfl | hc
    · exact ⟨h.1, h.2.1⟩
    · have := ih (a + 1) h.2.2 c hc; exact ⟨by omega, this.2⟩

theorem SMap.erase_absent (k : Nat) (m : List (Nat × α)) (h : ∀ c ∈ m, c.1 ≠ k) : SMap.erase k m = m := by
  induction m with
  | nil => rfl
  | cons x t ih =>
    obtain ⟨a, v⟩ := x
    have ha : k ≠ a := fun e => h (a, v) (by simp) e.symm
    simp only [SMap.erase, if_neg ha, ih (fun c hc => h c (by simp [hc]))]

/-- Inserting an absent key at a value that is not its default keeps the canonical form. -/
theorem SMap.wf_insert (d : Nat → α) (m : List (Nat × α)) (k : Nat) (v : α) (h : SMap.wf d m = true) (hv : v ≠ d k)
    (hk : ∀ c ∈ m, c.1 ≠ k) : SMap.wf d (SMap.insert k v m) = true := by
  have := SMap.wfFrom_insert d k v hv m 0 (Nat.zero_le k) h
  rwa [SMap.erase_absent k m hk] at this

theorem SMap.mem_insert (k : Nat) (v : α) (m : List (Nat × α)) (c : Nat × α) (h : c ∈ SMap.insert k v m) :
    c = (k, v) ∨ c ∈ m := by
  induction m with
  | nil => simpa [SMap.insert] using h
  | cons x t ih =>
    obtain ⟨a, w⟩ := x
    unfold SMap.insert at h
    split at h
    · simpa using h
    · rcases List.mem_cons.1 h with rfl | h
      · simp
      · rcases ih h with h | h <;> simp [h]

end Sys2Proof.Machine
end

