-- ==== Sys2Proof/Laws/State.lean ====
section
/-! SUPPORT. Laws/State.lean: for each shared update of State, the fields it leaves as they are, and what the fields it
writes then read as. -/

namespace Sys2Proof.Machine

variable (s : State)

@[simp] theorem State.wrReg_mem (a v : Nat) : (s.wrReg a v).mem = s.mem := rfl
@[simp] theorem State.wrReg_syn (a v : Nat) : (s.wrReg a v).syn = s.syn := rfl
@[simp] theorem State.wrReg_stuck (a v : Nat) : (s.wrReg a v).stuck = s.stuck := rfl
@[simp] theorem State.wrReg_tags (a v : Nat) : (s.wrReg a v).tags = s.tags := rfl
@[simp] theorem State.wrReg_credit (a v : Nat) : (s.wrReg a v).credit = s.credit := rfl
@[simp] theorem State.wrReg_xw (a v : Nat) : (s.wrReg a v).xw = s.xw := rfl
@[simp] theorem State.wrReg_time (a v : Nat) : (s.wrReg a v).time = s.time := rfl
@[simp] theorem State.wrReg_free (a v : Nat) : (s.wrReg a v).free = s.free := rfl
@[simp] theorem State.wrReg_resp (a v : Nat) : (s.wrReg a v).resp = s.resp := rfl
@[simp] theorem State.wrReg_out (a v : Nat) : (s.wrReg a v).out = s.out := rfl
@[simp] theorem State.wrReg_bulk (a v : Nat) : (s.wrReg a v).bulk = s.bulk := rfl
@[simp] theorem State.wrReg_lat (a v : Nat) : (s.wrReg a v).lat = s.lat := rfl
@[simp] theorem State.wrReg_rib (a v : Nat) : (s.wrReg a v).rib = s.rib := rfl
@[simp] theorem State.wrReg_sch (a v : Nat) : (s.wrReg a v).sch = s.sch := rfl
@[simp] theorem State.wrReg_rcv (a v : Nat) : (s.wrReg a v).rcv = s.rcv := rfl
@[simp] theorem State.wrReg_tri (a v : Nat) : (s.wrReg a v).tri = s.tri := rfl
@[simp] theorem State.wrReg_icu (a v : Nat) : (s.wrReg a v).icu = s.icu := rfl
@[simp] theorem State.wrReg_que (a v : Nat) : (s.wrReg a v).que = s.que := rfl
@[simp] theorem State.wrReg_fld (a v : Nat) : (s.wrReg a v).fld = s.fld := rfl
@[simp] theorem State.wrReg_mv (a v : Nat) : (s.wrReg a v).mv = s.mv := rfl
@[simp] theorem State.wrReg_cam (a v : Nat) : (s.wrReg a v).cam = s.cam := rfl
@[simp] theorem State.wrReg_chn (a v : Nat) : (s.wrReg a v).chn = s.chn := rfl
@[simp] theorem State.wrReg_arc (a v : Nat) : (s.wrReg a v).arc = s.arc := rfl
@[simp] theorem State.wrReg_pwr (a v : Nat) : (s.wrReg a v).pwr = s.pwr := rfl
@[simp] theorem State.wrReg_sec (a v : Nat) : (s.wrReg a v).sec = s.sec := rfl
@[simp] theorem State.wrReg_dbg (a v : Nat) : (s.wrReg a v).dbg = s.dbg := rfl
@[simp] theorem State.wrReg_pending (a v : Nat) : (s.wrReg a v).pending = s.pending := rfl

@[simp] theorem State.wr_mem (f : Fld) (v : Nat) : (s.wr f v).mem = s.mem := rfl
@[simp] theorem State.wr_syn (f : Fld) (v : Nat) : (s.wr f v).syn = s.syn := rfl
@[simp] theorem State.wr_stuck (f : Fld) (v : Nat) : (s.wr f v).stuck = s.stuck := rfl
@[simp] theorem State.wr_tags (f : Fld) (v : Nat) : (s.wr f v).tags = s.tags := rfl
@[simp] theorem State.wr_credit (f : Fld) (v : Nat) : (s.wr f v).credit = s.credit := rfl
@[simp] theorem State.wr_xw (f : Fld) (v : Nat) : (s.wr f v).xw = s.xw := rfl
@[simp] theorem State.wr_time (f : Fld) (v : Nat) : (s.wr f v).time = s.time := rfl
@[simp] theorem State.wr_free (f : Fld) (v : Nat) : (s.wr f v).free = s.free := rfl
@[simp] theorem State.wr_resp (f : Fld) (v : Nat) : (s.wr f v).resp = s.resp := rfl
@[simp] theorem State.wr_out (f : Fld) (v : Nat) : (s.wr f v).out = s.out := rfl
@[simp] theorem State.wr_bulk (f : Fld) (v : Nat) : (s.wr f v).bulk = s.bulk := rfl
@[simp] theorem State.wr_lat (f : Fld) (v : Nat) : (s.wr f v).lat = s.lat := rfl
@[simp] theorem State.wr_rib (f : Fld) (v : Nat) : (s.wr f v).rib = s.rib := rfl
@[simp] theorem State.wr_sch (f : Fld) (v : Nat) : (s.wr f v).sch = s.sch := rfl
@[simp] theorem State.wr_rcv (f : Fld) (v : Nat) : (s.wr f v).rcv = s.rcv := rfl
@[simp] theorem State.wr_tri (f : Fld) (v : Nat) : (s.wr f v).tri = s.tri := rfl
@[simp] theorem State.wr_icu (f : Fld) (v : Nat) : (s.wr f v).icu = s.icu := rfl
@[simp] theorem State.wr_que (f : Fld) (v : Nat) : (s.wr f v).que = s.que := rfl
@[simp] theorem State.wr_fld (f : Fld) (v : Nat) : (s.wr f v).fld = s.fld := rfl
@[simp] theorem State.wr_mv (f : Fld) (v : Nat) : (s.wr f v).mv = s.mv := rfl
@[simp] theorem State.wr_cam (f : Fld) (v : Nat) : (s.wr f v).cam = s.cam := rfl
@[simp] theorem State.wr_chn (f : Fld) (v : Nat) : (s.wr f v).chn = s.chn := rfl
@[simp] theorem State.wr_arc (f : Fld) (v : Nat) : (s.wr f v).arc = s.arc := rfl
@[simp] theorem State.wr_pwr (f : Fld) (v : Nat) : (s.wr f v).pwr = s.pwr := rfl
@[simp] theorem State.wr_sec (f : Fld) (v : Nat) : (s.wr f v).sec = s.sec := rfl
@[simp] theorem State.wr_dbg (f : Fld) (v : Nat) : (s.wr f v).dbg = s.dbg := rfl
@[simp] theorem State.wr_pending (f : Fld) (v : Nat) : (s.wr f v).pending = s.pending := rfl

@[simp] theorem State.on_mem (f : Fld) : (s.on f).mem = s.mem := rfl
@[simp] theorem State.on_syn (f : Fld) : (s.on f).syn = s.syn := rfl
@[simp] theorem State.on_stuck (f : Fld) : (s.on f).stuck = s.stuck := rfl
@[simp] theorem State.on_tags (f : Fld) : (s.on f).tags = s.tags := rfl
@[simp] theorem State.on_credit (f : Fld) : (s.on f).credit = s.credit := rfl
@[simp] theorem State.on_xw (f : Fld) : (s.on f).xw = s.xw := rfl
@[simp] theorem State.on_time (f : Fld) : (s.on f).time = s.time := rfl
@[simp] theorem State.on_free (f : Fld) : (s.on f).free = s.free := rfl
@[simp] theorem State.on_resp (f : Fld) : (s.on f).resp = s.resp := rfl
@[simp] theorem State.on_out (f : Fld) : (s.on f).out = s.out := rfl
@[simp] theorem State.on_bulk (f : Fld) : (s.on f).bulk = s.bulk := rfl
@[simp] theorem State.on_lat (f : Fld) : (s.on f).lat = s.lat := rfl
@[simp] theorem State.on_rib (f : Fld) : (s.on f).rib = s.rib := rfl
@[simp] theorem State.on_sch (f : Fld) : (s.on f).sch = s.sch := rfl
@[simp] theorem State.on_rcv (f : Fld) : (s.on f).rcv = s.rcv := rfl
@[simp] theorem State.on_tri (f : Fld) : (s.on f).tri = s.tri := rfl
@[simp] theorem State.on_icu (f : Fld) : (s.on f).icu = s.icu := rfl
@[simp] theorem State.on_que (f : Fld) : (s.on f).que = s.que := rfl
@[simp] theorem State.on_fld (f : Fld) : (s.on f).fld = s.fld := rfl
@[simp] theorem State.on_mv (f : Fld) : (s.on f).mv = s.mv := rfl
@[simp] theorem State.on_cam (f : Fld) : (s.on f).cam = s.cam := rfl
@[simp] theorem State.on_chn (f : Fld) : (s.on f).chn = s.chn := rfl
@[simp] theorem State.on_arc (f : Fld) : (s.on f).arc = s.arc := rfl
@[simp] theorem State.on_pwr (f : Fld) : (s.on f).pwr = s.pwr := rfl
@[simp] theorem State.on_sec (f : Fld) : (s.on f).sec = s.sec := rfl
@[simp] theorem State.on_dbg (f : Fld) : (s.on f).dbg = s.dbg := rfl
@[simp] theorem State.on_pending (f : Fld) : (s.on f).pending = s.pending := rfl

@[simp] theorem State.off_mem (f : Fld) : (s.off f).mem = s.mem := rfl
@[simp] theorem State.off_syn (f : Fld) : (s.off f).syn = s.syn := rfl
@[simp] theorem State.off_stuck (f : Fld) : (s.off f).stuck = s.stuck := rfl
@[simp] theorem State.off_tags (f : Fld) : (s.off f).tags = s.tags := rfl
@[simp] theorem State.off_credit (f : Fld) : (s.off f).credit = s.credit := rfl
@[simp] theorem State.off_xw (f : Fld) : (s.off f).xw = s.xw := rfl
@[simp] theorem State.off_time (f : Fld) : (s.off f).time = s.time := rfl
@[simp] theorem State.off_free (f : Fld) : (s.off f).free = s.free := rfl
@[simp] theorem State.off_resp (f : Fld) : (s.off f).resp = s.resp := rfl
@[simp] theorem State.off_out (f : Fld) : (s.off f).out = s.out := rfl
@[simp] theorem State.off_bulk (f : Fld) : (s.off f).bulk = s.bulk := rfl
@[simp] theorem State.off_lat (f : Fld) : (s.off f).lat = s.lat := rfl
@[simp] theorem State.off_rib (f : Fld) : (s.off f).rib = s.rib := rfl
@[simp] theorem State.off_sch (f : Fld) : (s.off f).sch = s.sch := rfl
@[simp] theorem State.off_rcv (f : Fld) : (s.off f).rcv = s.rcv := rfl
@[simp] theorem State.off_tri (f : Fld) : (s.off f).tri = s.tri := rfl
@[simp] theorem State.off_icu (f : Fld) : (s.off f).icu = s.icu := rfl
@[simp] theorem State.off_que (f : Fld) : (s.off f).que = s.que := rfl
@[simp] theorem State.off_fld (f : Fld) : (s.off f).fld = s.fld := rfl
@[simp] theorem State.off_mv (f : Fld) : (s.off f).mv = s.mv := rfl
@[simp] theorem State.off_cam (f : Fld) : (s.off f).cam = s.cam := rfl
@[simp] theorem State.off_chn (f : Fld) : (s.off f).chn = s.chn := rfl
@[simp] theorem State.off_arc (f : Fld) : (s.off f).arc = s.arc := rfl
@[simp] theorem State.off_pwr (f : Fld) : (s.off f).pwr = s.pwr := rfl
@[simp] theorem State.off_sec (f : Fld) : (s.off f).sec = s.sec := rfl
@[simp] theorem State.off_dbg (f : Fld) : (s.off f).dbg = s.dbg := rfl
@[simp] theorem State.off_pending (f : Fld) : (s.off f).pending = s.pending := rfl

@[simp] theorem State.put_mem (f : Fld) (b : Bool) : (s.put f b).mem = s.mem := rfl
@[simp] theorem State.put_syn (f : Fld) (b : Bool) : (s.put f b).syn = s.syn := rfl
@[simp] theorem State.put_stuck (f : Fld) (b : Bool) : (s.put f b).stuck = s.stuck := rfl
@[simp] theorem State.put_tags (f : Fld) (b : Bool) : (s.put f b).tags = s.tags := rfl
@[simp] theorem State.put_credit (f : Fld) (b : Bool) : (s.put f b).credit = s.credit := rfl
@[simp] theorem State.put_xw (f : Fld) (b : Bool) : (s.put f b).xw = s.xw := rfl
@[simp] theorem State.put_time (f : Fld) (b : Bool) : (s.put f b).time = s.time := rfl
@[simp] theorem State.put_free (f : Fld) (b : Bool) : (s.put f b).free = s.free := rfl
@[simp] theorem State.put_resp (f : Fld) (b : Bool) : (s.put f b).resp = s.resp := rfl
@[simp] theorem State.put_out (f : Fld) (b : Bool) : (s.put f b).out = s.out := rfl
@[simp] theorem State.put_bulk (f : Fld) (b : Bool) : (s.put f b).bulk = s.bulk := rfl
@[simp] theorem State.put_lat (f : Fld) (b : Bool) : (s.put f b).lat = s.lat := rfl
@[simp] theorem State.put_rib (f : Fld) (b : Bool) : (s.put f b).rib = s.rib := rfl
@[simp] theorem State.put_sch (f : Fld) (b : Bool) : (s.put f b).sch = s.sch := rfl
@[simp] theorem State.put_rcv (f : Fld) (b : Bool) : (s.put f b).rcv = s.rcv := rfl
@[simp] theorem State.put_tri (f : Fld) (b : Bool) : (s.put f b).tri = s.tri := rfl
@[simp] theorem State.put_icu (f : Fld) (b : Bool) : (s.put f b).icu = s.icu := rfl
@[simp] theorem State.put_que (f : Fld) (b : Bool) : (s.put f b).que = s.que := rfl
@[simp] theorem State.put_fld (f : Fld) (b : Bool) : (s.put f b).fld = s.fld := rfl
@[simp] theorem State.put_mv (f : Fld) (b : Bool) : (s.put f b).mv = s.mv := rfl
@[simp] theorem State.put_cam (f : Fld) (b : Bool) : (s.put f b).cam = s.cam := rfl
@[simp] theorem State.put_chn (f : Fld) (b : Bool) : (s.put f b).chn = s.chn := rfl
@[simp] theorem State.put_arc (f : Fld) (b : Bool) : (s.put f b).arc = s.arc := rfl
@[simp] theorem State.put_pwr (f : Fld) (b : Bool) : (s.put f b).pwr = s.pwr := rfl
@[simp] theorem State.put_sec (f : Fld) (b : Bool) : (s.put f b).sec = s.sec := rfl
@[simp] theorem State.put_dbg (f : Fld) (b : Bool) : (s.put f b).dbg = s.dbg := rfl
@[simp] theorem State.put_pending (f : Fld) (b : Bool) : (s.put f b).pending = s.pending := rfl

@[simp] theorem State.gain_mem (f : Fld) (n : Nat) : (s.gain f n).mem = s.mem := rfl
@[simp] theorem State.gain_syn (f : Fld) (n : Nat) : (s.gain f n).syn = s.syn := rfl
@[simp] theorem State.gain_stuck (f : Fld) (n : Nat) : (s.gain f n).stuck = s.stuck := rfl
@[simp] theorem State.gain_tags (f : Fld) (n : Nat) : (s.gain f n).tags = s.tags := rfl
@[simp] theorem State.gain_credit (f : Fld) (n : Nat) : (s.gain f n).credit = s.credit := rfl
@[simp] theorem State.gain_xw (f : Fld) (n : Nat) : (s.gain f n).xw = s.xw := rfl
@[simp] theorem State.gain_time (f : Fld) (n : Nat) : (s.gain f n).time = s.time := rfl
@[simp] theorem State.gain_free (f : Fld) (n : Nat) : (s.gain f n).free = s.free := rfl
@[simp] theorem State.gain_resp (f : Fld) (n : Nat) : (s.gain f n).resp = s.resp := rfl
@[simp] theorem State.gain_out (f : Fld) (n : Nat) : (s.gain f n).out = s.out := rfl
@[simp] theorem State.gain_bulk (f : Fld) (n : Nat) : (s.gain f n).bulk = s.bulk := rfl
@[simp] theorem State.gain_lat (f : Fld) (n : Nat) : (s.gain f n).lat = s.lat := rfl
@[simp] theorem State.gain_rib (f : Fld) (n : Nat) : (s.gain f n).rib = s.rib := rfl
@[simp] theorem State.gain_sch (f : Fld) (n : Nat) : (s.gain f n).sch = s.sch := rfl
@[simp] theorem State.gain_rcv (f : Fld) (n : Nat) : (s.gain f n).rcv = s.rcv := rfl
@[simp] theorem State.gain_tri (f : Fld) (n : Nat) : (s.gain f n).tri = s.tri := rfl
@[simp] theorem State.gain_icu (f : Fld) (n : Nat) : (s.gain f n).icu = s.icu := rfl
@[simp] theorem State.gain_que (f : Fld) (n : Nat) : (s.gain f n).que = s.que := rfl
@[simp] theorem State.gain_fld (f : Fld) (n : Nat) : (s.gain f n).fld = s.fld := rfl
@[simp] theorem State.gain_mv (f : Fld) (n : Nat) : (s.gain f n).mv = s.mv := rfl
@[simp] theorem State.gain_cam (f : Fld) (n : Nat) : (s.gain f n).cam = s.cam := rfl
@[simp] theorem State.gain_chn (f : Fld) (n : Nat) : (s.gain f n).chn = s.chn := rfl
@[simp] theorem State.gain_arc (f : Fld) (n : Nat) : (s.gain f n).arc = s.arc := rfl
@[simp] theorem State.gain_pwr (f : Fld) (n : Nat) : (s.gain f n).pwr = s.pwr := rfl
@[simp] theorem State.gain_sec (f : Fld) (n : Nat) : (s.gain f n).sec = s.sec := rfl
@[simp] theorem State.gain_dbg (f : Fld) (n : Nat) : (s.gain f n).dbg = s.dbg := rfl
@[simp] theorem State.gain_pending (f : Fld) (n : Nat) : (s.gain f n).pending = s.pending := rfl

@[simp] theorem State.bump_mem (f : Fld) : (s.bump f).mem = s.mem := rfl
@[simp] theorem State.bump_syn (f : Fld) : (s.bump f).syn = s.syn := rfl
@[simp] theorem State.bump_stuck (f : Fld) : (s.bump f).stuck = s.stuck := rfl
@[simp] theorem State.bump_tags (f : Fld) : (s.bump f).tags = s.tags := rfl
@[simp] theorem State.bump_credit (f : Fld) : (s.bump f).credit = s.credit := rfl
@[simp] theorem State.bump_xw (f : Fld) : (s.bump f).xw = s.xw := rfl
@[simp] theorem State.bump_time (f : Fld) : (s.bump f).time = s.time := rfl
@[simp] theorem State.bump_free (f : Fld) : (s.bump f).free = s.free := rfl
@[simp] theorem State.bump_resp (f : Fld) : (s.bump f).resp = s.resp := rfl
@[simp] theorem State.bump_out (f : Fld) : (s.bump f).out = s.out := rfl
@[simp] theorem State.bump_bulk (f : Fld) : (s.bump f).bulk = s.bulk := rfl
@[simp] theorem State.bump_lat (f : Fld) : (s.bump f).lat = s.lat := rfl
@[simp] theorem State.bump_rib (f : Fld) : (s.bump f).rib = s.rib := rfl
@[simp] theorem State.bump_sch (f : Fld) : (s.bump f).sch = s.sch := rfl
@[simp] theorem State.bump_rcv (f : Fld) : (s.bump f).rcv = s.rcv := rfl
@[simp] theorem State.bump_tri (f : Fld) : (s.bump f).tri = s.tri := rfl
@[simp] theorem State.bump_icu (f : Fld) : (s.bump f).icu = s.icu := rfl
@[simp] theorem State.bump_que (f : Fld) : (s.bump f).que = s.que := rfl
@[simp] theorem State.bump_fld (f : Fld) : (s.bump f).fld = s.fld := rfl
@[simp] theorem State.bump_mv (f : Fld) : (s.bump f).mv = s.mv := rfl
@[simp] theorem State.bump_cam (f : Fld) : (s.bump f).cam = s.cam := rfl
@[simp] theorem State.bump_chn (f : Fld) : (s.bump f).chn = s.chn := rfl
@[simp] theorem State.bump_arc (f : Fld) : (s.bump f).arc = s.arc := rfl
@[simp] theorem State.bump_pwr (f : Fld) : (s.bump f).pwr = s.pwr := rfl
@[simp] theorem State.bump_sec (f : Fld) : (s.bump f).sec = s.sec := rfl
@[simp] theorem State.bump_dbg (f : Fld) : (s.bump f).dbg = s.dbg := rfl
@[simp] theorem State.bump_pending (f : Fld) : (s.bump f).pending = s.pending := rfl

@[simp] theorem State.bumpWrap_mem (f : Fld) : (s.bumpWrap f).mem = s.mem := rfl
@[simp] theorem State.bumpWrap_syn (f : Fld) : (s.bumpWrap f).syn = s.syn := rfl
@[simp] theorem State.bumpWrap_stuck (f : Fld) : (s.bumpWrap f).stuck = s.stuck := rfl
@[simp] theorem State.bumpWrap_tags (f : Fld) : (s.bumpWrap f).tags = s.tags := rfl
@[simp] theorem State.bumpWrap_credit (f : Fld) : (s.bumpWrap f).credit = s.credit := rfl
@[simp] theorem State.bumpWrap_xw (f : Fld) : (s.bumpWrap f).xw = s.xw := rfl
@[simp] theorem State.bumpWrap_time (f : Fld) : (s.bumpWrap f).time = s.time := rfl
@[simp] theorem State.bumpWrap_free (f : Fld) : (s.bumpWrap f).free = s.free := rfl
@[simp] theorem State.bumpWrap_resp (f : Fld) : (s.bumpWrap f).resp = s.resp := rfl
@[simp] theorem State.bumpWrap_out (f : Fld) : (s.bumpWrap f).out = s.out := rfl
@[simp] theorem State.bumpWrap_bulk (f : Fld) : (s.bumpWrap f).bulk = s.bulk := rfl
@[simp] theorem State.bumpWrap_lat (f : Fld) : (s.bumpWrap f).lat = s.lat := rfl
@[simp] theorem State.bumpWrap_rib (f : Fld) : (s.bumpWrap f).rib = s.rib := rfl
@[simp] theorem State.bumpWrap_sch (f : Fld) : (s.bumpWrap f).sch = s.sch := rfl
@[simp] theorem State.bumpWrap_rcv (f : Fld) : (s.bumpWrap f).rcv = s.rcv := rfl
@[simp] theorem State.bumpWrap_tri (f : Fld) : (s.bumpWrap f).tri = s.tri := rfl
@[simp] theorem State.bumpWrap_icu (f : Fld) : (s.bumpWrap f).icu = s.icu := rfl
@[simp] theorem State.bumpWrap_que (f : Fld) : (s.bumpWrap f).que = s.que := rfl
@[simp] theorem State.bumpWrap_fld (f : Fld) : (s.bumpWrap f).fld = s.fld := rfl
@[simp] theorem State.bumpWrap_mv (f : Fld) : (s.bumpWrap f).mv = s.mv := rfl
@[simp] theorem State.bumpWrap_cam (f : Fld) : (s.bumpWrap f).cam = s.cam := rfl
@[simp] theorem State.bumpWrap_chn (f : Fld) : (s.bumpWrap f).chn = s.chn := rfl
@[simp] theorem State.bumpWrap_arc (f : Fld) : (s.bumpWrap f).arc = s.arc := rfl
@[simp] theorem State.bumpWrap_pwr (f : Fld) : (s.bumpWrap f).pwr = s.pwr := rfl
@[simp] theorem State.bumpWrap_sec (f : Fld) : (s.bumpWrap f).sec = s.sec := rfl
@[simp] theorem State.bumpWrap_dbg (f : Fld) : (s.bumpWrap f).dbg = s.dbg := rfl
@[simp] theorem State.bumpWrap_pending (f : Fld) : (s.bumpWrap f).pending = s.pending := rfl

@[simp] theorem State.orBits_mem (f : Fld) (m : Nat) : (s.orBits f m).mem = s.mem := rfl
@[simp] theorem State.orBits_syn (f : Fld) (m : Nat) : (s.orBits f m).syn = s.syn := rfl
@[simp] theorem State.orBits_stuck (f : Fld) (m : Nat) : (s.orBits f m).stuck = s.stuck := rfl
@[simp] theorem State.orBits_tags (f : Fld) (m : Nat) : (s.orBits f m).tags = s.tags := rfl
@[simp] theorem State.orBits_credit (f : Fld) (m : Nat) : (s.orBits f m).credit = s.credit := rfl
@[simp] theorem State.orBits_xw (f : Fld) (m : Nat) : (s.orBits f m).xw = s.xw := rfl
@[simp] theorem State.orBits_time (f : Fld) (m : Nat) : (s.orBits f m).time = s.time := rfl
@[simp] theorem State.orBits_free (f : Fld) (m : Nat) : (s.orBits f m).free = s.free := rfl
@[simp] theorem State.orBits_resp (f : Fld) (m : Nat) : (s.orBits f m).resp = s.resp := rfl
@[simp] theorem State.orBits_out (f : Fld) (m : Nat) : (s.orBits f m).out = s.out := rfl
@[simp] theorem State.orBits_bulk (f : Fld) (m : Nat) : (s.orBits f m).bulk = s.bulk := rfl
@[simp] theorem State.orBits_lat (f : Fld) (m : Nat) : (s.orBits f m).lat = s.lat := rfl
@[simp] theorem State.orBits_rib (f : Fld) (m : Nat) : (s.orBits f m).rib = s.rib := rfl
@[simp] theorem State.orBits_sch (f : Fld) (m : Nat) : (s.orBits f m).sch = s.sch := rfl
@[simp] theorem State.orBits_rcv (f : Fld) (m : Nat) : (s.orBits f m).rcv = s.rcv := rfl
@[simp] theorem State.orBits_tri (f : Fld) (m : Nat) : (s.orBits f m).tri = s.tri := rfl
@[simp] theorem State.orBits_icu (f : Fld) (m : Nat) : (s.orBits f m).icu = s.icu := rfl
@[simp] theorem State.orBits_que (f : Fld) (m : Nat) : (s.orBits f m).que = s.que := rfl
@[simp] theorem State.orBits_fld (f : Fld) (m : Nat) : (s.orBits f m).fld = s.fld := rfl
@[simp] theorem State.orBits_mv (f : Fld) (m : Nat) : (s.orBits f m).mv = s.mv := rfl
@[simp] theorem State.orBits_cam (f : Fld) (m : Nat) : (s.orBits f m).cam = s.cam := rfl
@[simp] theorem State.orBits_chn (f : Fld) (m : Nat) : (s.orBits f m).chn = s.chn := rfl
@[simp] theorem State.orBits_arc (f : Fld) (m : Nat) : (s.orBits f m).arc = s.arc := rfl
@[simp] theorem State.orBits_pwr (f : Fld) (m : Nat) : (s.orBits f m).pwr = s.pwr := rfl
@[simp] theorem State.orBits_sec (f : Fld) (m : Nat) : (s.orBits f m).sec = s.sec := rfl
@[simp] theorem State.orBits_dbg (f : Fld) (m : Nat) : (s.orBits f m).dbg = s.dbg := rfl
@[simp] theorem State.orBits_pending (f : Fld) (m : Nat) : (s.orBits f m).pending = s.pending := rfl

@[simp] theorem State.clearBits_mem (f : Fld) (m : Nat) : (s.clearBits f m).mem = s.mem := rfl
@[simp] theorem State.clearBits_syn (f : Fld) (m : Nat) : (s.clearBits f m).syn = s.syn := rfl
@[simp] theorem State.clearBits_stuck (f : Fld) (m : Nat) : (s.clearBits f m).stuck = s.stuck := rfl
@[simp] theorem State.clearBits_tags (f : Fld) (m : Nat) : (s.clearBits f m).tags = s.tags := rfl
@[simp] theorem State.clearBits_credit (f : Fld) (m : Nat) : (s.clearBits f m).credit = s.credit := rfl
@[simp] theorem State.clearBits_xw (f : Fld) (m : Nat) : (s.clearBits f m).xw = s.xw := rfl
@[simp] theorem State.clearBits_time (f : Fld) (m : Nat) : (s.clearBits f m).time = s.time := rfl
@[simp] theorem State.clearBits_free (f : Fld) (m : Nat) : (s.clearBits f m).free = s.free := rfl
@[simp] theorem State.clearBits_resp (f : Fld) (m : Nat) : (s.clearBits f m).resp = s.resp := rfl
@[simp] theorem State.clearBits_out (f : Fld) (m : Nat) : (s.clearBits f m).out = s.out := rfl
@[simp] theorem State.clearBits_bulk (f : Fld) (m : Nat) : (s.clearBits f m).bulk = s.bulk := rfl
@[simp] theorem State.clearBits_lat (f : Fld) (m : Nat) : (s.clearBits f m).lat = s.lat := rfl
@[simp] theorem State.clearBits_rib (f : Fld) (m : Nat) : (s.clearBits f m).rib = s.rib := rfl
@[simp] theorem State.clearBits_sch (f : Fld) (m : Nat) : (s.clearBits f m).sch = s.sch := rfl
@[simp] theorem State.clearBits_rcv (f : Fld) (m : Nat) : (s.clearBits f m).rcv = s.rcv := rfl
@[simp] theorem State.clearBits_tri (f : Fld) (m : Nat) : (s.clearBits f m).tri = s.tri := rfl
@[simp] theorem State.clearBits_icu (f : Fld) (m : Nat) : (s.clearBits f m).icu = s.icu := rfl
@[simp] theorem State.clearBits_que (f : Fld) (m : Nat) : (s.clearBits f m).que = s.que := rfl
@[simp] theorem State.clearBits_fld (f : Fld) (m : Nat) : (s.clearBits f m).fld = s.fld := rfl
@[simp] theorem State.clearBits_mv (f : Fld) (m : Nat) : (s.clearBits f m).mv = s.mv := rfl
@[simp] theorem State.clearBits_cam (f : Fld) (m : Nat) : (s.clearBits f m).cam = s.cam := rfl
@[simp] theorem State.clearBits_chn (f : Fld) (m : Nat) : (s.clearBits f m).chn = s.chn := rfl
@[simp] theorem State.clearBits_arc (f : Fld) (m : Nat) : (s.clearBits f m).arc = s.arc := rfl
@[simp] theorem State.clearBits_pwr (f : Fld) (m : Nat) : (s.clearBits f m).pwr = s.pwr := rfl
@[simp] theorem State.clearBits_sec (f : Fld) (m : Nat) : (s.clearBits f m).sec = s.sec := rfl
@[simp] theorem State.clearBits_dbg (f : Fld) (m : Nat) : (s.clearBits f m).dbg = s.dbg := rfl
@[simp] theorem State.clearBits_pending (f : Fld) (m : Nat) : (s.clearBits f m).pending = s.pending := rfl

@[simp] theorem State.wr2_mem (f g : Fld) (v : Nat) : (s.wr2 f g v).mem = s.mem := rfl
@[simp] theorem State.wr2_syn (f g : Fld) (v : Nat) : (s.wr2 f g v).syn = s.syn := rfl
@[simp] theorem State.wr2_stuck (f g : Fld) (v : Nat) : (s.wr2 f g v).stuck = s.stuck := rfl
@[simp] theorem State.wr2_tags (f g : Fld) (v : Nat) : (s.wr2 f g v).tags = s.tags := rfl
@[simp] theorem State.wr2_credit (f g : Fld) (v : Nat) : (s.wr2 f g v).credit = s.credit := rfl
@[simp] theorem State.wr2_xw (f g : Fld) (v : Nat) : (s.wr2 f g v).xw = s.xw := rfl
@[simp] theorem State.wr2_time (f g : Fld) (v : Nat) : (s.wr2 f g v).time = s.time := rfl
@[simp] theorem State.wr2_free (f g : Fld) (v : Nat) : (s.wr2 f g v).free = s.free := rfl
@[simp] theorem State.wr2_resp (f g : Fld) (v : Nat) : (s.wr2 f g v).resp = s.resp := rfl
@[simp] theorem State.wr2_out (f g : Fld) (v : Nat) : (s.wr2 f g v).out = s.out := rfl
@[simp] theorem State.wr2_bulk (f g : Fld) (v : Nat) : (s.wr2 f g v).bulk = s.bulk := rfl
@[simp] theorem State.wr2_lat (f g : Fld) (v : Nat) : (s.wr2 f g v).lat = s.lat := rfl
@[simp] theorem State.wr2_rib (f g : Fld) (v : Nat) : (s.wr2 f g v).rib = s.rib := rfl
@[simp] theorem State.wr2_sch (f g : Fld) (v : Nat) : (s.wr2 f g v).sch = s.sch := rfl
@[simp] theorem State.wr2_rcv (f g : Fld) (v : Nat) : (s.wr2 f g v).rcv = s.rcv := rfl
@[simp] theorem State.wr2_tri (f g : Fld) (v : Nat) : (s.wr2 f g v).tri = s.tri := rfl
@[simp] theorem State.wr2_icu (f g : Fld) (v : Nat) : (s.wr2 f g v).icu = s.icu := rfl
@[simp] theorem State.wr2_que (f g : Fld) (v : Nat) : (s.wr2 f g v).que = s.que := rfl
@[simp] theorem State.wr2_fld (f g : Fld) (v : Nat) : (s.wr2 f g v).fld = s.fld := rfl
@[simp] theorem State.wr2_mv (f g : Fld) (v : Nat) : (s.wr2 f g v).mv = s.mv := rfl
@[simp] theorem State.wr2_cam (f g : Fld) (v : Nat) : (s.wr2 f g v).cam = s.cam := rfl
@[simp] theorem State.wr2_chn (f g : Fld) (v : Nat) : (s.wr2 f g v).chn = s.chn := rfl
@[simp] theorem State.wr2_arc (f g : Fld) (v : Nat) : (s.wr2 f g v).arc = s.arc := rfl
@[simp] theorem State.wr2_pwr (f g : Fld) (v : Nat) : (s.wr2 f g v).pwr = s.pwr := rfl
@[simp] theorem State.wr2_sec (f g : Fld) (v : Nat) : (s.wr2 f g v).sec = s.sec := rfl
@[simp] theorem State.wr2_dbg (f g : Fld) (v : Nat) : (s.wr2 f g v).dbg = s.dbg := rfl
@[simp] theorem State.wr2_pending (f g : Fld) (v : Nat) : (s.wr2 f g v).pending = s.pending := rfl

@[simp] theorem State.degrade_mem : (s.degrade).mem = s.mem := s.on_mem _
@[simp] theorem State.degrade_syn : (s.degrade).syn = s.syn := s.on_syn _
@[simp] theorem State.degrade_stuck : (s.degrade).stuck = s.stuck := s.on_stuck _
@[simp] theorem State.degrade_tags : (s.degrade).tags = s.tags := s.on_tags _
@[simp] theorem State.degrade_credit : (s.degrade).credit = s.credit := s.on_credit _
@[simp] theorem State.degrade_xw : (s.degrade).xw = s.xw := s.on_xw _
@[simp] theorem State.degrade_time : (s.degrade).time = s.time := s.on_time _
@[simp] theorem State.degrade_free : (s.degrade).free = s.free := s.on_free _
@[simp] theorem State.degrade_resp : (s.degrade).resp = s.resp := s.on_resp _
@[simp] theorem State.degrade_out : (s.degrade).out = s.out := s.on_out _
@[simp] theorem State.degrade_bulk : (s.degrade).bulk = s.bulk := s.on_bulk _
@[simp] theorem State.degrade_lat : (s.degrade).lat = s.lat := s.on_lat _
@[simp] theorem State.degrade_rib : (s.degrade).rib = s.rib := s.on_rib _
@[simp] theorem State.degrade_sch : (s.degrade).sch = s.sch := s.on_sch _
@[simp] theorem State.degrade_rcv : (s.degrade).rcv = s.rcv := s.on_rcv _
@[simp] theorem State.degrade_tri : (s.degrade).tri = s.tri := s.on_tri _
@[simp] theorem State.degrade_icu : (s.degrade).icu = s.icu := s.on_icu _
@[simp] theorem State.degrade_que : (s.degrade).que = s.que := s.on_que _
@[simp] theorem State.degrade_fld : (s.degrade).fld = s.fld := s.on_fld _
@[simp] theorem State.degrade_mv : (s.degrade).mv = s.mv := s.on_mv _
@[simp] theorem State.degrade_cam : (s.degrade).cam = s.cam := s.on_cam _
@[simp] theorem State.degrade_chn : (s.degrade).chn = s.chn := s.on_chn _
@[simp] theorem State.degrade_arc : (s.degrade).arc = s.arc := s.on_arc _
@[simp] theorem State.degrade_pwr : (s.degrade).pwr = s.pwr := s.on_pwr _
@[simp] theorem State.degrade_sec : (s.degrade).sec = s.sec := s.on_sec _
@[simp] theorem State.degrade_dbg : (s.degrade).dbg = s.dbg := s.on_dbg _
@[simp] theorem State.degrade_pending : (s.degrade).pending = s.pending := s.on_pending _

@[simp] theorem State.setByte_regs (a : Nat) (b : Byte) : (s.setByte a b).regs = s.regs := rfl
@[simp] theorem State.setByte_syn (a : Nat) (b : Byte) : (s.setByte a b).syn = s.syn := rfl
@[simp] theorem State.setByte_stuck (a : Nat) (b : Byte) : (s.setByte a b).stuck = s.stuck := rfl
@[simp] theorem State.setByte_tags (a : Nat) (b : Byte) : (s.setByte a b).tags = s.tags := rfl
@[simp] theorem State.setByte_credit (a : Nat) (b : Byte) : (s.setByte a b).credit = s.credit := rfl
@[simp] theorem State.setByte_xw (a : Nat) (b : Byte) : (s.setByte a b).xw = s.xw := rfl
@[simp] theorem State.setByte_time (a : Nat) (b : Byte) : (s.setByte a b).time = s.time := rfl
@[simp] theorem State.setByte_free (a : Nat) (b : Byte) : (s.setByte a b).free = s.free := rfl
@[simp] theorem State.setByte_resp (a : Nat) (b : Byte) : (s.setByte a b).resp = s.resp := rfl
@[simp] theorem State.setByte_out (a : Nat) (b : Byte) : (s.setByte a b).out = s.out := rfl
@[simp] theorem State.setByte_bulk (a : Nat) (b : Byte) : (s.setByte a b).bulk = s.bulk := rfl
@[simp] theorem State.setByte_lat (a : Nat) (b : Byte) : (s.setByte a b).lat = s.lat := rfl
@[simp] theorem State.setByte_rib (a : Nat) (b : Byte) : (s.setByte a b).rib = s.rib := rfl
@[simp] theorem State.setByte_sch (a : Nat) (b : Byte) : (s.setByte a b).sch = s.sch := rfl
@[simp] theorem State.setByte_rcv (a : Nat) (b : Byte) : (s.setByte a b).rcv = s.rcv := rfl
@[simp] theorem State.setByte_tri (a : Nat) (b : Byte) : (s.setByte a b).tri = s.tri := rfl
@[simp] theorem State.setByte_icu (a : Nat) (b : Byte) : (s.setByte a b).icu = s.icu := rfl
@[simp] theorem State.setByte_que (a : Nat) (b : Byte) : (s.setByte a b).que = s.que := rfl
@[simp] theorem State.setByte_fld (a : Nat) (b : Byte) : (s.setByte a b).fld = s.fld := rfl
@[simp] theorem State.setByte_mv (a : Nat) (b : Byte) : (s.setByte a b).mv = s.mv := rfl
@[simp] theorem State.setByte_cam (a : Nat) (b : Byte) : (s.setByte a b).cam = s.cam := rfl
@[simp] theorem State.setByte_chn (a : Nat) (b : Byte) : (s.setByte a b).chn = s.chn := rfl
@[simp] theorem State.setByte_arc (a : Nat) (b : Byte) : (s.setByte a b).arc = s.arc := rfl
@[simp] theorem State.setByte_pwr (a : Nat) (b : Byte) : (s.setByte a b).pwr = s.pwr := rfl
@[simp] theorem State.setByte_sec (a : Nat) (b : Byte) : (s.setByte a b).sec = s.sec := rfl
@[simp] theorem State.setByte_dbg (a : Nat) (b : Byte) : (s.setByte a b).dbg = s.dbg := rfl
@[simp] theorem State.setByte_pending (a : Nat) (b : Byte) : (s.setByte a b).pending = s.pending := rfl

@[simp] theorem State.setBytes_regs (a : Nat) (bs : List Byte) : (s.setBytes a bs).regs = s.regs := rfl
@[simp] theorem State.setBytes_syn (a : Nat) (bs : List Byte) : (s.setBytes a bs).syn = s.syn := rfl
@[simp] theorem State.setBytes_stuck (a : Nat) (bs : List Byte) : (s.setBytes a bs).stuck = s.stuck := rfl
@[simp] theorem State.setBytes_tags (a : Nat) (bs : List Byte) : (s.setBytes a bs).tags = s.tags := rfl
@[simp] theorem State.setBytes_credit (a : Nat) (bs : List Byte) : (s.setBytes a bs).credit = s.credit := rfl
@[simp] theorem State.setBytes_xw (a : Nat) (bs : List Byte) : (s.setBytes a bs).xw = s.xw := rfl
@[simp] theorem State.setBytes_time (a : Nat) (bs : List Byte) : (s.setBytes a bs).time = s.time := rfl
@[simp] theorem State.setBytes_free (a : Nat) (bs : List Byte) : (s.setBytes a bs).free = s.free := rfl
@[simp] theorem State.setBytes_resp (a : Nat) (bs : List Byte) : (s.setBytes a bs).resp = s.resp := rfl
@[simp] theorem State.setBytes_out (a : Nat) (bs : List Byte) : (s.setBytes a bs).out = s.out := rfl
@[simp] theorem State.setBytes_bulk (a : Nat) (bs : List Byte) : (s.setBytes a bs).bulk = s.bulk := rfl
@[simp] theorem State.setBytes_lat (a : Nat) (bs : List Byte) : (s.setBytes a bs).lat = s.lat := rfl
@[simp] theorem State.setBytes_rib (a : Nat) (bs : List Byte) : (s.setBytes a bs).rib = s.rib := rfl
@[simp] theorem State.setBytes_sch (a : Nat) (bs : List Byte) : (s.setBytes a bs).sch = s.sch := rfl
@[simp] theorem State.setBytes_rcv (a : Nat) (bs : List Byte) : (s.setBytes a bs).rcv = s.rcv := rfl
@[simp] theorem State.setBytes_tri (a : Nat) (bs : List Byte) : (s.setBytes a bs).tri = s.tri := rfl
@[simp] theorem State.setBytes_icu (a : Nat) (bs : List Byte) : (s.setBytes a bs).icu = s.icu := rfl
@[simp] theorem State.setBytes_que (a : Nat) (bs : List Byte) : (s.setBytes a bs).que = s.que := rfl
@[simp] theorem State.setBytes_fld (a : Nat) (bs : List Byte) : (s.setBytes a bs).fld = s.fld := rfl
@[simp] theorem State.setBytes_mv (a : Nat) (bs : List Byte) : (s.setBytes a bs).mv = s.mv := rfl
@[simp] theorem State.setBytes_cam (a : Nat) (bs : List Byte) : (s.setBytes a bs).cam = s.cam := rfl
@[simp] theorem State.setBytes_chn (a : Nat) (bs : List Byte) : (s.setBytes a bs).chn = s.chn := rfl
@[simp] theorem State.setBytes_arc (a : Nat) (bs : List Byte) : (s.setBytes a bs).arc = s.arc := rfl
@[simp] theorem State.setBytes_pwr (a : Nat) (bs : List Byte) : (s.setBytes a bs).pwr = s.pwr := rfl
@[simp] theorem State.setBytes_sec (a : Nat) (bs : List Byte) : (s.setBytes a bs).sec = s.sec := rfl
@[simp] theorem State.setBytes_dbg (a : Nat) (bs : List Byte) : (s.setBytes a bs).dbg = s.dbg := rfl
@[simp] theorem State.setBytes_pending (a : Nat) (bs : List Byte) : (s.setBytes a bs).pending = s.pending := rfl

@[simp] theorem State.setNum_regs (a n v : Nat) : (s.setNum a n v).regs = s.regs := rfl
@[simp] theorem State.setNum_syn (a n v : Nat) : (s.setNum a n v).syn = s.syn := rfl
@[simp] theorem State.setNum_stuck (a n v : Nat) : (s.setNum a n v).stuck = s.stuck := rfl
@[simp] theorem State.setNum_tags (a n v : Nat) : (s.setNum a n v).tags = s.tags := rfl
@[simp] theorem State.setNum_credit (a n v : Nat) : (s.setNum a n v).credit = s.credit := rfl
@[simp] theorem State.setNum_xw (a n v : Nat) : (s.setNum a n v).xw = s.xw := rfl
@[simp] theorem State.setNum_time (a n v : Nat) : (s.setNum a n v).time = s.time := rfl
@[simp] theorem State.setNum_free (a n v : Nat) : (s.setNum a n v).free = s.free := rfl
@[simp] theorem State.setNum_resp (a n v : Nat) : (s.setNum a n v).resp = s.resp := rfl
@[simp] theorem State.setNum_out (a n v : Nat) : (s.setNum a n v).out = s.out := rfl
@[simp] theorem State.setNum_bulk (a n v : Nat) : (s.setNum a n v).bulk = s.bulk := rfl
@[simp] theorem State.setNum_lat (a n v : Nat) : (s.setNum a n v).lat = s.lat := rfl
@[simp] theorem State.setNum_rib (a n v : Nat) : (s.setNum a n v).rib = s.rib := rfl
@[simp] theorem State.setNum_sch (a n v : Nat) : (s.setNum a n v).sch = s.sch := rfl
@[simp] theorem State.setNum_rcv (a n v : Nat) : (s.setNum a n v).rcv = s.rcv := rfl
@[simp] theorem State.setNum_tri (a n v : Nat) : (s.setNum a n v).tri = s.tri := rfl
@[simp] theorem State.setNum_icu (a n v : Nat) : (s.setNum a n v).icu = s.icu := rfl
@[simp] theorem State.setNum_que (a n v : Nat) : (s.setNum a n v).que = s.que := rfl
@[simp] theorem State.setNum_fld (a n v : Nat) : (s.setNum a n v).fld = s.fld := rfl
@[simp] theorem State.setNum_mv (a n v : Nat) : (s.setNum a n v).mv = s.mv := rfl
@[simp] theorem State.setNum_cam (a n v : Nat) : (s.setNum a n v).cam = s.cam := rfl
@[simp] theorem State.setNum_chn (a n v : Nat) : (s.setNum a n v).chn = s.chn := rfl
@[simp] theorem State.setNum_arc (a n v : Nat) : (s.setNum a n v).arc = s.arc := rfl
@[simp] theorem State.setNum_pwr (a n v : Nat) : (s.setNum a n v).pwr = s.pwr := rfl
@[simp] theorem State.setNum_sec (a n v : Nat) : (s.setNum a n v).sec = s.sec := rfl
@[simp] theorem State.setNum_dbg (a n v : Nat) : (s.setNum a n v).dbg = s.dbg := rfl
@[simp] theorem State.setNum_pending (a n v : Nat) : (s.setNum a n v).pending = s.pending := rfl

@[simp] theorem State.wipeMem_regs (lo hi : Nat) : (s.wipeMem lo hi).regs = s.regs := rfl
@[simp] theorem State.wipeMem_syn (lo hi : Nat) : (s.wipeMem lo hi).syn = s.syn := rfl
@[simp] theorem State.wipeMem_stuck (lo hi : Nat) : (s.wipeMem lo hi).stuck = s.stuck := rfl
@[simp] theorem State.wipeMem_tags (lo hi : Nat) : (s.wipeMem lo hi).tags = s.tags := rfl
@[simp] theorem State.wipeMem_credit (lo hi : Nat) : (s.wipeMem lo hi).credit = s.credit := rfl
@[simp] theorem State.wipeMem_xw (lo hi : Nat) : (s.wipeMem lo hi).xw = s.xw := rfl
@[simp] theorem State.wipeMem_time (lo hi : Nat) : (s.wipeMem lo hi).time = s.time := rfl
@[simp] theorem State.wipeMem_free (lo hi : Nat) : (s.wipeMem lo hi).free = s.free := rfl
@[simp] theorem State.wipeMem_resp (lo hi : Nat) : (s.wipeMem lo hi).resp = s.resp := rfl
@[simp] theorem State.wipeMem_out (lo hi : Nat) : (s.wipeMem lo hi).out = s.out := rfl
@[simp] theorem State.wipeMem_bulk (lo hi : Nat) : (s.wipeMem lo hi).bulk = s.bulk := rfl
@[simp] theorem State.wipeMem_lat (lo hi : Nat) : (s.wipeMem lo hi).lat = s.lat := rfl
@[simp] theorem State.wipeMem_rib (lo hi : Nat) : (s.wipeMem lo hi).rib = s.rib := rfl
@[simp] theorem State.wipeMem_sch (lo hi : Nat) : (s.wipeMem lo hi).sch = s.sch := rfl
@[simp] theorem State.wipeMem_rcv (lo hi : Nat) : (s.wipeMem lo hi).rcv = s.rcv := rfl
@[simp] theorem State.wipeMem_tri (lo hi : Nat) : (s.wipeMem lo hi).tri = s.tri := rfl
@[simp] theorem State.wipeMem_icu (lo hi : Nat) : (s.wipeMem lo hi).icu = s.icu := rfl
@[simp] theorem State.wipeMem_que (lo hi : Nat) : (s.wipeMem lo hi).que = s.que := rfl
@[simp] theorem State.wipeMem_fld (lo hi : Nat) : (s.wipeMem lo hi).fld = s.fld := rfl
@[simp] theorem State.wipeMem_mv (lo hi : Nat) : (s.wipeMem lo hi).mv = s.mv := rfl
@[simp] theorem State.wipeMem_cam (lo hi : Nat) : (s.wipeMem lo hi).cam = s.cam := rfl
@[simp] theorem State.wipeMem_chn (lo hi : Nat) : (s.wipeMem lo hi).chn = s.chn := rfl
@[simp] theorem State.wipeMem_arc (lo hi : Nat) : (s.wipeMem lo hi).arc = s.arc := rfl
@[simp] theorem State.wipeMem_pwr (lo hi : Nat) : (s.wipeMem lo hi).pwr = s.pwr := rfl
@[simp] theorem State.wipeMem_sec (lo hi : Nat) : (s.wipeMem lo hi).sec = s.sec := rfl
@[simp] theorem State.wipeMem_dbg (lo hi : Nat) : (s.wipeMem lo hi).dbg = s.dbg := rfl
@[simp] theorem State.wipeMem_pending (lo hi : Nat) : (s.wipeMem lo hi).pending = s.pending := rfl

@[simp] theorem State.setTag_regs (a : Nat) : (s.setTag a).regs = s.regs := rfl
@[simp] theorem State.setTag_mem (a : Nat) : (s.setTag a).mem = s.mem := rfl
@[simp] theorem State.setTag_syn (a : Nat) : (s.setTag a).syn = s.syn := rfl
@[simp] theorem State.setTag_stuck (a : Nat) : (s.setTag a).stuck = s.stuck := rfl
@[simp] theorem State.setTag_credit (a : Nat) : (s.setTag a).credit = s.credit := rfl
@[simp] theorem State.setTag_xw (a : Nat) : (s.setTag a).xw = s.xw := rfl
@[simp] theorem State.setTag_time (a : Nat) : (s.setTag a).time = s.time := rfl
@[simp] theorem State.setTag_free (a : Nat) : (s.setTag a).free = s.free := rfl
@[simp] theorem State.setTag_resp (a : Nat) : (s.setTag a).resp = s.resp := rfl
@[simp] theorem State.setTag_out (a : Nat) : (s.setTag a).out = s.out := rfl
@[simp] theorem State.setTag_bulk (a : Nat) : (s.setTag a).bulk = s.bulk := rfl
@[simp] theorem State.setTag_lat (a : Nat) : (s.setTag a).lat = s.lat := rfl
@[simp] theorem State.setTag_rib (a : Nat) : (s.setTag a).rib = s.rib := rfl
@[simp] theorem State.setTag_sch (a : Nat) : (s.setTag a).sch = s.sch := rfl
@[simp] theorem State.setTag_rcv (a : Nat) : (s.setTag a).rcv = s.rcv := rfl
@[simp] theorem State.setTag_tri (a : Nat) : (s.setTag a).tri = s.tri := rfl
@[simp] theorem State.setTag_icu (a : Nat) : (s.setTag a).icu = s.icu := rfl
@[simp] theorem State.setTag_que (a : Nat) : (s.setTag a).que = s.que := rfl
@[simp] theorem State.setTag_fld (a : Nat) : (s.setTag a).fld = s.fld := rfl
@[simp] theorem State.setTag_mv (a : Nat) : (s.setTag a).mv = s.mv := rfl
@[simp] theorem State.setTag_cam (a : Nat) : (s.setTag a).cam = s.cam := rfl
@[simp] theorem State.setTag_chn (a : Nat) : (s.setTag a).chn = s.chn := rfl
@[simp] theorem State.setTag_arc (a : Nat) : (s.setTag a).arc = s.arc := rfl
@[simp] theorem State.setTag_pwr (a : Nat) : (s.setTag a).pwr = s.pwr := rfl
@[simp] theorem State.setTag_sec (a : Nat) : (s.setTag a).sec = s.sec := rfl
@[simp] theorem State.setTag_dbg (a : Nat) : (s.setTag a).dbg = s.dbg := rfl
@[simp] theorem State.setTag_pending (a : Nat) : (s.setTag a).pending = s.pending := rfl

@[simp] theorem State.send_regs (p : OutPort) (i : Nat) (bs : List Byte) : (s.send p i bs).regs = s.regs := rfl
@[simp] theorem State.send_mem (p : OutPort) (i : Nat) (bs : List Byte) : (s.send p i bs).mem = s.mem := rfl
@[simp] theorem State.send_syn (p : OutPort) (i : Nat) (bs : List Byte) : (s.send p i bs).syn = s.syn := rfl
@[simp] theorem State.send_stuck (p : OutPort) (i : Nat) (bs : List Byte) : (s.send p i bs).stuck = s.stuck := rfl
@[simp] theorem State.send_tags (p : OutPort) (i : Nat) (bs : List Byte) : (s.send p i bs).tags = s.tags := rfl
@[simp] theorem State.send_credit (p : OutPort) (i : Nat) (bs : List Byte) : (s.send p i bs).credit = s.credit := rfl
@[simp] theorem State.send_xw (p : OutPort) (i : Nat) (bs : List Byte) : (s.send p i bs).xw = s.xw := rfl
@[simp] theorem State.send_time (p : OutPort) (i : Nat) (bs : List Byte) : (s.send p i bs).time = s.time := rfl
@[simp] theorem State.send_free (p : OutPort) (i : Nat) (bs : List Byte) : (s.send p i bs).free = s.free := rfl
@[simp] theorem State.send_resp (p : OutPort) (i : Nat) (bs : List Byte) : (s.send p i bs).resp = s.resp := rfl
@[simp] theorem State.send_bulk (p : OutPort) (i : Nat) (bs : List Byte) : (s.send p i bs).bulk = s.bulk := rfl
@[simp] theorem State.send_lat (p : OutPort) (i : Nat) (bs : List Byte) : (s.send p i bs).lat = s.lat := rfl
@[simp] theorem State.send_rib (p : OutPort) (i : Nat) (bs : List Byte) : (s.send p i bs).rib = s.rib := rfl
@[simp] theorem State.send_sch (p : OutPort) (i : Nat) (bs : List Byte) : (s.send p i bs).sch = s.sch := rfl
@[simp] theorem State.send_rcv (p : OutPort) (i : Nat) (bs : List Byte) : (s.send p i bs).rcv = s.rcv := rfl
@[simp] theorem State.send_tri (p : OutPort) (i : Nat) (bs : List Byte) : (s.send p i bs).tri = s.tri := rfl
@[simp] theorem State.send_icu (p : OutPort) (i : Nat) (bs : List Byte) : (s.send p i bs).icu = s.icu := rfl
@[simp] theorem State.send_que (p : OutPort) (i : Nat) (bs : List Byte) : (s.send p i bs).que = s.que := rfl
@[simp] theorem State.send_fld (p : OutPort) (i : Nat) (bs : List Byte) : (s.send p i bs).fld = s.fld := rfl
@[simp] theorem State.send_mv (p : OutPort) (i : Nat) (bs : List Byte) : (s.send p i bs).mv = s.mv := rfl
@[simp] theorem State.send_cam (p : OutPort) (i : Nat) (bs : List Byte) : (s.send p i bs).cam = s.cam := rfl
@[simp] theorem State.send_chn (p : OutPort) (i : Nat) (bs : List Byte) : (s.send p i bs).chn = s.chn := rfl
@[simp] theorem State.send_arc (p : OutPort) (i : Nat) (bs : List Byte) : (s.send p i bs).arc = s.arc := rfl
@[simp] theorem State.send_pwr (p : OutPort) (i : Nat) (bs : List Byte) : (s.send p i bs).pwr = s.pwr := rfl
@[simp] theorem State.send_sec (p : OutPort) (i : Nat) (bs : List Byte) : (s.send p i bs).sec = s.sec := rfl
@[simp] theorem State.send_dbg (p : OutPort) (i : Nat) (bs : List Byte) : (s.send p i bs).dbg = s.dbg := rfl
@[simp] theorem State.send_pending (p : OutPort) (i : Nat) (bs : List Byte) : (s.send p i bs).pending = s.pending := rfl

@[simp] theorem State.answer_regs (r : Resp) : (s.answer r).regs = s.regs := rfl
@[simp] theorem State.answer_mem (r : Resp) : (s.answer r).mem = s.mem := rfl
@[simp] theorem State.answer_syn (r : Resp) : (s.answer r).syn = s.syn := rfl
@[simp] theorem State.answer_stuck (r : Resp) : (s.answer r).stuck = s.stuck := rfl
@[simp] theorem State.answer_tags (r : Resp) : (s.answer r).tags = s.tags := rfl
@[simp] theorem State.answer_credit (r : Resp) : (s.answer r).credit = s.credit := rfl
@[simp] theorem State.answer_xw (r : Resp) : (s.answer r).xw = s.xw := rfl
@[simp] theorem State.answer_time (r : Resp) : (s.answer r).time = s.time := rfl
@[simp] theorem State.answer_free (r : Resp) : (s.answer r).free = s.free := rfl
@[simp] theorem State.answer_out (r : Resp) : (s.answer r).out = s.out := rfl
@[simp] theorem State.answer_bulk (r : Resp) : (s.answer r).bulk = s.bulk := rfl
@[simp] theorem State.answer_lat (r : Resp) : (s.answer r).lat = s.lat := rfl
@[simp] theorem State.answer_rib (r : Resp) : (s.answer r).rib = s.rib := rfl
@[simp] theorem State.answer_sch (r : Resp) : (s.answer r).sch = s.sch := rfl
@[simp] theorem State.answer_rcv (r : Resp) : (s.answer r).rcv = s.rcv := rfl
@[simp] theorem State.answer_tri (r : Resp) : (s.answer r).tri = s.tri := rfl
@[simp] theorem State.answer_icu (r : Resp) : (s.answer r).icu = s.icu := rfl
@[simp] theorem State.answer_que (r : Resp) : (s.answer r).que = s.que := rfl
@[simp] theorem State.answer_fld (r : Resp) : (s.answer r).fld = s.fld := rfl
@[simp] theorem State.answer_mv (r : Resp) : (s.answer r).mv = s.mv := rfl
@[simp] theorem State.answer_cam (r : Resp) : (s.answer r).cam = s.cam := rfl
@[simp] theorem State.answer_chn (r : Resp) : (s.answer r).chn = s.chn := rfl
@[simp] theorem State.answer_arc (r : Resp) : (s.answer r).arc = s.arc := rfl
@[simp] theorem State.answer_pwr (r : Resp) : (s.answer r).pwr = s.pwr := rfl
@[simp] theorem State.answer_sec (r : Resp) : (s.answer r).sec = s.sec := rfl
@[simp] theorem State.answer_dbg (r : Resp) : (s.answer r).dbg = s.dbg := rfl
@[simp] theorem State.answer_pending (r : Resp) : (s.answer r).pending = s.pending := rfl

@[simp] theorem State.setF_regs (r v : Nat) : (s.setF r v).regs = s.regs := rfl
@[simp] theorem State.setF_mem (r v : Nat) : (s.setF r v).mem = s.mem := rfl
@[simp] theorem State.setF_syn (r v : Nat) : (s.setF r v).syn = s.syn := rfl
@[simp] theorem State.setF_stuck (r v : Nat) : (s.setF r v).stuck = s.stuck := rfl
@[simp] theorem State.setF_tags (r v : Nat) : (s.setF r v).tags = s.tags := rfl
@[simp] theorem State.setF_credit (r v : Nat) : (s.setF r v).credit = s.credit := rfl
@[simp] theorem State.setF_xw (r v : Nat) : (s.setF r v).xw = s.xw := rfl
@[simp] theorem State.setF_time (r v : Nat) : (s.setF r v).time = s.time := rfl
@[simp] theorem State.setF_free (r v : Nat) : (s.setF r v).free = s.free := rfl
@[simp] theorem State.setF_resp (r v : Nat) : (s.setF r v).resp = s.resp := rfl
@[simp] theorem State.setF_out (r v : Nat) : (s.setF r v).out = s.out := rfl
@[simp] theorem State.setF_bulk (r v : Nat) : (s.setF r v).bulk = s.bulk := rfl
@[simp] theorem State.setF_lat (r v : Nat) : (s.setF r v).lat = s.lat := rfl
@[simp] theorem State.setF_rib (r v : Nat) : (s.setF r v).rib = s.rib := rfl
@[simp] theorem State.setF_sch (r v : Nat) : (s.setF r v).sch = s.sch := rfl
@[simp] theorem State.setF_rcv (r v : Nat) : (s.setF r v).rcv = s.rcv := rfl
@[simp] theorem State.setF_icu (r v : Nat) : (s.setF r v).icu = s.icu := rfl
@[simp] theorem State.setF_que (r v : Nat) : (s.setF r v).que = s.que := rfl
@[simp] theorem State.setF_fld (r v : Nat) : (s.setF r v).fld = s.fld := rfl
@[simp] theorem State.setF_mv (r v : Nat) : (s.setF r v).mv = s.mv := rfl
@[simp] theorem State.setF_cam (r v : Nat) : (s.setF r v).cam = s.cam := rfl
@[simp] theorem State.setF_chn (r v : Nat) : (s.setF r v).chn = s.chn := rfl
@[simp] theorem State.setF_arc (r v : Nat) : (s.setF r v).arc = s.arc := rfl
@[simp] theorem State.setF_pwr (r v : Nat) : (s.setF r v).pwr = s.pwr := rfl
@[simp] theorem State.setF_sec (r v : Nat) : (s.setF r v).sec = s.sec := rfl
@[simp] theorem State.setF_dbg (r v : Nat) : (s.setF r v).dbg = s.dbg := rfl
@[simp] theorem State.setF_pending (r v : Nat) : (s.setF r v).pending = s.pending := rfl

@[simp] theorem State.setV_regs (r v : Nat) : (s.setV r v).regs = s.regs := rfl
@[simp] theorem State.setV_mem (r v : Nat) : (s.setV r v).mem = s.mem := rfl
@[simp] theorem State.setV_syn (r v : Nat) : (s.setV r v).syn = s.syn := rfl
@[simp] theorem State.setV_stuck (r v : Nat) : (s.setV r v).stuck = s.stuck := rfl
@[simp] theorem State.setV_tags (r v : Nat) : (s.setV r v).tags = s.tags := rfl
@[simp] theorem State.setV_credit (r v : Nat) : (s.setV r v).credit = s.credit := rfl
@[simp] theorem State.setV_xw (r v : Nat) : (s.setV r v).xw = s.xw := rfl
@[simp] theorem State.setV_time (r v : Nat) : (s.setV r v).time = s.time := rfl
@[simp] theorem State.setV_free (r v : Nat) : (s.setV r v).free = s.free := rfl
@[simp] theorem State.setV_resp (r v : Nat) : (s.setV r v).resp = s.resp := rfl
@[simp] theorem State.setV_out (r v : Nat) : (s.setV r v).out = s.out := rfl
@[simp] theorem State.setV_bulk (r v : Nat) : (s.setV r v).bulk = s.bulk := rfl
@[simp] theorem State.setV_lat (r v : Nat) : (s.setV r v).lat = s.lat := rfl
@[simp] theorem State.setV_rib (r v : Nat) : (s.setV r v).rib = s.rib := rfl
@[simp] theorem State.setV_sch (r v : Nat) : (s.setV r v).sch = s.sch := rfl
@[simp] theorem State.setV_rcv (r v : Nat) : (s.setV r v).rcv = s.rcv := rfl
@[simp] theorem State.setV_icu (r v : Nat) : (s.setV r v).icu = s.icu := rfl
@[simp] theorem State.setV_que (r v : Nat) : (s.setV r v).que = s.que := rfl
@[simp] theorem State.setV_fld (r v : Nat) : (s.setV r v).fld = s.fld := rfl
@[simp] theorem State.setV_mv (r v : Nat) : (s.setV r v).mv = s.mv := rfl
@[simp] theorem State.setV_cam (r v : Nat) : (s.setV r v).cam = s.cam := rfl
@[simp] theorem State.setV_chn (r v : Nat) : (s.setV r v).chn = s.chn := rfl
@[simp] theorem State.setV_arc (r v : Nat) : (s.setV r v).arc = s.arc := rfl
@[simp] theorem State.setV_pwr (r v : Nat) : (s.setV r v).pwr = s.pwr := rfl
@[simp] theorem State.setV_sec (r v : Nat) : (s.setV r v).sec = s.sec := rfl
@[simp] theorem State.setV_dbg (r v : Nat) : (s.setV r v).dbg = s.dbg := rfl
@[simp] theorem State.setV_pending (r v : Nat) : (s.setV r v).pending = s.pending := rfl

@[simp] theorem State.setC_regs (r : Nat) (c : Cap) : (s.setC r c).regs = s.regs := rfl
@[simp] theorem State.setC_mem (r : Nat) (c : Cap) : (s.setC r c).mem = s.mem := rfl
@[simp] theorem State.setC_syn (r : Nat) (c : Cap) : (s.setC r c).syn = s.syn := rfl
@[simp] theorem State.setC_stuck (r : Nat) (c : Cap) : (s.setC r c).stuck = s.stuck := rfl
@[simp] theorem State.setC_tags (r : Nat) (c : Cap) : (s.setC r c).tags = s.tags := rfl
@[simp] theorem State.setC_credit (r : Nat) (c : Cap) : (s.setC r c).credit = s.credit := rfl
@[simp] theorem State.setC_xw (r : Nat) (c : Cap) : (s.setC r c).xw = s.xw := rfl
@[simp] theorem State.setC_time (r : Nat) (c : Cap) : (s.setC r c).time = s.time := rfl
@[simp] theorem State.setC_free (r : Nat) (c : Cap) : (s.setC r c).free = s.free := rfl
@[simp] theorem State.setC_resp (r : Nat) (c : Cap) : (s.setC r c).resp = s.resp := rfl
@[simp] theorem State.setC_out (r : Nat) (c : Cap) : (s.setC r c).out = s.out := rfl
@[simp] theorem State.setC_bulk (r : Nat) (c : Cap) : (s.setC r c).bulk = s.bulk := rfl
@[simp] theorem State.setC_lat (r : Nat) (c : Cap) : (s.setC r c).lat = s.lat := rfl
@[simp] theorem State.setC_rib (r : Nat) (c : Cap) : (s.setC r c).rib = s.rib := rfl
@[simp] theorem State.setC_sch (r : Nat) (c : Cap) : (s.setC r c).sch = s.sch := rfl
@[simp] theorem State.setC_rcv (r : Nat) (c : Cap) : (s.setC r c).rcv = s.rcv := rfl
@[simp] theorem State.setC_icu (r : Nat) (c : Cap) : (s.setC r c).icu = s.icu := rfl
@[simp] theorem State.setC_que (r : Nat) (c : Cap) : (s.setC r c).que = s.que := rfl
@[simp] theorem State.setC_fld (r : Nat) (c : Cap) : (s.setC r c).fld = s.fld := rfl
@[simp] theorem State.setC_mv (r : Nat) (c : Cap) : (s.setC r c).mv = s.mv := rfl
@[simp] theorem State.setC_cam (r : Nat) (c : Cap) : (s.setC r c).cam = s.cam := rfl
@[simp] theorem State.setC_chn (r : Nat) (c : Cap) : (s.setC r c).chn = s.chn := rfl
@[simp] theorem State.setC_arc (r : Nat) (c : Cap) : (s.setC r c).arc = s.arc := rfl
@[simp] theorem State.setC_pwr (r : Nat) (c : Cap) : (s.setC r c).pwr = s.pwr := rfl
@[simp] theorem State.setC_sec (r : Nat) (c : Cap) : (s.setC r c).sec = s.sec := rfl
@[simp] theorem State.setC_dbg (r : Nat) (c : Cap) : (s.setC r c).dbg = s.dbg := rfl
@[simp] theorem State.setC_pending (r : Nat) (c : Cap) : (s.setC r c).pending = s.pending := rfl

@[simp] theorem State.setSp_regs (n v : Nat) : (s.setSp n v).regs = s.regs := rfl
@[simp] theorem State.setSp_mem (n v : Nat) : (s.setSp n v).mem = s.mem := rfl
@[simp] theorem State.setSp_syn (n v : Nat) : (s.setSp n v).syn = s.syn := rfl
@[simp] theorem State.setSp_stuck (n v : Nat) : (s.setSp n v).stuck = s.stuck := rfl
@[simp] theorem State.setSp_tags (n v : Nat) : (s.setSp n v).tags = s.tags := rfl
@[simp] theorem State.setSp_credit (n v : Nat) : (s.setSp n v).credit = s.credit := rfl
@[simp] theorem State.setSp_xw (n v : Nat) : (s.setSp n v).xw = s.xw := rfl
@[simp] theorem State.setSp_time (n v : Nat) : (s.setSp n v).time = s.time := rfl
@[simp] theorem State.setSp_free (n v : Nat) : (s.setSp n v).free = s.free := rfl
@[simp] theorem State.setSp_resp (n v : Nat) : (s.setSp n v).resp = s.resp := rfl
@[simp] theorem State.setSp_out (n v : Nat) : (s.setSp n v).out = s.out := rfl
@[simp] theorem State.setSp_bulk (n v : Nat) : (s.setSp n v).bulk = s.bulk := rfl
@[simp] theorem State.setSp_lat (n v : Nat) : (s.setSp n v).lat = s.lat := rfl
@[simp] theorem State.setSp_rib (n v : Nat) : (s.setSp n v).rib = s.rib := rfl
@[simp] theorem State.setSp_sch (n v : Nat) : (s.setSp n v).sch = s.sch := rfl
@[simp] theorem State.setSp_rcv (n v : Nat) : (s.setSp n v).rcv = s.rcv := rfl
@[simp] theorem State.setSp_icu (n v : Nat) : (s.setSp n v).icu = s.icu := rfl
@[simp] theorem State.setSp_que (n v : Nat) : (s.setSp n v).que = s.que := rfl
@[simp] theorem State.setSp_fld (n v : Nat) : (s.setSp n v).fld = s.fld := rfl
@[simp] theorem State.setSp_mv (n v : Nat) : (s.setSp n v).mv = s.mv := rfl
@[simp] theorem State.setSp_cam (n v : Nat) : (s.setSp n v).cam = s.cam := rfl
@[simp] theorem State.setSp_chn (n v : Nat) : (s.setSp n v).chn = s.chn := rfl
@[simp] theorem State.setSp_arc (n v : Nat) : (s.setSp n v).arc = s.arc := rfl
@[simp] theorem State.setSp_pwr (n v : Nat) : (s.setSp n v).pwr = s.pwr := rfl
@[simp] theorem State.setSp_sec (n v : Nat) : (s.setSp n v).sec = s.sec := rfl
@[simp] theorem State.setSp_dbg (n v : Nat) : (s.setSp n v).dbg = s.dbg := rfl
@[simp] theorem State.setSp_pending (n v : Nat) : (s.setSp n v).pending = s.pending := rfl

@[simp] theorem State.startMul_regs (m : MulOp) : (s.startMul m).regs = s.regs := rfl
@[simp] theorem State.startMul_mem (m : MulOp) : (s.startMul m).mem = s.mem := rfl
@[simp] theorem State.startMul_syn (m : MulOp) : (s.startMul m).syn = s.syn := rfl
@[simp] theorem State.startMul_stuck (m : MulOp) : (s.startMul m).stuck = s.stuck := rfl
@[simp] theorem State.startMul_tags (m : MulOp) : (s.startMul m).tags = s.tags := rfl
@[simp] theorem State.startMul_credit (m : MulOp) : (s.startMul m).credit = s.credit := rfl
@[simp] theorem State.startMul_xw (m : MulOp) : (s.startMul m).xw = s.xw := rfl
@[simp] theorem State.startMul_time (m : MulOp) : (s.startMul m).time = s.time := rfl
@[simp] theorem State.startMul_free (m : MulOp) : (s.startMul m).free = s.free := rfl
@[simp] theorem State.startMul_resp (m : MulOp) : (s.startMul m).resp = s.resp := rfl
@[simp] theorem State.startMul_out (m : MulOp) : (s.startMul m).out = s.out := rfl
@[simp] theorem State.startMul_bulk (m : MulOp) : (s.startMul m).bulk = s.bulk := rfl
@[simp] theorem State.startMul_lat (m : MulOp) : (s.startMul m).lat = s.lat := rfl
@[simp] theorem State.startMul_rib (m : MulOp) : (s.startMul m).rib = s.rib := rfl
@[simp] theorem State.startMul_sch (m : MulOp) : (s.startMul m).sch = s.sch := rfl
@[simp] theorem State.startMul_rcv (m : MulOp) : (s.startMul m).rcv = s.rcv := rfl
@[simp] theorem State.startMul_icu (m : MulOp) : (s.startMul m).icu = s.icu := rfl
@[simp] theorem State.startMul_que (m : MulOp) : (s.startMul m).que = s.que := rfl
@[simp] theorem State.startMul_fld (m : MulOp) : (s.startMul m).fld = s.fld := rfl
@[simp] theorem State.startMul_mv (m : MulOp) : (s.startMul m).mv = s.mv := rfl
@[simp] theorem State.startMul_cam (m : MulOp) : (s.startMul m).cam = s.cam := rfl
@[simp] theorem State.startMul_chn (m : MulOp) : (s.startMul m).chn = s.chn := rfl
@[simp] theorem State.startMul_arc (m : MulOp) : (s.startMul m).arc = s.arc := rfl
@[simp] theorem State.startMul_pwr (m : MulOp) : (s.startMul m).pwr = s.pwr := rfl
@[simp] theorem State.startMul_sec (m : MulOp) : (s.startMul m).sec = s.sec := rfl
@[simp] theorem State.startMul_dbg (m : MulOp) : (s.startMul m).dbg = s.dbg := rfl
@[simp] theorem State.startMul_pending (m : MulOp) : (s.startMul m).pending = s.pending := rfl

@[simp] theorem State.raise_regs (fl : Nat) : (s.raise fl).regs = s.regs := rfl
@[simp] theorem State.raise_mem (fl : Nat) : (s.raise fl).mem = s.mem := rfl
@[simp] theorem State.raise_syn (fl : Nat) : (s.raise fl).syn = s.syn := rfl
@[simp] theorem State.raise_stuck (fl : Nat) : (s.raise fl).stuck = s.stuck := rfl
@[simp] theorem State.raise_tags (fl : Nat) : (s.raise fl).tags = s.tags := rfl
@[simp] theorem State.raise_credit (fl : Nat) : (s.raise fl).credit = s.credit := rfl
@[simp] theorem State.raise_xw (fl : Nat) : (s.raise fl).xw = s.xw := rfl
@[simp] theorem State.raise_time (fl : Nat) : (s.raise fl).time = s.time := rfl
@[simp] theorem State.raise_free (fl : Nat) : (s.raise fl).free = s.free := rfl
@[simp] theorem State.raise_resp (fl : Nat) : (s.raise fl).resp = s.resp := rfl
@[simp] theorem State.raise_out (fl : Nat) : (s.raise fl).out = s.out := rfl
@[simp] theorem State.raise_bulk (fl : Nat) : (s.raise fl).bulk = s.bulk := rfl
@[simp] theorem State.raise_lat (fl : Nat) : (s.raise fl).lat = s.lat := rfl
@[simp] theorem State.raise_rib (fl : Nat) : (s.raise fl).rib = s.rib := rfl
@[simp] theorem State.raise_sch (fl : Nat) : (s.raise fl).sch = s.sch := rfl
@[simp] theorem State.raise_rcv (fl : Nat) : (s.raise fl).rcv = s.rcv := rfl
@[simp] theorem State.raise_icu (fl : Nat) : (s.raise fl).icu = s.icu := rfl
@[simp] theorem State.raise_que (fl : Nat) : (s.raise fl).que = s.que := rfl
@[simp] theorem State.raise_fld (fl : Nat) : (s.raise fl).fld = s.fld := rfl
@[simp] theorem State.raise_mv (fl : Nat) : (s.raise fl).mv = s.mv := rfl
@[simp] theorem State.raise_cam (fl : Nat) : (s.raise fl).cam = s.cam := rfl
@[simp] theorem State.raise_chn (fl : Nat) : (s.raise fl).chn = s.chn := rfl
@[simp] theorem State.raise_arc (fl : Nat) : (s.raise fl).arc = s.arc := rfl
@[simp] theorem State.raise_pwr (fl : Nat) : (s.raise fl).pwr = s.pwr := rfl
@[simp] theorem State.raise_sec (fl : Nat) : (s.raise fl).sec = s.sec := rfl
@[simp] theorem State.raise_dbg (fl : Nat) : (s.raise fl).dbg = s.dbg := rfl
@[simp] theorem State.raise_pending (fl : Nat) : (s.raise fl).pending = s.pending := rfl

@[simp] theorem State.setG_regs (r : Nat) (v : Word) : (s.setG r v).regs = s.regs := by unfold State.setG; split <;> rfl
@[simp] theorem State.setG_mem (r : Nat) (v : Word) : (s.setG r v).mem = s.mem := by unfold State.setG; split <;> rfl
@[simp] theorem State.setG_syn (r : Nat) (v : Word) : (s.setG r v).syn = s.syn := by unfold State.setG; split <;> rfl
@[simp] theorem State.setG_stuck (r : Nat) (v : Word) : (s.setG r v).stuck = s.stuck := by unfold State.setG; split <;> rfl
@[simp] theorem State.setG_tags (r : Nat) (v : Word) : (s.setG r v).tags = s.tags := by unfold State.setG; split <;> rfl
@[simp] theorem State.setG_credit (r : Nat) (v : Word) : (s.setG r v).credit = s.credit := by unfold State.setG; split <;> rfl
@[simp] theorem State.setG_xw (r : Nat) (v : Word) : (s.setG r v).xw = s.xw := by unfold State.setG; split <;> rfl
@[simp] theorem State.setG_time (r : Nat) (v : Word) : (s.setG r v).time = s.time := by unfold State.setG; split <;> rfl
@[simp] theorem State.setG_free (r : Nat) (v : Word) : (s.setG r v).free = s.free := by unfold State.setG; split <;> rfl
@[simp] theorem State.setG_resp (r : Nat) (v : Word) : (s.setG r v).resp = s.resp := by unfold State.setG; split <;> rfl
@[simp] theorem State.setG_out (r : Nat) (v : Word) : (s.setG r v).out = s.out := by unfold State.setG; split <;> rfl
@[simp] theorem State.setG_bulk (r : Nat) (v : Word) : (s.setG r v).bulk = s.bulk := by unfold State.setG; split <;> rfl
@[simp] theorem State.setG_lat (r : Nat) (v : Word) : (s.setG r v).lat = s.lat := by unfold State.setG; split <;> rfl
@[simp] theorem State.setG_rib (r : Nat) (v : Word) : (s.setG r v).rib = s.rib := by unfold State.setG; split <;> rfl
@[simp] theorem State.setG_sch (r : Nat) (v : Word) : (s.setG r v).sch = s.sch := by unfold State.setG; split <;> rfl
@[simp] theorem State.setG_rcv (r : Nat) (v : Word) : (s.setG r v).rcv = s.rcv := by unfold State.setG; split <;> rfl
@[simp] theorem State.setG_icu (r : Nat) (v : Word) : (s.setG r v).icu = s.icu := by unfold State.setG; split <;> rfl
@[simp] theorem State.setG_que (r : Nat) (v : Word) : (s.setG r v).que = s.que := by unfold State.setG; split <;> rfl
@[simp] theorem State.setG_fld (r : Nat) (v : Word) : (s.setG r v).fld = s.fld := by unfold State.setG; split <;> rfl
@[simp] theorem State.setG_mv (r : Nat) (v : Word) : (s.setG r v).mv = s.mv := by unfold State.setG; split <;> rfl
@[simp] theorem State.setG_cam (r : Nat) (v : Word) : (s.setG r v).cam = s.cam := by unfold State.setG; split <;> rfl
@[simp] theorem State.setG_chn (r : Nat) (v : Word) : (s.setG r v).chn = s.chn := by unfold State.setG; split <;> rfl
@[simp] theorem State.setG_arc (r : Nat) (v : Word) : (s.setG r v).arc = s.arc := by unfold State.setG; split <;> rfl
@[simp] theorem State.setG_pwr (r : Nat) (v : Word) : (s.setG r v).pwr = s.pwr := by unfold State.setG; split <;> rfl
@[simp] theorem State.setG_sec (r : Nat) (v : Word) : (s.setG r v).sec = s.sec := by unfold State.setG; split <;> rfl
@[simp] theorem State.setG_dbg (r : Nat) (v : Word) : (s.setG r v).dbg = s.dbg := by unfold State.setG; split <;> rfl
@[simp] theorem State.setG_pending (r : Nat) (v : Word) : (s.setG r v).pending = s.pending := by unfold State.setG; split <;> rfl

@[simp] theorem State.setP_regs (r : Nat) (v : Word) : (s.setP r v).regs = s.regs := by unfold State.setP; split <;> rfl
@[simp] theorem State.setP_mem (r : Nat) (v : Word) : (s.setP r v).mem = s.mem := by unfold State.setP; split <;> rfl
@[simp] theorem State.setP_syn (r : Nat) (v : Word) : (s.setP r v).syn = s.syn := by unfold State.setP; split <;> rfl
@[simp] theorem State.setP_stuck (r : Nat) (v : Word) : (s.setP r v).stuck = s.stuck := by unfold State.setP; split <;> rfl
@[simp] theorem State.setP_tags (r : Nat) (v : Word) : (s.setP r v).tags = s.tags := by unfold State.setP; split <;> rfl
@[simp] theorem State.setP_credit (r : Nat) (v : Word) : (s.setP r v).credit = s.credit := by unfold State.setP; split <;> rfl
@[simp] theorem State.setP_xw (r : Nat) (v : Word) : (s.setP r v).xw = s.xw := by unfold State.setP; split <;> rfl
@[simp] theorem State.setP_time (r : Nat) (v : Word) : (s.setP r v).time = s.time := by unfold State.setP; split <;> rfl
@[simp] theorem State.setP_free (r : Nat) (v : Word) : (s.setP r v).free = s.free := by unfold State.setP; split <;> rfl
@[simp] theorem State.setP_resp (r : Nat) (v : Word) : (s.setP r v).resp = s.resp := by unfold State.setP; split <;> rfl
@[simp] theorem State.setP_out (r : Nat) (v : Word) : (s.setP r v).out = s.out := by unfold State.setP; split <;> rfl
@[simp] theorem State.setP_bulk (r : Nat) (v : Word) : (s.setP r v).bulk = s.bulk := by unfold State.setP; split <;> rfl
@[simp] theorem State.setP_lat (r : Nat) (v : Word) : (s.setP r v).lat = s.lat := by unfold State.setP; split <;> rfl
@[simp] theorem State.setP_rib (r : Nat) (v : Word) : (s.setP r v).rib = s.rib := by unfold State.setP; split <;> rfl
@[simp] theorem State.setP_sch (r : Nat) (v : Word) : (s.setP r v).sch = s.sch := by unfold State.setP; split <;> rfl
@[simp] theorem State.setP_rcv (r : Nat) (v : Word) : (s.setP r v).rcv = s.rcv := by unfold State.setP; split <;> rfl
@[simp] theorem State.setP_icu (r : Nat) (v : Word) : (s.setP r v).icu = s.icu := by unfold State.setP; split <;> rfl
@[simp] theorem State.setP_que (r : Nat) (v : Word) : (s.setP r v).que = s.que := by unfold State.setP; split <;> rfl
@[simp] theorem State.setP_fld (r : Nat) (v : Word) : (s.setP r v).fld = s.fld := by unfold State.setP; split <;> rfl
@[simp] theorem State.setP_mv (r : Nat) (v : Word) : (s.setP r v).mv = s.mv := by unfold State.setP; split <;> rfl
@[simp] theorem State.setP_cam (r : Nat) (v : Word) : (s.setP r v).cam = s.cam := by unfold State.setP; split <;> rfl
@[simp] theorem State.setP_chn (r : Nat) (v : Word) : (s.setP r v).chn = s.chn := by unfold State.setP; split <;> rfl
@[simp] theorem State.setP_arc (r : Nat) (v : Word) : (s.setP r v).arc = s.arc := by unfold State.setP; split <;> rfl
@[simp] theorem State.setP_pwr (r : Nat) (v : Word) : (s.setP r v).pwr = s.pwr := by unfold State.setP; split <;> rfl
@[simp] theorem State.setP_sec (r : Nat) (v : Word) : (s.setP r v).sec = s.sec := by unfold State.setP; split <;> rfl
@[simp] theorem State.setP_dbg (r : Nat) (v : Word) : (s.setP r v).dbg = s.dbg := by unfold State.setP; split <;> rfl
@[simp] theorem State.setP_pending (r : Nat) (v : Word) : (s.setP r v).pending = s.pending := by unfold State.setP; split <;> rfl

@[simp] theorem State.raiseSat_regs (b : Bool) : (s.raiseSat b).regs = s.regs := by unfold State.raiseSat; split <;> rfl
@[simp] theorem State.raiseSat_mem (b : Bool) : (s.raiseSat b).mem = s.mem := by unfold State.raiseSat; split <;> rfl
@[simp] theorem State.raiseSat_syn (b : Bool) : (s.raiseSat b).syn = s.syn := by unfold State.raiseSat; split <;> rfl
@[simp] theorem State.raiseSat_stuck (b : Bool) : (s.raiseSat b).stuck = s.stuck := by unfold State.raiseSat; split <;> rfl
@[simp] theorem State.raiseSat_tags (b : Bool) : (s.raiseSat b).tags = s.tags := by unfold State.raiseSat; split <;> rfl
@[simp] theorem State.raiseSat_credit (b : Bool) : (s.raiseSat b).credit = s.credit := by unfold State.raiseSat; split <;> rfl
@[simp] theorem State.raiseSat_xw (b : Bool) : (s.raiseSat b).xw = s.xw := by unfold State.raiseSat; split <;> rfl
@[simp] theorem State.raiseSat_time (b : Bool) : (s.raiseSat b).time = s.time := by unfold State.raiseSat; split <;> rfl
@[simp] theorem State.raiseSat_free (b : Bool) : (s.raiseSat b).free = s.free := by unfold State.raiseSat; split <;> rfl
@[simp] theorem State.raiseSat_resp (b : Bool) : (s.raiseSat b).resp = s.resp := by unfold State.raiseSat; split <;> rfl
@[simp] theorem State.raiseSat_out (b : Bool) : (s.raiseSat b).out = s.out := by unfold State.raiseSat; split <;> rfl
@[simp] theorem State.raiseSat_bulk (b : Bool) : (s.raiseSat b).bulk = s.bulk := by unfold State.raiseSat; split <;> rfl
@[simp] theorem State.raiseSat_lat (b : Bool) : (s.raiseSat b).lat = s.lat := by unfold State.raiseSat; split <;> rfl
@[simp] theorem State.raiseSat_rib (b : Bool) : (s.raiseSat b).rib = s.rib := by unfold State.raiseSat; split <;> rfl
@[simp] theorem State.raiseSat_sch (b : Bool) : (s.raiseSat b).sch = s.sch := by unfold State.raiseSat; split <;> rfl
@[simp] theorem State.raiseSat_rcv (b : Bool) : (s.raiseSat b).rcv = s.rcv := by unfold State.raiseSat; split <;> rfl
@[simp] theorem State.raiseSat_icu (b : Bool) : (s.raiseSat b).icu = s.icu := by unfold State.raiseSat; split <;> rfl
@[simp] theorem State.raiseSat_que (b : Bool) : (s.raiseSat b).que = s.que := by unfold State.raiseSat; split <;> rfl
@[simp] theorem State.raiseSat_fld (b : Bool) : (s.raiseSat b).fld = s.fld := by unfold State.raiseSat; split <;> rfl
@[simp] theorem State.raiseSat_mv (b : Bool) : (s.raiseSat b).mv = s.mv := by unfold State.raiseSat; split <;> rfl
@[simp] theorem State.raiseSat_cam (b : Bool) : (s.raiseSat b).cam = s.cam := by unfold State.raiseSat; split <;> rfl
@[simp] theorem State.raiseSat_chn (b : Bool) : (s.raiseSat b).chn = s.chn := by unfold State.raiseSat; split <;> rfl
@[simp] theorem State.raiseSat_arc (b : Bool) : (s.raiseSat b).arc = s.arc := by unfold State.raiseSat; split <;> rfl
@[simp] theorem State.raiseSat_pwr (b : Bool) : (s.raiseSat b).pwr = s.pwr := by unfold State.raiseSat; split <;> rfl
@[simp] theorem State.raiseSat_sec (b : Bool) : (s.raiseSat b).sec = s.sec := by unfold State.raiseSat; split <;> rfl
@[simp] theorem State.raiseSat_dbg (b : Bool) : (s.raiseSat b).dbg = s.dbg := by unfold State.raiseSat; split <;> rfl
@[simp] theorem State.raiseSat_pending (b : Bool) : (s.raiseSat b).pending = s.pending := by unfold State.raiseSat; split <;> rfl

@[simp] theorem State.setGN_regs (r v : Nat) : (s.setGN r v).regs = s.regs := by simp [State.setGN]
@[simp] theorem State.setGN_mem (r v : Nat) : (s.setGN r v).mem = s.mem := by simp [State.setGN]
@[simp] theorem State.setGN_syn (r v : Nat) : (s.setGN r v).syn = s.syn := by simp [State.setGN]
@[simp] theorem State.setGN_stuck (r v : Nat) : (s.setGN r v).stuck = s.stuck := by simp [State.setGN]
@[simp] theorem State.setGN_tags (r v : Nat) : (s.setGN r v).tags = s.tags := by simp [State.setGN]
@[simp] theorem State.setGN_credit (r v : Nat) : (s.setGN r v).credit = s.credit := by simp [State.setGN]
@[simp] theorem State.setGN_xw (r v : Nat) : (s.setGN r v).xw = s.xw := by simp [State.setGN]
@[simp] theorem State.setGN_time (r v : Nat) : (s.setGN r v).time = s.time := by simp [State.setGN]
@[simp] theorem State.setGN_free (r v : Nat) : (s.setGN r v).free = s.free := by simp [State.setGN]
@[simp] theorem State.setGN_resp (r v : Nat) : (s.setGN r v).resp = s.resp := by simp [State.setGN]
@[simp] theorem State.setGN_out (r v : Nat) : (s.setGN r v).out = s.out := by simp [State.setGN]
@[simp] theorem State.setGN_bulk (r v : Nat) : (s.setGN r v).bulk = s.bulk := by simp [State.setGN]
@[simp] theorem State.setGN_lat (r v : Nat) : (s.setGN r v).lat = s.lat := by simp [State.setGN]
@[simp] theorem State.setGN_rib (r v : Nat) : (s.setGN r v).rib = s.rib := by simp [State.setGN]
@[simp] theorem State.setGN_sch (r v : Nat) : (s.setGN r v).sch = s.sch := by simp [State.setGN]
@[simp] theorem State.setGN_rcv (r v : Nat) : (s.setGN r v).rcv = s.rcv := by simp [State.setGN]
@[simp] theorem State.setGN_icu (r v : Nat) : (s.setGN r v).icu = s.icu := by simp [State.setGN]
@[simp] theorem State.setGN_que (r v : Nat) : (s.setGN r v).que = s.que := by simp [State.setGN]
@[simp] theorem State.setGN_fld (r v : Nat) : (s.setGN r v).fld = s.fld := by simp [State.setGN]
@[simp] theorem State.setGN_mv (r v : Nat) : (s.setGN r v).mv = s.mv := by simp [State.setGN]
@[simp] theorem State.setGN_cam (r v : Nat) : (s.setGN r v).cam = s.cam := by simp [State.setGN]
@[simp] theorem State.setGN_chn (r v : Nat) : (s.setGN r v).chn = s.chn := by simp [State.setGN]
@[simp] theorem State.setGN_arc (r v : Nat) : (s.setGN r v).arc = s.arc := by simp [State.setGN]
@[simp] theorem State.setGN_pwr (r v : Nat) : (s.setGN r v).pwr = s.pwr := by simp [State.setGN]
@[simp] theorem State.setGN_sec (r v : Nat) : (s.setGN r v).sec = s.sec := by simp [State.setGN]
@[simp] theorem State.setGN_dbg (r v : Nat) : (s.setGN r v).dbg = s.dbg := by simp [State.setGN]
@[simp] theorem State.setGN_pending (r v : Nat) : (s.setGN r v).pending = s.pending := by simp [State.setGN]

@[simp] theorem State.setF_tri_pc (r v : Nat) : (s.setF r v).tri.pc = s.tri.pc := rfl
@[simp] theorem State.setF_tri_slot (r v : Nat) : (s.setF r v).tri.slot = s.tri.slot := rfl
@[simp] theorem State.setF_tri_g (r v : Nat) : (s.setF r v).tri.g = s.tri.g := rfl
@[simp] theorem State.setF_tri_v (r v : Nat) : (s.setF r v).tri.v = s.tri.v := rfl
@[simp] theorem State.setF_tri_p (r v : Nat) : (s.setF r v).tri.p = s.tri.p := rfl
@[simp] theorem State.setF_tri_fcsr (r v : Nat) : (s.setF r v).tri.fcsr = s.tri.fcsr := rfl
@[simp] theorem State.setF_tri_ev (r v : Nat) : (s.setF r v).tri.ev = s.tri.ev := rfl
@[simp] theorem State.setF_tri_sp (r v : Nat) : (s.setF r v).tri.sp = s.tri.sp := rfl
@[simp] theorem State.setF_tri_mul (r v : Nat) : (s.setF r v).tri.mul = s.tri.mul := rfl
@[simp] theorem State.setF_tri_clk (r v : Nat) : (s.setF r v).tri.clk = s.tri.clk := rfl
@[simp] theorem State.setF_tri_skew (r v : Nat) : (s.setF r v).tri.skew = s.tri.skew := rfl
@[simp] theorem State.setF_tri_insn (r v : Nat) : (s.setF r v).tri.insn = s.tri.insn := rfl
@[simp] theorem State.setF_tri_ctLast (r v : Nat) : (s.setF r v).tri.ctLast = s.tri.ctLast := rfl
@[simp] theorem State.setF_tri_c (r v : Nat) : (s.setF r v).tri.c = s.tri.c := rfl
@[simp] theorem State.setF_tri_fcap (r v : Nat) : (s.setF r v).tri.fcap = s.tri.fcap := rfl
@[simp] theorem State.setF_tri_ge (r v : Nat) : (s.setF r v).tri.ge = s.tri.ge := rfl
@[simp] theorem State.setF_tri_geUsed (r v : Nat) : (s.setF r v).tri.geUsed = s.tri.geUsed := rfl
@[simp] theorem State.setF_tri_htb (r v : Nat) : (s.setF r v).tri.htb = s.tri.htb := rfl
@[simp] theorem State.setF_tri_esb (r v : Nat) : (s.setF r v).tri.esb = s.tri.esb := rfl
@[simp] theorem State.setF_tri_ml (r v : Nat) : (s.setF r v).tri.ml = s.tri.ml := rfl
@[simp] theorem State.setF_tri_htbUsed (r v : Nat) : (s.setF r v).tri.htbUsed = s.tri.htbUsed := rfl
@[simp] theorem State.setF_tri_esbUsed (r v : Nat) : (s.setF r v).tri.esbUsed = s.tri.esbUsed := rfl
@[simp] theorem State.setF_tri_mlUsed (r v : Nat) : (s.setF r v).tri.mlUsed = s.tri.mlUsed := rfl
@[simp] theorem State.setF_tri_fcause (r v : Nat) : (s.setF r v).tri.fcause = s.tri.fcause := rfl
@[simp] theorem State.setF_tri_faddr (r v : Nat) : (s.setF r v).tri.faddr = s.tri.faddr := rfl
@[simp] theorem State.setF_tri_eprW (r v : Nat) : (s.setF r v).tri.eprW = s.tri.eprW := rfl
@[simp] theorem State.setF_tri_epr (r v : Nat) : (s.setF r v).tri.epr = s.tri.epr := rfl
@[simp] theorem State.setF_tri_eprUsed (r v : Nat) : (s.setF r v).tri.eprUsed = s.tri.eprUsed := rfl
@[simp] theorem State.setF_tri_waiting (r v : Nat) : (s.setF r v).tri.waiting = s.tri.waiting := rfl
@[simp] theorem State.setF_tri_remapUsed (r v : Nat) : (s.setF r v).tri.remapUsed = s.tri.remapUsed := rfl
@[simp] theorem State.setF_tri_holdOvr (r v : Nat) : (s.setF r v).tri.holdOvr = s.tri.holdOvr := rfl
@[simp] theorem State.setF_tri_epx (r v : Nat) : (s.setF r v).tri.epx = s.tri.epx := rfl
@[simp] theorem State.setF_tri_actl (r v : Nat) : (s.setF r v).tri.actl = s.tri.actl := rfl
@[simp] theorem State.setF_tri_comp (r v : Nat) : (s.setF r v).tri.comp = s.tri.comp := rfl
@[simp] theorem State.setF_tri_hold (r v : Nat) : (s.setF r v).tri.hold = s.tri.hold := rfl
@[simp] theorem State.setF_tri_stack (r v : Nat) : (s.setF r v).tri.stack = s.tri.stack := rfl
@[simp] theorem State.setF_tri_entered (r v : Nat) : (s.setF r v).tri.entered = s.tri.entered := rfl
@[simp] theorem State.setF_tri_wait (r v : Nat) : (s.setF r v).tri.wait = s.tri.wait := rfl
@[simp] theorem State.setF_tri_rpt (r v : Nat) : (s.setF r v).tri.rpt = s.tri.rpt := rfl

@[simp] theorem State.setV_tri_pc (r v : Nat) : (s.setV r v).tri.pc = s.tri.pc := rfl
@[simp] theorem State.setV_tri_slot (r v : Nat) : (s.setV r v).tri.slot = s.tri.slot := rfl
@[simp] theorem State.setV_tri_g (r v : Nat) : (s.setV r v).tri.g = s.tri.g := rfl
@[simp] theorem State.setV_tri_f (r v : Nat) : (s.setV r v).tri.f = s.tri.f := rfl
@[simp] theorem State.setV_tri_p (r v : Nat) : (s.setV r v).tri.p = s.tri.p := rfl
@[simp] theorem State.setV_tri_fcsr (r v : Nat) : (s.setV r v).tri.fcsr = s.tri.fcsr := rfl
@[simp] theorem State.setV_tri_ev (r v : Nat) : (s.setV r v).tri.ev = s.tri.ev := rfl
@[simp] theorem State.setV_tri_sp (r v : Nat) : (s.setV r v).tri.sp = s.tri.sp := rfl
@[simp] theorem State.setV_tri_mul (r v : Nat) : (s.setV r v).tri.mul = s.tri.mul := rfl
@[simp] theorem State.setV_tri_clk (r v : Nat) : (s.setV r v).tri.clk = s.tri.clk := rfl
@[simp] theorem State.setV_tri_skew (r v : Nat) : (s.setV r v).tri.skew = s.tri.skew := rfl
@[simp] theorem State.setV_tri_insn (r v : Nat) : (s.setV r v).tri.insn = s.tri.insn := rfl
@[simp] theorem State.setV_tri_ctLast (r v : Nat) : (s.setV r v).tri.ctLast = s.tri.ctLast := rfl
@[simp] theorem State.setV_tri_c (r v : Nat) : (s.setV r v).tri.c = s.tri.c := rfl
@[simp] theorem State.setV_tri_fcap (r v : Nat) : (s.setV r v).tri.fcap = s.tri.fcap := rfl
@[simp] theorem State.setV_tri_ge (r v : Nat) : (s.setV r v).tri.ge = s.tri.ge := rfl
@[simp] theorem State.setV_tri_geUsed (r v : Nat) : (s.setV r v).tri.geUsed = s.tri.geUsed := rfl
@[simp] theorem State.setV_tri_htb (r v : Nat) : (s.setV r v).tri.htb = s.tri.htb := rfl
@[simp] theorem State.setV_tri_esb (r v : Nat) : (s.setV r v).tri.esb = s.tri.esb := rfl
@[simp] theorem State.setV_tri_ml (r v : Nat) : (s.setV r v).tri.ml = s.tri.ml := rfl
@[simp] theorem State.setV_tri_htbUsed (r v : Nat) : (s.setV r v).tri.htbUsed = s.tri.htbUsed := rfl
@[simp] theorem State.setV_tri_esbUsed (r v : Nat) : (s.setV r v).tri.esbUsed = s.tri.esbUsed := rfl
@[simp] theorem State.setV_tri_mlUsed (r v : Nat) : (s.setV r v).tri.mlUsed = s.tri.mlUsed := rfl
@[simp] theorem State.setV_tri_fcause (r v : Nat) : (s.setV r v).tri.fcause = s.tri.fcause := rfl
@[simp] theorem State.setV_tri_faddr (r v : Nat) : (s.setV r v).tri.faddr = s.tri.faddr := rfl
@[simp] theorem State.setV_tri_eprW (r v : Nat) : (s.setV r v).tri.eprW = s.tri.eprW := rfl
@[simp] theorem State.setV_tri_epr (r v : Nat) : (s.setV r v).tri.epr = s.tri.epr := rfl
@[simp] theorem State.setV_tri_eprUsed (r v : Nat) : (s.setV r v).tri.eprUsed = s.tri.eprUsed := rfl
@[simp] theorem State.setV_tri_waiting (r v : Nat) : (s.setV r v).tri.waiting = s.tri.waiting := rfl
@[simp] theorem State.setV_tri_remapUsed (r v : Nat) : (s.setV r v).tri.remapUsed = s.tri.remapUsed := rfl
@[simp] theorem State.setV_tri_holdOvr (r v : Nat) : (s.setV r v).tri.holdOvr = s.tri.holdOvr := rfl
@[simp] theorem State.setV_tri_epx (r v : Nat) : (s.setV r v).tri.epx = s.tri.epx := rfl
@[simp] theorem State.setV_tri_actl (r v : Nat) : (s.setV r v).tri.actl = s.tri.actl := rfl
@[simp] theorem State.setV_tri_comp (r v : Nat) : (s.setV r v).tri.comp = s.tri.comp := rfl
@[simp] theorem State.setV_tri_hold (r v : Nat) : (s.setV r v).tri.hold = s.tri.hold := rfl
@[simp] theorem State.setV_tri_stack (r v : Nat) : (s.setV r v).tri.stack = s.tri.stack := rfl
@[simp] theorem State.setV_tri_entered (r v : Nat) : (s.setV r v).tri.entered = s.tri.entered := rfl
@[simp] theorem State.setV_tri_wait (r v : Nat) : (s.setV r v).tri.wait = s.tri.wait := rfl
@[simp] theorem State.setV_tri_rpt (r v : Nat) : (s.setV r v).tri.rpt = s.tri.rpt := rfl

@[simp] theorem State.setC_tri_pc (r : Nat) (c : Cap) : (s.setC r c).tri.pc = s.tri.pc := rfl
@[simp] theorem State.setC_tri_slot (r : Nat) (c : Cap) : (s.setC r c).tri.slot = s.tri.slot := rfl
@[simp] theorem State.setC_tri_g (r : Nat) (c : Cap) : (s.setC r c).tri.g = s.tri.g := rfl
@[simp] theorem State.setC_tri_f (r : Nat) (c : Cap) : (s.setC r c).tri.f = s.tri.f := rfl
@[simp] theorem State.setC_tri_v (r : Nat) (c : Cap) : (s.setC r c).tri.v = s.tri.v := rfl
@[simp] theorem State.setC_tri_p (r : Nat) (c : Cap) : (s.setC r c).tri.p = s.tri.p := rfl
@[simp] theorem State.setC_tri_fcsr (r : Nat) (c : Cap) : (s.setC r c).tri.fcsr = s.tri.fcsr := rfl
@[simp] theorem State.setC_tri_ev (r : Nat) (c : Cap) : (s.setC r c).tri.ev = s.tri.ev := rfl
@[simp] theorem State.setC_tri_sp (r : Nat) (c : Cap) : (s.setC r c).tri.sp = s.tri.sp := rfl
@[simp] theorem State.setC_tri_mul (r : Nat) (c : Cap) : (s.setC r c).tri.mul = s.tri.mul := rfl
@[simp] theorem State.setC_tri_clk (r : Nat) (c : Cap) : (s.setC r c).tri.clk = s.tri.clk := rfl
@[simp] theorem State.setC_tri_skew (r : Nat) (c : Cap) : (s.setC r c).tri.skew = s.tri.skew := rfl
@[simp] theorem State.setC_tri_insn (r : Nat) (c : Cap) : (s.setC r c).tri.insn = s.tri.insn := rfl
@[simp] theorem State.setC_tri_ctLast (r : Nat) (c : Cap) : (s.setC r c).tri.ctLast = s.tri.ctLast := rfl
@[simp] theorem State.setC_tri_fcap (r : Nat) (c : Cap) : (s.setC r c).tri.fcap = s.tri.fcap := rfl
@[simp] theorem State.setC_tri_ge (r : Nat) (c : Cap) : (s.setC r c).tri.ge = s.tri.ge := rfl
@[simp] theorem State.setC_tri_geUsed (r : Nat) (c : Cap) : (s.setC r c).tri.geUsed = s.tri.geUsed := rfl
@[simp] theorem State.setC_tri_htb (r : Nat) (c : Cap) : (s.setC r c).tri.htb = s.tri.htb := rfl
@[simp] theorem State.setC_tri_esb (r : Nat) (c : Cap) : (s.setC r c).tri.esb = s.tri.esb := rfl
@[simp] theorem State.setC_tri_ml (r : Nat) (c : Cap) : (s.setC r c).tri.ml = s.tri.ml := rfl
@[simp] theorem State.setC_tri_htbUsed (r : Nat) (c : Cap) : (s.setC r c).tri.htbUsed = s.tri.htbUsed := rfl
@[simp] theorem State.setC_tri_esbUsed (r : Nat) (c : Cap) : (s.setC r c).tri.esbUsed = s.tri.esbUsed := rfl
@[simp] theorem State.setC_tri_mlUsed (r : Nat) (c : Cap) : (s.setC r c).tri.mlUsed = s.tri.mlUsed := rfl
@[simp] theorem State.setC_tri_fcause (r : Nat) (c : Cap) : (s.setC r c).tri.fcause = s.tri.fcause := rfl
@[simp] theorem State.setC_tri_faddr (r : Nat) (c : Cap) : (s.setC r c).tri.faddr = s.tri.faddr := rfl
@[simp] theorem State.setC_tri_eprW (r : Nat) (c : Cap) : (s.setC r c).tri.eprW = s.tri.eprW := rfl
@[simp] theorem State.setC_tri_epr (r : Nat) (c : Cap) : (s.setC r c).tri.epr = s.tri.epr := rfl
@[simp] theorem State.setC_tri_eprUsed (r : Nat) (c : Cap) : (s.setC r c).tri.eprUsed = s.tri.eprUsed := rfl
@[simp] theorem State.setC_tri_waiting (r : Nat) (c : Cap) : (s.setC r c).tri.waiting = s.tri.waiting := rfl
@[simp] theorem State.setC_tri_remapUsed (r : Nat) (c : Cap) : (s.setC r c).tri.remapUsed = s.tri.remapUsed := rfl
@[simp] theorem State.setC_tri_holdOvr (r : Nat) (c : Cap) : (s.setC r c).tri.holdOvr = s.tri.holdOvr := rfl
@[simp] theorem State.setC_tri_epx (r : Nat) (c : Cap) : (s.setC r c).tri.epx = s.tri.epx := rfl
@[simp] theorem State.setC_tri_actl (r : Nat) (c : Cap) : (s.setC r c).tri.actl = s.tri.actl := rfl
@[simp] theorem State.setC_tri_comp (r : Nat) (c : Cap) : (s.setC r c).tri.comp = s.tri.comp := rfl
@[simp] theorem State.setC_tri_hold (r : Nat) (c : Cap) : (s.setC r c).tri.hold = s.tri.hold := rfl
@[simp] theorem State.setC_tri_stack (r : Nat) (c : Cap) : (s.setC r c).tri.stack = s.tri.stack := rfl
@[simp] theorem State.setC_tri_entered (r : Nat) (c : Cap) : (s.setC r c).tri.entered = s.tri.entered := rfl
@[simp] theorem State.setC_tri_wait (r : Nat) (c : Cap) : (s.setC r c).tri.wait = s.tri.wait := rfl
@[simp] theorem State.setC_tri_rpt (r : Nat) (c : Cap) : (s.setC r c).tri.rpt = s.tri.rpt := rfl

@[simp] theorem State.setSp_tri_pc (n v : Nat) : (s.setSp n v).tri.pc = s.tri.pc := rfl
@[simp] theorem State.setSp_tri_slot (n v : Nat) : (s.setSp n v).tri.slot = s.tri.slot := rfl
@[simp] theorem State.setSp_tri_g (n v : Nat) : (s.setSp n v).tri.g = s.tri.g := rfl
@[simp] theorem State.setSp_tri_f (n v : Nat) : (s.setSp n v).tri.f = s.tri.f := rfl
@[simp] theorem State.setSp_tri_v (n v : Nat) : (s.setSp n v).tri.v = s.tri.v := rfl
@[simp] theorem State.setSp_tri_p (n v : Nat) : (s.setSp n v).tri.p = s.tri.p := rfl
@[simp] theorem State.setSp_tri_fcsr (n v : Nat) : (s.setSp n v).tri.fcsr = s.tri.fcsr := rfl
@[simp] theorem State.setSp_tri_ev (n v : Nat) : (s.setSp n v).tri.ev = s.tri.ev := rfl
@[simp] theorem State.setSp_tri_mul (n v : Nat) : (s.setSp n v).tri.mul = s.tri.mul := rfl
@[simp] theorem State.setSp_tri_clk (n v : Nat) : (s.setSp n v).tri.clk = s.tri.clk := rfl
@[simp] theorem State.setSp_tri_skew (n v : Nat) : (s.setSp n v).tri.skew = s.tri.skew := rfl
@[simp] theorem State.setSp_tri_insn (n v : Nat) : (s.setSp n v).tri.insn = s.tri.insn := rfl
@[simp] theorem State.setSp_tri_ctLast (n v : Nat) : (s.setSp n v).tri.ctLast = s.tri.ctLast := rfl
@[simp] theorem State.setSp_tri_c (n v : Nat) : (s.setSp n v).tri.c = s.tri.c := rfl
@[simp] theorem State.setSp_tri_fcap (n v : Nat) : (s.setSp n v).tri.fcap = s.tri.fcap := rfl
@[simp] theorem State.setSp_tri_ge (n v : Nat) : (s.setSp n v).tri.ge = s.tri.ge := rfl
@[simp] theorem State.setSp_tri_geUsed (n v : Nat) : (s.setSp n v).tri.geUsed = s.tri.geUsed := rfl
@[simp] theorem State.setSp_tri_htb (n v : Nat) : (s.setSp n v).tri.htb = s.tri.htb := rfl
@[simp] theorem State.setSp_tri_esb (n v : Nat) : (s.setSp n v).tri.esb = s.tri.esb := rfl
@[simp] theorem State.setSp_tri_ml (n v : Nat) : (s.setSp n v).tri.ml = s.tri.ml := rfl
@[simp] theorem State.setSp_tri_htbUsed (n v : Nat) : (s.setSp n v).tri.htbUsed = s.tri.htbUsed := rfl
@[simp] theorem State.setSp_tri_esbUsed (n v : Nat) : (s.setSp n v).tri.esbUsed = s.tri.esbUsed := rfl
@[simp] theorem State.setSp_tri_mlUsed (n v : Nat) : (s.setSp n v).tri.mlUsed = s.tri.mlUsed := rfl
@[simp] theorem State.setSp_tri_fcause (n v : Nat) : (s.setSp n v).tri.fcause = s.tri.fcause := rfl
@[simp] theorem State.setSp_tri_faddr (n v : Nat) : (s.setSp n v).tri.faddr = s.tri.faddr := rfl
@[simp] theorem State.setSp_tri_eprW (n v : Nat) : (s.setSp n v).tri.eprW = s.tri.eprW := rfl
@[simp] theorem State.setSp_tri_epr (n v : Nat) : (s.setSp n v).tri.epr = s.tri.epr := rfl
@[simp] theorem State.setSp_tri_eprUsed (n v : Nat) : (s.setSp n v).tri.eprUsed = s.tri.eprUsed := rfl
@[simp] theorem State.setSp_tri_waiting (n v : Nat) : (s.setSp n v).tri.waiting = s.tri.waiting := rfl
@[simp] theorem State.setSp_tri_remapUsed (n v : Nat) : (s.setSp n v).tri.remapUsed = s.tri.remapUsed := rfl
@[simp] theorem State.setSp_tri_holdOvr (n v : Nat) : (s.setSp n v).tri.holdOvr = s.tri.holdOvr := rfl
@[simp] theorem State.setSp_tri_epx (n v : Nat) : (s.setSp n v).tri.epx = s.tri.epx := rfl
@[simp] theorem State.setSp_tri_actl (n v : Nat) : (s.setSp n v).tri.actl = s.tri.actl := rfl
@[simp] theorem State.setSp_tri_comp (n v : Nat) : (s.setSp n v).tri.comp = s.tri.comp := rfl
@[simp] theorem State.setSp_tri_hold (n v : Nat) : (s.setSp n v).tri.hold = s.tri.hold := rfl
@[simp] theorem State.setSp_tri_stack (n v : Nat) : (s.setSp n v).tri.stack = s.tri.stack := rfl
@[simp] theorem State.setSp_tri_entered (n v : Nat) : (s.setSp n v).tri.entered = s.tri.entered := rfl
@[simp] theorem State.setSp_tri_wait (n v : Nat) : (s.setSp n v).tri.wait = s.tri.wait := rfl
@[simp] theorem State.setSp_tri_rpt (n v : Nat) : (s.setSp n v).tri.rpt = s.tri.rpt := rfl

@[simp] theorem State.startMul_tri_pc (m : MulOp) : (s.startMul m).tri.pc = s.tri.pc := rfl
@[simp] theorem State.startMul_tri_slot (m : MulOp) : (s.startMul m).tri.slot = s.tri.slot := rfl
@[simp] theorem State.startMul_tri_g (m : MulOp) : (s.startMul m).tri.g = s.tri.g := rfl
@[simp] theorem State.startMul_tri_f (m : MulOp) : (s.startMul m).tri.f = s.tri.f := rfl
@[simp] theorem State.startMul_tri_v (m : MulOp) : (s.startMul m).tri.v = s.tri.v := rfl
@[simp] theorem State.startMul_tri_p (m : MulOp) : (s.startMul m).tri.p = s.tri.p := rfl
@[simp] theorem State.startMul_tri_fcsr (m : MulOp) : (s.startMul m).tri.fcsr = s.tri.fcsr := rfl
@[simp] theorem State.startMul_tri_ev (m : MulOp) : (s.startMul m).tri.ev = s.tri.ev := rfl
@[simp] theorem State.startMul_tri_sp (m : MulOp) : (s.startMul m).tri.sp = s.tri.sp := rfl
@[simp] theorem State.startMul_tri_clk (m : MulOp) : (s.startMul m).tri.clk = s.tri.clk := rfl
@[simp] theorem State.startMul_tri_skew (m : MulOp) : (s.startMul m).tri.skew = s.tri.skew := rfl
@[simp] theorem State.startMul_tri_insn (m : MulOp) : (s.startMul m).tri.insn = s.tri.insn := rfl
@[simp] theorem State.startMul_tri_ctLast (m : MulOp) : (s.startMul m).tri.ctLast = s.tri.ctLast := rfl
@[simp] theorem State.startMul_tri_c (m : MulOp) : (s.startMul m).tri.c = s.tri.c := rfl
@[simp] theorem State.startMul_tri_fcap (m : MulOp) : (s.startMul m).tri.fcap = s.tri.fcap := rfl
@[simp] theorem State.startMul_tri_ge (m : MulOp) : (s.startMul m).tri.ge = s.tri.ge := rfl
@[simp] theorem State.startMul_tri_geUsed (m : MulOp) : (s.startMul m).tri.geUsed = s.tri.geUsed := rfl
@[simp] theorem State.startMul_tri_htb (m : MulOp) : (s.startMul m).tri.htb = s.tri.htb := rfl
@[simp] theorem State.startMul_tri_esb (m : MulOp) : (s.startMul m).tri.esb = s.tri.esb := rfl
@[simp] theorem State.startMul_tri_ml (m : MulOp) : (s.startMul m).tri.ml = s.tri.ml := rfl
@[simp] theorem State.startMul_tri_htbUsed (m : MulOp) : (s.startMul m).tri.htbUsed = s.tri.htbUsed := rfl
@[simp] theorem State.startMul_tri_esbUsed (m : MulOp) : (s.startMul m).tri.esbUsed = s.tri.esbUsed := rfl
@[simp] theorem State.startMul_tri_mlUsed (m : MulOp) : (s.startMul m).tri.mlUsed = s.tri.mlUsed := rfl
@[simp] theorem State.startMul_tri_fcause (m : MulOp) : (s.startMul m).tri.fcause = s.tri.fcause := rfl
@[simp] theorem State.startMul_tri_faddr (m : MulOp) : (s.startMul m).tri.faddr = s.tri.faddr := rfl
@[simp] theorem State.startMul_tri_eprW (m : MulOp) : (s.startMul m).tri.eprW = s.tri.eprW := rfl
@[simp] theorem State.startMul_tri_epr (m : MulOp) : (s.startMul m).tri.epr = s.tri.epr := rfl
@[simp] theorem State.startMul_tri_eprUsed (m : MulOp) : (s.startMul m).tri.eprUsed = s.tri.eprUsed := rfl
@[simp] theorem State.startMul_tri_waiting (m : MulOp) : (s.startMul m).tri.waiting = s.tri.waiting := rfl
@[simp] theorem State.startMul_tri_remapUsed (m : MulOp) : (s.startMul m).tri.remapUsed = s.tri.remapUsed := rfl
@[simp] theorem State.startMul_tri_holdOvr (m : MulOp) : (s.startMul m).tri.holdOvr = s.tri.holdOvr := rfl
@[simp] theorem State.startMul_tri_epx (m : MulOp) : (s.startMul m).tri.epx = s.tri.epx := rfl
@[simp] theorem State.startMul_tri_actl (m : MulOp) : (s.startMul m).tri.actl = s.tri.actl := rfl
@[simp] theorem State.startMul_tri_comp (m : MulOp) : (s.startMul m).tri.comp = s.tri.comp := rfl
@[simp] theorem State.startMul_tri_hold (m : MulOp) : (s.startMul m).tri.hold = s.tri.hold := rfl
@[simp] theorem State.startMul_tri_stack (m : MulOp) : (s.startMul m).tri.stack = s.tri.stack := rfl
@[simp] theorem State.startMul_tri_entered (m : MulOp) : (s.startMul m).tri.entered = s.tri.entered := rfl
@[simp] theorem State.startMul_tri_wait (m : MulOp) : (s.startMul m).tri.wait = s.tri.wait := rfl
@[simp] theorem State.startMul_tri_rpt (m : MulOp) : (s.startMul m).tri.rpt = s.tri.rpt := rfl

@[simp] theorem State.raise_tri_pc (fl : Nat) : (s.raise fl).tri.pc = s.tri.pc := rfl
@[simp] theorem State.raise_tri_slot (fl : Nat) : (s.raise fl).tri.slot = s.tri.slot := rfl
@[simp] theorem State.raise_tri_g (fl : Nat) : (s.raise fl).tri.g = s.tri.g := rfl
@[simp] theorem State.raise_tri_f (fl : Nat) : (s.raise fl).tri.f = s.tri.f := rfl
@[simp] theorem State.raise_tri_v (fl : Nat) : (s.raise fl).tri.v = s.tri.v := rfl
@[simp] theorem State.raise_tri_p (fl : Nat) : (s.raise fl).tri.p = s.tri.p := rfl
@[simp] theorem State.raise_tri_ev (fl : Nat) : (s.raise fl).tri.ev = s.tri.ev := rfl
@[simp] theorem State.raise_tri_sp (fl : Nat) : (s.raise fl).tri.sp = s.tri.sp := rfl
@[simp] theorem State.raise_tri_mul (fl : Nat) : (s.raise fl).tri.mul = s.tri.mul := rfl
@[simp] theorem State.raise_tri_clk (fl : Nat) : (s.raise fl).tri.clk = s.tri.clk := rfl
@[simp] theorem State.raise_tri_skew (fl : Nat) : (s.raise fl).tri.skew = s.tri.skew := rfl
@[simp] theorem State.raise_tri_insn (fl : Nat) : (s.raise fl).tri.insn = s.tri.insn := rfl
@[simp] theorem State.raise_tri_ctLast (fl : Nat) : (s.raise fl).tri.ctLast = s.tri.ctLast := rfl
@[simp] theorem State.raise_tri_c (fl : Nat) : (s.raise fl).tri.c = s.tri.c := rfl
@[simp] theorem State.raise_tri_fcap (fl : Nat) : (s.raise fl).tri.fcap = s.tri.fcap := rfl
@[simp] theorem State.raise_tri_ge (fl : Nat) : (s.raise fl).tri.ge = s.tri.ge := rfl
@[simp] theorem State.raise_tri_geUsed (fl : Nat) : (s.raise fl).tri.geUsed = s.tri.geUsed := rfl
@[simp] theorem State.raise_tri_htb (fl : Nat) : (s.raise fl).tri.htb = s.tri.htb := rfl
@[simp] theorem State.raise_tri_esb (fl : Nat) : (s.raise fl).tri.esb = s.tri.esb := rfl
@[simp] theorem State.raise_tri_ml (fl : Nat) : (s.raise fl).tri.ml = s.tri.ml := rfl
@[simp] theorem State.raise_tri_htbUsed (fl : Nat) : (s.raise fl).tri.htbUsed = s.tri.htbUsed := rfl
@[simp] theorem State.raise_tri_esbUsed (fl : Nat) : (s.raise fl).tri.esbUsed = s.tri.esbUsed := rfl
@[simp] theorem State.raise_tri_mlUsed (fl : Nat) : (s.raise fl).tri.mlUsed = s.tri.mlUsed := rfl
@[simp] theorem State.raise_tri_fcause (fl : Nat) : (s.raise fl).tri.fcause = s.tri.fcause := rfl
@[simp] theorem State.raise_tri_faddr (fl : Nat) : (s.raise fl).tri.faddr = s.tri.faddr := rfl
@[simp] theorem State.raise_tri_eprW (fl : Nat) : (s.raise fl).tri.eprW = s.tri.eprW := rfl
@[simp] theorem State.raise_tri_epr (fl : Nat) : (s.raise fl).tri.epr = s.tri.epr := rfl
@[simp] theorem State.raise_tri_eprUsed (fl : Nat) : (s.raise fl).tri.eprUsed = s.tri.eprUsed := rfl
@[simp] theorem State.raise_tri_waiting (fl : Nat) : (s.raise fl).tri.waiting = s.tri.waiting := rfl
@[simp] theorem State.raise_tri_remapUsed (fl : Nat) : (s.raise fl).tri.remapUsed = s.tri.remapUsed := rfl
@[simp] theorem State.raise_tri_holdOvr (fl : Nat) : (s.raise fl).tri.holdOvr = s.tri.holdOvr := rfl
@[simp] theorem State.raise_tri_epx (fl : Nat) : (s.raise fl).tri.epx = s.tri.epx := rfl
@[simp] theorem State.raise_tri_actl (fl : Nat) : (s.raise fl).tri.actl = s.tri.actl := rfl
@[simp] theorem State.raise_tri_comp (fl : Nat) : (s.raise fl).tri.comp = s.tri.comp := rfl
@[simp] theorem State.raise_tri_hold (fl : Nat) : (s.raise fl).tri.hold = s.tri.hold := rfl
@[simp] theorem State.raise_tri_stack (fl : Nat) : (s.raise fl).tri.stack = s.tri.stack := rfl
@[simp] theorem State.raise_tri_entered (fl : Nat) : (s.raise fl).tri.entered = s.tri.entered := rfl
@[simp] theorem State.raise_tri_wait (fl : Nat) : (s.raise fl).tri.wait = s.tri.wait := rfl
@[simp] theorem State.raise_tri_rpt (fl : Nat) : (s.raise fl).tri.rpt = s.tri.rpt := rfl

@[simp] theorem State.setG_tri_pc (r : Nat) (v : Word) : (s.setG r v).tri.pc = s.tri.pc := by unfold State.setG; split <;> rfl
@[simp] theorem State.setG_tri_slot (r : Nat) (v : Word) : (s.setG r v).tri.slot = s.tri.slot := by unfold State.setG; split <;> rfl
@[simp] theorem State.setG_tri_f (r : Nat) (v : Word) : (s.setG r v).tri.f = s.tri.f := by unfold State.setG; split <;> rfl
@[simp] theorem State.setG_tri_v (r : Nat) (v : Word) : (s.setG r v).tri.v = s.tri.v := by unfold State.setG; split <;> rfl
@[simp] theorem State.setG_tri_p (r : Nat) (v : Word) : (s.setG r v).tri.p = s.tri.p := by unfold State.setG; split <;> rfl
@[simp] theorem State.setG_tri_fcsr (r : Nat) (v : Word) : (s.setG r v).tri.fcsr = s.tri.fcsr := by unfold State.setG; split <;> rfl
@[simp] theorem State.setG_tri_ev (r : Nat) (v : Word) : (s.setG r v).tri.ev = s.tri.ev := by unfold State.setG; split <;> rfl
@[simp] theorem State.setG_tri_sp (r : Nat) (v : Word) : (s.setG r v).tri.sp = s.tri.sp := by unfold State.setG; split <;> rfl
@[simp] theorem State.setG_tri_mul (r : Nat) (v : Word) : (s.setG r v).tri.mul = s.tri.mul := by unfold State.setG; split <;> rfl
@[simp] theorem State.setG_tri_clk (r : Nat) (v : Word) : (s.setG r v).tri.clk = s.tri.clk := by unfold State.setG; split <;> rfl
@[simp] theorem State.setG_tri_skew (r : Nat) (v : Word) : (s.setG r v).tri.skew = s.tri.skew := by unfold State.setG; split <;> rfl
@[simp] theorem State.setG_tri_insn (r : Nat) (v : Word) : (s.setG r v).tri.insn = s.tri.insn := by unfold State.setG; split <;> rfl
@[simp] theorem State.setG_tri_ctLast (r : Nat) (v : Word) : (s.setG r v).tri.ctLast = s.tri.ctLast := by unfold State.setG; split <;> rfl
@[simp] theorem State.setG_tri_c (r : Nat) (v : Word) : (s.setG r v).tri.c = s.tri.c := by unfold State.setG; split <;> rfl
@[simp] theorem State.setG_tri_fcap (r : Nat) (v : Word) : (s.setG r v).tri.fcap = s.tri.fcap := by unfold State.setG; split <;> rfl
@[simp] theorem State.setG_tri_ge (r : Nat) (v : Word) : (s.setG r v).tri.ge = s.tri.ge := by unfold State.setG; split <;> rfl
@[simp] theorem State.setG_tri_geUsed (r : Nat) (v : Word) : (s.setG r v).tri.geUsed = s.tri.geUsed := by unfold State.setG; split <;> rfl
@[simp] theorem State.setG_tri_htb (r : Nat) (v : Word) : (s.setG r v).tri.htb = s.tri.htb := by unfold State.setG; split <;> rfl
@[simp] theorem State.setG_tri_esb (r : Nat) (v : Word) : (s.setG r v).tri.esb = s.tri.esb := by unfold State.setG; split <;> rfl
@[simp] theorem State.setG_tri_ml (r : Nat) (v : Word) : (s.setG r v).tri.ml = s.tri.ml := by unfold State.setG; split <;> rfl
@[simp] theorem State.setG_tri_htbUsed (r : Nat) (v : Word) : (s.setG r v).tri.htbUsed = s.tri.htbUsed := by unfold State.setG; split <;> rfl
@[simp] theorem State.setG_tri_esbUsed (r : Nat) (v : Word) : (s.setG r v).tri.esbUsed = s.tri.esbUsed := by unfold State.setG; split <;> rfl
@[simp] theorem State.setG_tri_mlUsed (r : Nat) (v : Word) : (s.setG r v).tri.mlUsed = s.tri.mlUsed := by unfold State.setG; split <;> rfl
@[simp] theorem State.setG_tri_fcause (r : Nat) (v : Word) : (s.setG r v).tri.fcause = s.tri.fcause := by unfold State.setG; split <;> rfl
@[simp] theorem State.setG_tri_faddr (r : Nat) (v : Word) : (s.setG r v).tri.faddr = s.tri.faddr := by unfold State.setG; split <;> rfl
@[simp] theorem State.setG_tri_eprW (r : Nat) (v : Word) : (s.setG r v).tri.eprW = s.tri.eprW := by unfold State.setG; split <;> rfl
@[simp] theorem State.setG_tri_epr (r : Nat) (v : Word) : (s.setG r v).tri.epr = s.tri.epr := by unfold State.setG; split <;> rfl
@[simp] theorem State.setG_tri_eprUsed (r : Nat) (v : Word) : (s.setG r v).tri.eprUsed = s.tri.eprUsed := by unfold State.setG; split <;> rfl
@[simp] theorem State.setG_tri_waiting (r : Nat) (v : Word) : (s.setG r v).tri.waiting = s.tri.waiting := by unfold State.setG; split <;> rfl
@[simp] theorem State.setG_tri_remapUsed (r : Nat) (v : Word) : (s.setG r v).tri.remapUsed = s.tri.remapUsed := by unfold State.setG; split <;> rfl
@[simp] theorem State.setG_tri_holdOvr (r : Nat) (v : Word) : (s.setG r v).tri.holdOvr = s.tri.holdOvr := by unfold State.setG; split <;> rfl
@[simp] theorem State.setG_tri_epx (r : Nat) (v : Word) : (s.setG r v).tri.epx = s.tri.epx := by unfold State.setG; split <;> rfl
@[simp] theorem State.setG_tri_actl (r : Nat) (v : Word) : (s.setG r v).tri.actl = s.tri.actl := by unfold State.setG; split <;> rfl
@[simp] theorem State.setG_tri_comp (r : Nat) (v : Word) : (s.setG r v).tri.comp = s.tri.comp := by unfold State.setG; split <;> rfl
@[simp] theorem State.setG_tri_hold (r : Nat) (v : Word) : (s.setG r v).tri.hold = s.tri.hold := by unfold State.setG; split <;> rfl
@[simp] theorem State.setG_tri_stack (r : Nat) (v : Word) : (s.setG r v).tri.stack = s.tri.stack := by unfold State.setG; split <;> rfl
@[simp] theorem State.setG_tri_entered (r : Nat) (v : Word) : (s.setG r v).tri.entered = s.tri.entered := by unfold State.setG; split <;> rfl
@[simp] theorem State.setG_tri_wait (r : Nat) (v : Word) : (s.setG r v).tri.wait = s.tri.wait := by unfold State.setG; split <;> rfl
@[simp] theorem State.setG_tri_rpt (r : Nat) (v : Word) : (s.setG r v).tri.rpt = s.tri.rpt := by unfold State.setG; split <;> rfl

@[simp] theorem State.setP_tri_pc (r : Nat) (v : Word) : (s.setP r v).tri.pc = s.tri.pc := by unfold State.setP; split <;> rfl
@[simp] theorem State.setP_tri_slot (r : Nat) (v : Word) : (s.setP r v).tri.slot = s.tri.slot := by unfold State.setP; split <;> rfl
@[simp] theorem State.setP_tri_g (r : Nat) (v : Word) : (s.setP r v).tri.g = s.tri.g := by unfold State.setP; split <;> rfl
@[simp] theorem State.setP_tri_f (r : Nat) (v : Word) : (s.setP r v).tri.f = s.tri.f := by unfold State.setP; split <;> rfl
@[simp] theorem State.setP_tri_v (r : Nat) (v : Word) : (s.setP r v).tri.v = s.tri.v := by unfold State.setP; split <;> rfl
@[simp] theorem State.setP_tri_fcsr (r : Nat) (v : Word) : (s.setP r v).tri.fcsr = s.tri.fcsr := by unfold State.setP; split <;> rfl
@[simp] theorem State.setP_tri_ev (r : Nat) (v : Word) : (s.setP r v).tri.ev = s.tri.ev := by unfold State.setP; split <;> rfl
@[simp] theorem State.setP_tri_sp (r : Nat) (v : Word) : (s.setP r v).tri.sp = s.tri.sp := by unfold State.setP; split <;> rfl
@[simp] theorem State.setP_tri_mul (r : Nat) (v : Word) : (s.setP r v).tri.mul = s.tri.mul := by unfold State.setP; split <;> rfl
@[simp] theorem State.setP_tri_clk (r : Nat) (v : Word) : (s.setP r v).tri.clk = s.tri.clk := by unfold State.setP; split <;> rfl
@[simp] theorem State.setP_tri_skew (r : Nat) (v : Word) : (s.setP r v).tri.skew = s.tri.skew := by unfold State.setP; split <;> rfl
@[simp] theorem State.setP_tri_insn (r : Nat) (v : Word) : (s.setP r v).tri.insn = s.tri.insn := by unfold State.setP; split <;> rfl
@[simp] theorem State.setP_tri_ctLast (r : Nat) (v : Word) : (s.setP r v).tri.ctLast = s.tri.ctLast := by unfold State.setP; split <;> rfl
@[simp] theorem State.setP_tri_c (r : Nat) (v : Word) : (s.setP r v).tri.c = s.tri.c := by unfold State.setP; split <;> rfl
@[simp] theorem State.setP_tri_fcap (r : Nat) (v : Word) : (s.setP r v).tri.fcap = s.tri.fcap := by unfold State.setP; split <;> rfl
@[simp] theorem State.setP_tri_ge (r : Nat) (v : Word) : (s.setP r v).tri.ge = s.tri.ge := by unfold State.setP; split <;> rfl
@[simp] theorem State.setP_tri_geUsed (r : Nat) (v : Word) : (s.setP r v).tri.geUsed = s.tri.geUsed := by unfold State.setP; split <;> rfl
@[simp] theorem State.setP_tri_htb (r : Nat) (v : Word) : (s.setP r v).tri.htb = s.tri.htb := by unfold State.setP; split <;> rfl
@[simp] theorem State.setP_tri_esb (r : Nat) (v : Word) : (s.setP r v).tri.esb = s.tri.esb := by unfold State.setP; split <;> rfl
@[simp] theorem State.setP_tri_ml (r : Nat) (v : Word) : (s.setP r v).tri.ml = s.tri.ml := by unfold State.setP; split <;> rfl
@[simp] theorem State.setP_tri_htbUsed (r : Nat) (v : Word) : (s.setP r v).tri.htbUsed = s.tri.htbUsed := by unfold State.setP; split <;> rfl
@[simp] theorem State.setP_tri_esbUsed (r : Nat) (v : Word) : (s.setP r v).tri.esbUsed = s.tri.esbUsed := by unfold State.setP; split <;> rfl
@[simp] theorem State.setP_tri_mlUsed (r : Nat) (v : Word) : (s.setP r v).tri.mlUsed = s.tri.mlUsed := by unfold State.setP; split <;> rfl
@[simp] theorem State.setP_tri_fcause (r : Nat) (v : Word) : (s.setP r v).tri.fcause = s.tri.fcause := by unfold State.setP; split <;> rfl
@[simp] theorem State.setP_tri_faddr (r : Nat) (v : Word) : (s.setP r v).tri.faddr = s.tri.faddr := by unfold State.setP; split <;> rfl
@[simp] theorem State.setP_tri_eprW (r : Nat) (v : Word) : (s.setP r v).tri.eprW = s.tri.eprW := by unfold State.setP; split <;> rfl
@[simp] theorem State.setP_tri_epr (r : Nat) (v : Word) : (s.setP r v).tri.epr = s.tri.epr := by unfold State.setP; split <;> rfl
@[simp] theorem State.setP_tri_eprUsed (r : Nat) (v : Word) : (s.setP r v).tri.eprUsed = s.tri.eprUsed := by unfold State.setP; split <;> rfl
@[simp] theorem State.setP_tri_waiting (r : Nat) (v : Word) : (s.setP r v).tri.waiting = s.tri.waiting := by unfold State.setP; split <;> rfl
@[simp] theorem State.setP_tri_remapUsed (r : Nat) (v : Word) : (s.setP r v).tri.remapUsed = s.tri.remapUsed := by unfold State.setP; split <;> rfl
@[simp] theorem State.setP_tri_holdOvr (r : Nat) (v : Word) : (s.setP r v).tri.holdOvr = s.tri.holdOvr := by unfold State.setP; split <;> rfl
@[simp] theorem State.setP_tri_epx (r : Nat) (v : Word) : (s.setP r v).tri.epx = s.tri.epx := by unfold State.setP; split <;> rfl
@[simp] theorem State.setP_tri_actl (r : Nat) (v : Word) : (s.setP r v).tri.actl = s.tri.actl := by unfold State.setP; split <;> rfl
@[simp] theorem State.setP_tri_comp (r : Nat) (v : Word) : (s.setP r v).tri.comp = s.tri.comp := by unfold State.setP; split <;> rfl
@[simp] theorem State.setP_tri_hold (r : Nat) (v : Word) : (s.setP r v).tri.hold = s.tri.hold := by unfold State.setP; split <;> rfl
@[simp] theorem State.setP_tri_stack (r : Nat) (v : Word) : (s.setP r v).tri.stack = s.tri.stack := by unfold State.setP; split <;> rfl
@[simp] theorem State.setP_tri_entered (r : Nat) (v : Word) : (s.setP r v).tri.entered = s.tri.entered := by unfold State.setP; split <;> rfl
@[simp] theorem State.setP_tri_wait (r : Nat) (v : Word) : (s.setP r v).tri.wait = s.tri.wait := by unfold State.setP; split <;> rfl
@[simp] theorem State.setP_tri_rpt (r : Nat) (v : Word) : (s.setP r v).tri.rpt = s.tri.rpt := by unfold State.setP; split <;> rfl

@[simp] theorem State.raiseSat_tri_pc (b : Bool) : (s.raiseSat b).tri.pc = s.tri.pc := by unfold State.raiseSat; split <;> rfl
@[simp] theorem State.raiseSat_tri_slot (b : Bool) : (s.raiseSat b).tri.slot = s.tri.slot := by unfold State.raiseSat; split <;> rfl
@[simp] theorem State.raiseSat_tri_g (b : Bool) : (s.raiseSat b).tri.g = s.tri.g := by unfold State.raiseSat; split <;> rfl
@[simp] theorem State.raiseSat_tri_f (b : Bool) : (s.raiseSat b).tri.f = s.tri.f := by unfold State.raiseSat; split <;> rfl
@[simp] theorem State.raiseSat_tri_v (b : Bool) : (s.raiseSat b).tri.v = s.tri.v := by unfold State.raiseSat; split <;> rfl
@[simp] theorem State.raiseSat_tri_p (b : Bool) : (s.raiseSat b).tri.p = s.tri.p := by unfold State.raiseSat; split <;> rfl
@[simp] theorem State.raiseSat_tri_ev (b : Bool) : (s.raiseSat b).tri.ev = s.tri.ev := by unfold State.raiseSat; split <;> rfl
@[simp] theorem State.raiseSat_tri_sp (b : Bool) : (s.raiseSat b).tri.sp = s.tri.sp := by unfold State.raiseSat; split <;> rfl
@[simp] theorem State.raiseSat_tri_mul (b : Bool) : (s.raiseSat b).tri.mul = s.tri.mul := by unfold State.raiseSat; split <;> rfl
@[simp] theorem State.raiseSat_tri_clk (b : Bool) : (s.raiseSat b).tri.clk = s.tri.clk := by unfold State.raiseSat; split <;> rfl
@[simp] theorem State.raiseSat_tri_skew (b : Bool) : (s.raiseSat b).tri.skew = s.tri.skew := by unfold State.raiseSat; split <;> rfl
@[simp] theorem State.raiseSat_tri_insn (b : Bool) : (s.raiseSat b).tri.insn = s.tri.insn := by unfold State.raiseSat; split <;> rfl
@[simp] theorem State.raiseSat_tri_ctLast (b : Bool) : (s.raiseSat b).tri.ctLast = s.tri.ctLast := by unfold State.raiseSat; split <;> rfl
@[simp] theorem State.raiseSat_tri_c (b : Bool) : (s.raiseSat b).tri.c = s.tri.c := by unfold State.raiseSat; split <;> rfl
@[simp] theorem State.raiseSat_tri_fcap (b : Bool) : (s.raiseSat b).tri.fcap = s.tri.fcap := by unfold State.raiseSat; split <;> rfl
@[simp] theorem State.raiseSat_tri_ge (b : Bool) : (s.raiseSat b).tri.ge = s.tri.ge := by unfold State.raiseSat; split <;> rfl
@[simp] theorem State.raiseSat_tri_geUsed (b : Bool) : (s.raiseSat b).tri.geUsed = s.tri.geUsed := by unfold State.raiseSat; split <;> rfl
@[simp] theorem State.raiseSat_tri_htb (b : Bool) : (s.raiseSat b).tri.htb = s.tri.htb := by unfold State.raiseSat; split <;> rfl
@[simp] theorem State.raiseSat_tri_esb (b : Bool) : (s.raiseSat b).tri.esb = s.tri.esb := by unfold State.raiseSat; split <;> rfl
@[simp] theorem State.raiseSat_tri_ml (b : Bool) : (s.raiseSat b).tri.ml = s.tri.ml := by unfold State.raiseSat; split <;> rfl
@[simp] theorem State.raiseSat_tri_htbUsed (b : Bool) : (s.raiseSat b).tri.htbUsed = s.tri.htbUsed := by unfold State.raiseSat; split <;> rfl
@[simp] theorem State.raiseSat_tri_esbUsed (b : Bool) : (s.raiseSat b).tri.esbUsed = s.tri.esbUsed := by unfold State.raiseSat; split <;> rfl
@[simp] theorem State.raiseSat_tri_mlUsed (b : Bool) : (s.raiseSat b).tri.mlUsed = s.tri.mlUsed := by unfold State.raiseSat; split <;> rfl
@[simp] theorem State.raiseSat_tri_fcause (b : Bool) : (s.raiseSat b).tri.fcause = s.tri.fcause := by unfold State.raiseSat; split <;> rfl
@[simp] theorem State.raiseSat_tri_faddr (b : Bool) : (s.raiseSat b).tri.faddr = s.tri.faddr := by unfold State.raiseSat; split <;> rfl
@[simp] theorem State.raiseSat_tri_eprW (b : Bool) : (s.raiseSat b).tri.eprW = s.tri.eprW := by unfold State.raiseSat; split <;> rfl
@[simp] theorem State.raiseSat_tri_epr (b : Bool) : (s.raiseSat b).tri.epr = s.tri.epr := by unfold State.raiseSat; split <;> rfl
@[simp] theorem State.raiseSat_tri_eprUsed (b : Bool) : (s.raiseSat b).tri.eprUsed = s.tri.eprUsed := by unfold State.raiseSat; split <;> rfl
@[simp] theorem State.raiseSat_tri_waiting (b : Bool) : (s.raiseSat b).tri.waiting = s.tri.waiting := by unfold State.raiseSat; split <;> rfl
@[simp] theorem State.raiseSat_tri_remapUsed (b : Bool) : (s.raiseSat b).tri.remapUsed = s.tri.remapUsed := by unfold State.raiseSat; split <;> rfl
@[simp] theorem State.raiseSat_tri_holdOvr (b : Bool) : (s.raiseSat b).tri.holdOvr = s.tri.holdOvr := by unfold State.raiseSat; split <;> rfl
@[simp] theorem State.raiseSat_tri_epx (b : Bool) : (s.raiseSat b).tri.epx = s.tri.epx := by unfold State.raiseSat; split <;> rfl
@[simp] theorem State.raiseSat_tri_actl (b : Bool) : (s.raiseSat b).tri.actl = s.tri.actl := by unfold State.raiseSat; split <;> rfl
@[simp] theorem State.raiseSat_tri_comp (b : Bool) : (s.raiseSat b).tri.comp = s.tri.comp := by unfold State.raiseSat; split <;> rfl
@[simp] theorem State.raiseSat_tri_hold (b : Bool) : (s.raiseSat b).tri.hold = s.tri.hold := by unfold State.raiseSat; split <;> rfl
@[simp] theorem State.raiseSat_tri_stack (b : Bool) : (s.raiseSat b).tri.stack = s.tri.stack := by unfold State.raiseSat; split <;> rfl
@[simp] theorem State.raiseSat_tri_entered (b : Bool) : (s.raiseSat b).tri.entered = s.tri.entered := by unfold State.raiseSat; split <;> rfl
@[simp] theorem State.raiseSat_tri_wait (b : Bool) : (s.raiseSat b).tri.wait = s.tri.wait := by unfold State.raiseSat; split <;> rfl
@[simp] theorem State.raiseSat_tri_rpt (b : Bool) : (s.raiseSat b).tri.rpt = s.tri.rpt := by unfold State.raiseSat; split <;> rfl

@[simp] theorem State.setGN_tri_pc (r v : Nat) : (s.setGN r v).tri.pc = s.tri.pc := by simp [State.setGN]
@[simp] theorem State.setGN_tri_slot (r v : Nat) : (s.setGN r v).tri.slot = s.tri.slot := by simp [State.setGN]
@[simp] theorem State.setGN_tri_f (r v : Nat) : (s.setGN r v).tri.f = s.tri.f := by simp [State.setGN]
@[simp] theorem State.setGN_tri_v (r v : Nat) : (s.setGN r v).tri.v = s.tri.v := by simp [State.setGN]
@[simp] theorem State.setGN_tri_p (r v : Nat) : (s.setGN r v).tri.p = s.tri.p := by simp [State.setGN]
@[simp] theorem State.setGN_tri_fcsr (r v : Nat) : (s.setGN r v).tri.fcsr = s.tri.fcsr := by simp [State.setGN]
@[simp] theorem State.setGN_tri_ev (r v : Nat) : (s.setGN r v).tri.ev = s.tri.ev := by simp [State.setGN]
@[simp] theorem State.setGN_tri_sp (r v : Nat) : (s.setGN r v).tri.sp = s.tri.sp := by simp [State.setGN]
@[simp] theorem State.setGN_tri_mul (r v : Nat) : (s.setGN r v).tri.mul = s.tri.mul := by simp [State.setGN]
@[simp] theorem State.setGN_tri_clk (r v : Nat) : (s.setGN r v).tri.clk = s.tri.clk := by simp [State.setGN]
@[simp] theorem State.setGN_tri_skew (r v : Nat) : (s.setGN r v).tri.skew = s.tri.skew := by simp [State.setGN]
@[simp] theorem State.setGN_tri_insn (r v : Nat) : (s.setGN r v).tri.insn = s.tri.insn := by simp [State.setGN]
@[simp] theorem State.setGN_tri_ctLast (r v : Nat) : (s.setGN r v).tri.ctLast = s.tri.ctLast := by simp [State.setGN]
@[simp] theorem State.setGN_tri_c (r v : Nat) : (s.setGN r v).tri.c = s.tri.c := by simp [State.setGN]
@[simp] theorem State.setGN_tri_fcap (r v : Nat) : (s.setGN r v).tri.fcap = s.tri.fcap := by simp [State.setGN]
@[simp] theorem State.setGN_tri_ge (r v : Nat) : (s.setGN r v).tri.ge = s.tri.ge := by simp [State.setGN]
@[simp] theorem State.setGN_tri_geUsed (r v : Nat) : (s.setGN r v).tri.geUsed = s.tri.geUsed := by simp [State.setGN]
@[simp] theorem State.setGN_tri_htb (r v : Nat) : (s.setGN r v).tri.htb = s.tri.htb := by simp [State.setGN]
@[simp] theorem State.setGN_tri_esb (r v : Nat) : (s.setGN r v).tri.esb = s.tri.esb := by simp [State.setGN]
@[simp] theorem State.setGN_tri_ml (r v : Nat) : (s.setGN r v).tri.ml = s.tri.ml := by simp [State.setGN]
@[simp] theorem State.setGN_tri_htbUsed (r v : Nat) : (s.setGN r v).tri.htbUsed = s.tri.htbUsed := by simp [State.setGN]
@[simp] theorem State.setGN_tri_esbUsed (r v : Nat) : (s.setGN r v).tri.esbUsed = s.tri.esbUsed := by simp [State.setGN]
@[simp] theorem State.setGN_tri_mlUsed (r v : Nat) : (s.setGN r v).tri.mlUsed = s.tri.mlUsed := by simp [State.setGN]
@[simp] theorem State.setGN_tri_fcause (r v : Nat) : (s.setGN r v).tri.fcause = s.tri.fcause := by simp [State.setGN]
@[simp] theorem State.setGN_tri_faddr (r v : Nat) : (s.setGN r v).tri.faddr = s.tri.faddr := by simp [State.setGN]
@[simp] theorem State.setGN_tri_eprW (r v : Nat) : (s.setGN r v).tri.eprW = s.tri.eprW := by simp [State.setGN]
@[simp] theorem State.setGN_tri_epr (r v : Nat) : (s.setGN r v).tri.epr = s.tri.epr := by simp [State.setGN]
@[simp] theorem State.setGN_tri_eprUsed (r v : Nat) : (s.setGN r v).tri.eprUsed = s.tri.eprUsed := by simp [State.setGN]
@[simp] theorem State.setGN_tri_waiting (r v : Nat) : (s.setGN r v).tri.waiting = s.tri.waiting := by simp [State.setGN]
@[simp] theorem State.setGN_tri_remapUsed (r v : Nat) : (s.setGN r v).tri.remapUsed = s.tri.remapUsed := by simp [State.setGN]
@[simp] theorem State.setGN_tri_holdOvr (r v : Nat) : (s.setGN r v).tri.holdOvr = s.tri.holdOvr := by simp [State.setGN]
@[simp] theorem State.setGN_tri_epx (r v : Nat) : (s.setGN r v).tri.epx = s.tri.epx := by simp [State.setGN]
@[simp] theorem State.setGN_tri_actl (r v : Nat) : (s.setGN r v).tri.actl = s.tri.actl := by simp [State.setGN]
@[simp] theorem State.setGN_tri_comp (r v : Nat) : (s.setGN r v).tri.comp = s.tri.comp := by simp [State.setGN]
@[simp] theorem State.setGN_tri_hold (r v : Nat) : (s.setGN r v).tri.hold = s.tri.hold := by simp [State.setGN]
@[simp] theorem State.setGN_tri_stack (r v : Nat) : (s.setGN r v).tri.stack = s.tri.stack := by simp [State.setGN]
@[simp] theorem State.setGN_tri_entered (r v : Nat) : (s.setGN r v).tri.entered = s.tri.entered := by simp [State.setGN]
@[simp] theorem State.setGN_tri_wait (r v : Nat) : (s.setGN r v).tri.wait = s.tri.wait := by simp [State.setGN]
@[simp] theorem State.setGN_tri_rpt (r v : Nat) : (s.setGN r v).tri.rpt = s.tri.rpt := by simp [State.setGN]
/-- What the passing of time writes: chain time, the fabric counter's offset, Trifle's clock and the free values' count. -/
theorem State.pass_cases (d : Nat) : ∃ (x n c : Nat) (k o : Int),
    s.pass d = { s with time := x, free := n, tri.clk := c, tri.skew := k, chn.fabOff := o } := by
  unfold State.pass
  split
  · exact ⟨s.time, s.free, s.tri.clk, s.tri.skew, s.chn.fabOff, rfl⟩
  split
  · exact ⟨s.time, s.free, s.tri.clk, s.tri.skew, _, rfl⟩
  split
  · exact ⟨_, _, _, _, s.chn.fabOff, rfl⟩
  · exact ⟨_, s.free, s.tri.clk, s.tri.skew, s.chn.fabOff, rfl⟩

/-- What the passing of tc writes. -/
theorem State.clkPass_cases (d : Nat) : ∃ (x n c : Nat) (k : Int),
    s.clkPass d = { s with time := x, free := n, tri.clk := c, tri.skew := k } := by
  unfold State.clkPass
  split
  · exact ⟨s.time, s.free, s.tri.clk, s.tri.skew, rfl⟩
  · exact ⟨_, _, _, _, rfl⟩

@[simp] theorem State.pass_regs (d : Nat) : (s.pass d).regs = s.regs := by obtain ⟨_, _, _, _, _, h⟩ := s.pass_cases d; rw [h]
@[simp] theorem State.clkPass_regs (d : Nat) : (s.clkPass d).regs = s.regs := by obtain ⟨_, _, _, _, h⟩ := s.clkPass_cases d; rw [h]
@[simp] theorem State.pass_mem (d : Nat) : (s.pass d).mem = s.mem := by obtain ⟨_, _, _, _, _, h⟩ := s.pass_cases d; rw [h]
@[simp] theorem State.clkPass_mem (d : Nat) : (s.clkPass d).mem = s.mem := by obtain ⟨_, _, _, _, h⟩ := s.clkPass_cases d; rw [h]
@[simp] theorem State.pass_syn (d : Nat) : (s.pass d).syn = s.syn := by obtain ⟨_, _, _, _, _, h⟩ := s.pass_cases d; rw [h]
@[simp] theorem State.clkPass_syn (d : Nat) : (s.clkPass d).syn = s.syn := by obtain ⟨_, _, _, _, h⟩ := s.clkPass_cases d; rw [h]
@[simp] theorem State.pass_stuck (d : Nat) : (s.pass d).stuck = s.stuck := by obtain ⟨_, _, _, _, _, h⟩ := s.pass_cases d; rw [h]
@[simp] theorem State.clkPass_stuck (d : Nat) : (s.clkPass d).stuck = s.stuck := by obtain ⟨_, _, _, _, h⟩ := s.clkPass_cases d; rw [h]
@[simp] theorem State.pass_tags (d : Nat) : (s.pass d).tags = s.tags := by obtain ⟨_, _, _, _, _, h⟩ := s.pass_cases d; rw [h]
@[simp] theorem State.clkPass_tags (d : Nat) : (s.clkPass d).tags = s.tags := by obtain ⟨_, _, _, _, h⟩ := s.clkPass_cases d; rw [h]
@[simp] theorem State.pass_credit (d : Nat) : (s.pass d).credit = s.credit := by obtain ⟨_, _, _, _, _, h⟩ := s.pass_cases d; rw [h]
@[simp] theorem State.clkPass_credit (d : Nat) : (s.clkPass d).credit = s.credit := by obtain ⟨_, _, _, _, h⟩ := s.clkPass_cases d; rw [h]
@[simp] theorem State.pass_xw (d : Nat) : (s.pass d).xw = s.xw := by obtain ⟨_, _, _, _, _, h⟩ := s.pass_cases d; rw [h]
@[simp] theorem State.clkPass_xw (d : Nat) : (s.clkPass d).xw = s.xw := by obtain ⟨_, _, _, _, h⟩ := s.clkPass_cases d; rw [h]
@[simp] theorem State.pass_resp (d : Nat) : (s.pass d).resp = s.resp := by obtain ⟨_, _, _, _, _, h⟩ := s.pass_cases d; rw [h]
@[simp] theorem State.clkPass_resp (d : Nat) : (s.clkPass d).resp = s.resp := by obtain ⟨_, _, _, _, h⟩ := s.clkPass_cases d; rw [h]
@[simp] theorem State.pass_out (d : Nat) : (s.pass d).out = s.out := by obtain ⟨_, _, _, _, _, h⟩ := s.pass_cases d; rw [h]
@[simp] theorem State.clkPass_out (d : Nat) : (s.clkPass d).out = s.out := by obtain ⟨_, _, _, _, h⟩ := s.clkPass_cases d; rw [h]
@[simp] theorem State.pass_bulk (d : Nat) : (s.pass d).bulk = s.bulk := by obtain ⟨_, _, _, _, _, h⟩ := s.pass_cases d; rw [h]
@[simp] theorem State.clkPass_bulk (d : Nat) : (s.clkPass d).bulk = s.bulk := by obtain ⟨_, _, _, _, h⟩ := s.clkPass_cases d; rw [h]
@[simp] theorem State.pass_lat (d : Nat) : (s.pass d).lat = s.lat := by obtain ⟨_, _, _, _, _, h⟩ := s.pass_cases d; rw [h]
@[simp] theorem State.clkPass_lat (d : Nat) : (s.clkPass d).lat = s.lat := by obtain ⟨_, _, _, _, h⟩ := s.clkPass_cases d; rw [h]
@[simp] theorem State.pass_rib (d : Nat) : (s.pass d).rib = s.rib := by obtain ⟨_, _, _, _, _, h⟩ := s.pass_cases d; rw [h]
@[simp] theorem State.clkPass_rib (d : Nat) : (s.clkPass d).rib = s.rib := by obtain ⟨_, _, _, _, h⟩ := s.clkPass_cases d; rw [h]
@[simp] theorem State.pass_sch (d : Nat) : (s.pass d).sch = s.sch := by obtain ⟨_, _, _, _, _, h⟩ := s.pass_cases d; rw [h]
@[simp] theorem State.clkPass_sch (d : Nat) : (s.clkPass d).sch = s.sch := by obtain ⟨_, _, _, _, h⟩ := s.clkPass_cases d; rw [h]
@[simp] theorem State.pass_rcv (d : Nat) : (s.pass d).rcv = s.rcv := by obtain ⟨_, _, _, _, _, h⟩ := s.pass_cases d; rw [h]
@[simp] theorem State.clkPass_rcv (d : Nat) : (s.clkPass d).rcv = s.rcv := by obtain ⟨_, _, _, _, h⟩ := s.clkPass_cases d; rw [h]
@[simp] theorem State.pass_icu (d : Nat) : (s.pass d).icu = s.icu := by obtain ⟨_, _, _, _, _, h⟩ := s.pass_cases d; rw [h]
@[simp] theorem State.clkPass_icu (d : Nat) : (s.clkPass d).icu = s.icu := by obtain ⟨_, _, _, _, h⟩ := s.clkPass_cases d; rw [h]
@[simp] theorem State.pass_que (d : Nat) : (s.pass d).que = s.que := by obtain ⟨_, _, _, _, _, h⟩ := s.pass_cases d; rw [h]
@[simp] theorem State.clkPass_que (d : Nat) : (s.clkPass d).que = s.que := by obtain ⟨_, _, _, _, h⟩ := s.clkPass_cases d; rw [h]
@[simp] theorem State.pass_fld (d : Nat) : (s.pass d).fld = s.fld := by obtain ⟨_, _, _, _, _, h⟩ := s.pass_cases d; rw [h]
@[simp] theorem State.clkPass_fld (d : Nat) : (s.clkPass d).fld = s.fld := by obtain ⟨_, _, _, _, h⟩ := s.clkPass_cases d; rw [h]
@[simp] theorem State.pass_mv (d : Nat) : (s.pass d).mv = s.mv := by obtain ⟨_, _, _, _, _, h⟩ := s.pass_cases d; rw [h]
@[simp] theorem State.clkPass_mv (d : Nat) : (s.clkPass d).mv = s.mv := by obtain ⟨_, _, _, _, h⟩ := s.clkPass_cases d; rw [h]
@[simp] theorem State.pass_cam (d : Nat) : (s.pass d).cam = s.cam := by obtain ⟨_, _, _, _, _, h⟩ := s.pass_cases d; rw [h]
@[simp] theorem State.clkPass_cam (d : Nat) : (s.clkPass d).cam = s.cam := by obtain ⟨_, _, _, _, h⟩ := s.clkPass_cases d; rw [h]
@[simp] theorem State.clkPass_chn (d : Nat) : (s.clkPass d).chn = s.chn := by obtain ⟨_, _, _, _, h⟩ := s.clkPass_cases d; rw [h]
@[simp] theorem State.pass_arc (d : Nat) : (s.pass d).arc = s.arc := by obtain ⟨_, _, _, _, _, h⟩ := s.pass_cases d; rw [h]
@[simp] theorem State.clkPass_arc (d : Nat) : (s.clkPass d).arc = s.arc := by obtain ⟨_, _, _, _, h⟩ := s.clkPass_cases d; rw [h]
@[simp] theorem State.pass_pwr (d : Nat) : (s.pass d).pwr = s.pwr := by obtain ⟨_, _, _, _, _, h⟩ := s.pass_cases d; rw [h]
@[simp] theorem State.clkPass_pwr (d : Nat) : (s.clkPass d).pwr = s.pwr := by obtain ⟨_, _, _, _, h⟩ := s.clkPass_cases d; rw [h]
@[simp] theorem State.pass_sec (d : Nat) : (s.pass d).sec = s.sec := by obtain ⟨_, _, _, _, _, h⟩ := s.pass_cases d; rw [h]
@[simp] theorem State.clkPass_sec (d : Nat) : (s.clkPass d).sec = s.sec := by obtain ⟨_, _, _, _, h⟩ := s.clkPass_cases d; rw [h]
@[simp] theorem State.pass_dbg (d : Nat) : (s.pass d).dbg = s.dbg := by obtain ⟨_, _, _, _, _, h⟩ := s.pass_cases d; rw [h]
@[simp] theorem State.clkPass_dbg (d : Nat) : (s.clkPass d).dbg = s.dbg := by obtain ⟨_, _, _, _, h⟩ := s.clkPass_cases d; rw [h]
@[simp] theorem State.pass_pending (d : Nat) : (s.pass d).pending = s.pending := by obtain ⟨_, _, _, _, _, h⟩ := s.pass_cases d; rw [h]
@[simp] theorem State.clkPass_pending (d : Nat) : (s.clkPass d).pending = s.pending := by obtain ⟨_, _, _, _, h⟩ := s.clkPass_cases d; rw [h]
@[simp] theorem State.until_regs (t : Nat) : (s.until t).regs = s.regs := s.pass_regs _
@[simp] theorem State.until_mem (t : Nat) : (s.until t).mem = s.mem := s.pass_mem _
@[simp] theorem State.until_syn (t : Nat) : (s.until t).syn = s.syn := s.pass_syn _
@[simp] theorem State.until_stuck (t : Nat) : (s.until t).stuck = s.stuck := s.pass_stuck _
@[simp] theorem State.until_tags (t : Nat) : (s.until t).tags = s.tags := s.pass_tags _
@[simp] theorem State.until_credit (t : Nat) : (s.until t).credit = s.credit := s.pass_credit _
@[simp] theorem State.until_xw (t : Nat) : (s.until t).xw = s.xw := s.pass_xw _
@[simp] theorem State.until_resp (t : Nat) : (s.until t).resp = s.resp := s.pass_resp _
@[simp] theorem State.until_out (t : Nat) : (s.until t).out = s.out := s.pass_out _
@[simp] theorem State.until_bulk (t : Nat) : (s.until t).bulk = s.bulk := s.pass_bulk _
@[simp] theorem State.until_lat (t : Nat) : (s.until t).lat = s.lat := s.pass_lat _
@[simp] theorem State.until_rib (t : Nat) : (s.until t).rib = s.rib := s.pass_rib _
@[simp] theorem State.until_sch (t : Nat) : (s.until t).sch = s.sch := s.pass_sch _
@[simp] theorem State.until_rcv (t : Nat) : (s.until t).rcv = s.rcv := s.pass_rcv _
@[simp] theorem State.until_icu (t : Nat) : (s.until t).icu = s.icu := s.pass_icu _
@[simp] theorem State.until_que (t : Nat) : (s.until t).que = s.que := s.pass_que _
@[simp] theorem State.until_fld (t : Nat) : (s.until t).fld = s.fld := s.pass_fld _
@[simp] theorem State.until_mv (t : Nat) : (s.until t).mv = s.mv := s.pass_mv _
@[simp] theorem State.until_cam (t : Nat) : (s.until t).cam = s.cam := s.pass_cam _
@[simp] theorem State.until_arc (t : Nat) : (s.until t).arc = s.arc := s.pass_arc _
@[simp] theorem State.until_pwr (t : Nat) : (s.until t).pwr = s.pwr := s.pass_pwr _
@[simp] theorem State.until_sec (t : Nat) : (s.until t).sec = s.sec := s.pass_sec _
@[simp] theorem State.until_dbg (t : Nat) : (s.until t).dbg = s.dbg := s.pass_dbg _
@[simp] theorem State.until_pending (t : Nat) : (s.until t).pending = s.pending := s.pass_pending _

@[simp] theorem State.fabUntil_regs (t : Nat) : (s.fabUntil t).regs = s.regs := s.pass_regs _
@[simp] theorem State.fabUntil_mem (t : Nat) : (s.fabUntil t).mem = s.mem := s.pass_mem _
@[simp] theorem State.fabUntil_syn (t : Nat) : (s.fabUntil t).syn = s.syn := s.pass_syn _
@[simp] theorem State.fabUntil_stuck (t : Nat) : (s.fabUntil t).stuck = s.stuck := s.pass_stuck _
@[simp] theorem State.fabUntil_tags (t : Nat) : (s.fabUntil t).tags = s.tags := s.pass_tags _
@[simp] theorem State.fabUntil_credit (t : Nat) : (s.fabUntil t).credit = s.credit := s.pass_credit _
@[simp] theorem State.fabUntil_xw (t : Nat) : (s.fabUntil t).xw = s.xw := s.pass_xw _
@[simp] theorem State.fabUntil_resp (t : Nat) : (s.fabUntil t).resp = s.resp := s.pass_resp _
@[simp] theorem State.fabUntil_out (t : Nat) : (s.fabUntil t).out = s.out := s.pass_out _
@[simp] theorem State.fabUntil_bulk (t : Nat) : (s.fabUntil t).bulk = s.bulk := s.pass_bulk _
@[simp] theorem State.fabUntil_lat (t : Nat) : (s.fabUntil t).lat = s.lat := s.pass_lat _
@[simp] theorem State.fabUntil_rib (t : Nat) : (s.fabUntil t).rib = s.rib := s.pass_rib _
@[simp] theorem State.fabUntil_sch (t : Nat) : (s.fabUntil t).sch = s.sch := s.pass_sch _
@[simp] theorem State.fabUntil_rcv (t : Nat) : (s.fabUntil t).rcv = s.rcv := s.pass_rcv _
@[simp] theorem State.fabUntil_icu (t : Nat) : (s.fabUntil t).icu = s.icu := s.pass_icu _
@[simp] theorem State.fabUntil_que (t : Nat) : (s.fabUntil t).que = s.que := s.pass_que _
@[simp] theorem State.fabUntil_fld (t : Nat) : (s.fabUntil t).fld = s.fld := s.pass_fld _
@[simp] theorem State.fabUntil_mv (t : Nat) : (s.fabUntil t).mv = s.mv := s.pass_mv _
@[simp] theorem State.fabUntil_cam (t : Nat) : (s.fabUntil t).cam = s.cam := s.pass_cam _
@[simp] theorem State.fabUntil_arc (t : Nat) : (s.fabUntil t).arc = s.arc := s.pass_arc _
@[simp] theorem State.fabUntil_pwr (t : Nat) : (s.fabUntil t).pwr = s.pwr := s.pass_pwr _
@[simp] theorem State.fabUntil_sec (t : Nat) : (s.fabUntil t).sec = s.sec := s.pass_sec _
@[simp] theorem State.fabUntil_dbg (t : Nat) : (s.fabUntil t).dbg = s.dbg := s.pass_dbg _
@[simp] theorem State.fabUntil_pending (t : Nat) : (s.fabUntil t).pending = s.pending := s.pass_pending _

@[simp] theorem State.tick_regs (n : Nat) : (s.tick n).regs = s.regs := s.clkPass_regs _
@[simp] theorem State.tick_mem (n : Nat) : (s.tick n).mem = s.mem := s.clkPass_mem _
@[simp] theorem State.tick_syn (n : Nat) : (s.tick n).syn = s.syn := s.clkPass_syn _
@[simp] theorem State.tick_stuck (n : Nat) : (s.tick n).stuck = s.stuck := s.clkPass_stuck _
@[simp] theorem State.tick_tags (n : Nat) : (s.tick n).tags = s.tags := s.clkPass_tags _
@[simp] theorem State.tick_credit (n : Nat) : (s.tick n).credit = s.credit := s.clkPass_credit _
@[simp] theorem State.tick_xw (n : Nat) : (s.tick n).xw = s.xw := s.clkPass_xw _
@[simp] theorem State.tick_resp (n : Nat) : (s.tick n).resp = s.resp := s.clkPass_resp _
@[simp] theorem State.tick_out (n : Nat) : (s.tick n).out = s.out := s.clkPass_out _
@[simp] theorem State.tick_bulk (n : Nat) : (s.tick n).bulk = s.bulk := s.clkPass_bulk _
@[simp] theorem State.tick_lat (n : Nat) : (s.tick n).lat = s.lat := s.clkPass_lat _
@[simp] theorem State.tick_rib (n : Nat) : (s.tick n).rib = s.rib := s.clkPass_rib _
@[simp] theorem State.tick_sch (n : Nat) : (s.tick n).sch = s.sch := s.clkPass_sch _
@[simp] theorem State.tick_rcv (n : Nat) : (s.tick n).rcv = s.rcv := s.clkPass_rcv _
@[simp] theorem State.tick_icu (n : Nat) : (s.tick n).icu = s.icu := s.clkPass_icu _
@[simp] theorem State.tick_que (n : Nat) : (s.tick n).que = s.que := s.clkPass_que _
@[simp] theorem State.tick_fld (n : Nat) : (s.tick n).fld = s.fld := s.clkPass_fld _
@[simp] theorem State.tick_mv (n : Nat) : (s.tick n).mv = s.mv := s.clkPass_mv _
@[simp] theorem State.tick_cam (n : Nat) : (s.tick n).cam = s.cam := s.clkPass_cam _
@[simp] theorem State.tick_chn (n : Nat) : (s.tick n).chn = s.chn := s.clkPass_chn _
@[simp] theorem State.tick_arc (n : Nat) : (s.tick n).arc = s.arc := s.clkPass_arc _
@[simp] theorem State.tick_pwr (n : Nat) : (s.tick n).pwr = s.pwr := s.clkPass_pwr _
@[simp] theorem State.tick_sec (n : Nat) : (s.tick n).sec = s.sec := s.clkPass_sec _
@[simp] theorem State.tick_dbg (n : Nat) : (s.tick n).dbg = s.dbg := s.clkPass_dbg _
@[simp] theorem State.tick_pending (n : Nat) : (s.tick n).pending = s.pending := s.clkPass_pending _

@[simp] theorem State.clkUntil_regs (t : Nat) : (s.clkUntil t).regs = s.regs := s.clkPass_regs _
@[simp] theorem State.clkUntil_mem (t : Nat) : (s.clkUntil t).mem = s.mem := s.clkPass_mem _
@[simp] theorem State.clkUntil_syn (t : Nat) : (s.clkUntil t).syn = s.syn := s.clkPass_syn _
@[simp] theorem State.clkUntil_stuck (t : Nat) : (s.clkUntil t).stuck = s.stuck := s.clkPass_stuck _
@[simp] theorem State.clkUntil_tags (t : Nat) : (s.clkUntil t).tags = s.tags := s.clkPass_tags _
@[simp] theorem State.clkUntil_credit (t : Nat) : (s.clkUntil t).credit = s.credit := s.clkPass_credit _
@[simp] theorem State.clkUntil_xw (t : Nat) : (s.clkUntil t).xw = s.xw := s.clkPass_xw _
@[simp] theorem State.clkUntil_resp (t : Nat) : (s.clkUntil t).resp = s.resp := s.clkPass_resp _
@[simp] theorem State.clkUntil_out (t : Nat) : (s.clkUntil t).out = s.out := s.clkPass_out _
@[simp] theorem State.clkUntil_bulk (t : Nat) : (s.clkUntil t).bulk = s.bulk := s.clkPass_bulk _
@[simp] theorem State.clkUntil_lat (t : Nat) : (s.clkUntil t).lat = s.lat := s.clkPass_lat _
@[simp] theorem State.clkUntil_rib (t : Nat) : (s.clkUntil t).rib = s.rib := s.clkPass_rib _
@[simp] theorem State.clkUntil_sch (t : Nat) : (s.clkUntil t).sch = s.sch := s.clkPass_sch _
@[simp] theorem State.clkUntil_rcv (t : Nat) : (s.clkUntil t).rcv = s.rcv := s.clkPass_rcv _
@[simp] theorem State.clkUntil_icu (t : Nat) : (s.clkUntil t).icu = s.icu := s.clkPass_icu _
@[simp] theorem State.clkUntil_que (t : Nat) : (s.clkUntil t).que = s.que := s.clkPass_que _
@[simp] theorem State.clkUntil_fld (t : Nat) : (s.clkUntil t).fld = s.fld := s.clkPass_fld _
@[simp] theorem State.clkUntil_mv (t : Nat) : (s.clkUntil t).mv = s.mv := s.clkPass_mv _
@[simp] theorem State.clkUntil_cam (t : Nat) : (s.clkUntil t).cam = s.cam := s.clkPass_cam _
@[simp] theorem State.clkUntil_chn (t : Nat) : (s.clkUntil t).chn = s.chn := s.clkPass_chn _
@[simp] theorem State.clkUntil_arc (t : Nat) : (s.clkUntil t).arc = s.arc := s.clkPass_arc _
@[simp] theorem State.clkUntil_pwr (t : Nat) : (s.clkUntil t).pwr = s.pwr := s.clkPass_pwr _
@[simp] theorem State.clkUntil_sec (t : Nat) : (s.clkUntil t).sec = s.sec := s.clkPass_sec _
@[simp] theorem State.clkUntil_dbg (t : Nat) : (s.clkUntil t).dbg = s.dbg := s.clkPass_dbg _
@[simp] theorem State.clkUntil_pending (t : Nat) : (s.clkUntil t).pending = s.pending := s.clkPass_pending _

@[simp] theorem State.pass_tri_pc (d : Nat) : (s.pass d).tri.pc = s.tri.pc := by obtain ⟨_, _, _, _, _, h⟩ := s.pass_cases d; rw [h]
@[simp] theorem State.clkPass_tri_pc (d : Nat) : (s.clkPass d).tri.pc = s.tri.pc := by obtain ⟨_, _, _, _, h⟩ := s.clkPass_cases d; rw [h]
@[simp] theorem State.until_tri_pc (x : Nat) : (s.until x).tri.pc = s.tri.pc := s.pass_tri_pc _
@[simp] theorem State.tick_tri_pc (n : Nat) : (s.tick n).tri.pc = s.tri.pc := s.clkPass_tri_pc _
@[simp] theorem State.pass_tri_slot (d : Nat) : (s.pass d).tri.slot = s.tri.slot := by obtain ⟨_, _, _, _, _, h⟩ := s.pass_cases d; rw [h]
@[simp] theorem State.clkPass_tri_slot (d : Nat) : (s.clkPass d).tri.slot = s.tri.slot := by obtain ⟨_, _, _, _, h⟩ := s.clkPass_cases d; rw [h]
@[simp] theorem State.until_tri_slot (x : Nat) : (s.until x).tri.slot = s.tri.slot := s.pass_tri_slot _
@[simp] theorem State.tick_tri_slot (n : Nat) : (s.tick n).tri.slot = s.tri.slot := s.clkPass_tri_slot _
@[simp] theorem State.pass_tri_g (d : Nat) : (s.pass d).tri.g = s.tri.g := by obtain ⟨_, _, _, _, _, h⟩ := s.pass_cases d; rw [h]
@[simp] theorem State.clkPass_tri_g (d : Nat) : (s.clkPass d).tri.g = s.tri.g := by obtain ⟨_, _, _, _, h⟩ := s.clkPass_cases d; rw [h]
@[simp] theorem State.until_tri_g (x : Nat) : (s.until x).tri.g = s.tri.g := s.pass_tri_g _
@[simp] theorem State.tick_tri_g (n : Nat) : (s.tick n).tri.g = s.tri.g := s.clkPass_tri_g _
@[simp] theorem State.pass_tri_f (d : Nat) : (s.pass d).tri.f = s.tri.f := by obtain ⟨_, _, _, _, _, h⟩ := s.pass_cases d; rw [h]
@[simp] theorem State.clkPass_tri_f (d : Nat) : (s.clkPass d).tri.f = s.tri.f := by obtain ⟨_, _, _, _, h⟩ := s.clkPass_cases d; rw [h]
@[simp] theorem State.until_tri_f (x : Nat) : (s.until x).tri.f = s.tri.f := s.pass_tri_f _
@[simp] theorem State.tick_tri_f (n : Nat) : (s.tick n).tri.f = s.tri.f := s.clkPass_tri_f _
@[simp] theorem State.pass_tri_v (d : Nat) : (s.pass d).tri.v = s.tri.v := by obtain ⟨_, _, _, _, _, h⟩ := s.pass_cases d; rw [h]
@[simp] theorem State.clkPass_tri_v (d : Nat) : (s.clkPass d).tri.v = s.tri.v := by obtain ⟨_, _, _, _, h⟩ := s.clkPass_cases d; rw [h]
@[simp] theorem State.until_tri_v (x : Nat) : (s.until x).tri.v = s.tri.v := s.pass_tri_v _
@[simp] theorem State.tick_tri_v (n : Nat) : (s.tick n).tri.v = s.tri.v := s.clkPass_tri_v _
@[simp] theorem State.pass_tri_p (d : Nat) : (s.pass d).tri.p = s.tri.p := by obtain ⟨_, _, _, _, _, h⟩ := s.pass_cases d; rw [h]
@[simp] theorem State.clkPass_tri_p (d : Nat) : (s.clkPass d).tri.p = s.tri.p := by obtain ⟨_, _, _, _, h⟩ := s.clkPass_cases d; rw [h]
@[simp] theorem State.until_tri_p (x : Nat) : (s.until x).tri.p = s.tri.p := s.pass_tri_p _
@[simp] theorem State.tick_tri_p (n : Nat) : (s.tick n).tri.p = s.tri.p := s.clkPass_tri_p _
@[simp] theorem State.pass_tri_fcsr (d : Nat) : (s.pass d).tri.fcsr = s.tri.fcsr := by obtain ⟨_, _, _, _, _, h⟩ := s.pass_cases d; rw [h]
@[simp] theorem State.clkPass_tri_fcsr (d : Nat) : (s.clkPass d).tri.fcsr = s.tri.fcsr := by obtain ⟨_, _, _, _, h⟩ := s.clkPass_cases d; rw [h]
@[simp] theorem State.until_tri_fcsr (x : Nat) : (s.until x).tri.fcsr = s.tri.fcsr := s.pass_tri_fcsr _
@[simp] theorem State.tick_tri_fcsr (n : Nat) : (s.tick n).tri.fcsr = s.tri.fcsr := s.clkPass_tri_fcsr _
@[simp] theorem State.pass_tri_ev (d : Nat) : (s.pass d).tri.ev = s.tri.ev := by obtain ⟨_, _, _, _, _, h⟩ := s.pass_cases d; rw [h]
@[simp] theorem State.clkPass_tri_ev (d : Nat) : (s.clkPass d).tri.ev = s.tri.ev := by obtain ⟨_, _, _, _, h⟩ := s.clkPass_cases d; rw [h]
@[simp] theorem State.until_tri_ev (x : Nat) : (s.until x).tri.ev = s.tri.ev := s.pass_tri_ev _
@[simp] theorem State.tick_tri_ev (n : Nat) : (s.tick n).tri.ev = s.tri.ev := s.clkPass_tri_ev _
@[simp] theorem State.pass_tri_sp (d : Nat) : (s.pass d).tri.sp = s.tri.sp := by obtain ⟨_, _, _, _, _, h⟩ := s.pass_cases d; rw [h]
@[simp] theorem State.clkPass_tri_sp (d : Nat) : (s.clkPass d).tri.sp = s.tri.sp := by obtain ⟨_, _, _, _, h⟩ := s.clkPass_cases d; rw [h]
@[simp] theorem State.until_tri_sp (x : Nat) : (s.until x).tri.sp = s.tri.sp := s.pass_tri_sp _
@[simp] theorem State.tick_tri_sp (n : Nat) : (s.tick n).tri.sp = s.tri.sp := s.clkPass_tri_sp _
@[simp] theorem State.pass_tri_mul (d : Nat) : (s.pass d).tri.mul = s.tri.mul := by obtain ⟨_, _, _, _, _, h⟩ := s.pass_cases d; rw [h]
@[simp] theorem State.clkPass_tri_mul (d : Nat) : (s.clkPass d).tri.mul = s.tri.mul := by obtain ⟨_, _, _, _, h⟩ := s.clkPass_cases d; rw [h]
@[simp] theorem State.until_tri_mul (x : Nat) : (s.until x).tri.mul = s.tri.mul := s.pass_tri_mul _
@[simp] theorem State.tick_tri_mul (n : Nat) : (s.tick n).tri.mul = s.tri.mul := s.clkPass_tri_mul _
@[simp] theorem State.pass_tri_insn (d : Nat) : (s.pass d).tri.insn = s.tri.insn := by obtain ⟨_, _, _, _, _, h⟩ := s.pass_cases d; rw [h]
@[simp] theorem State.clkPass_tri_insn (d : Nat) : (s.clkPass d).tri.insn = s.tri.insn := by obtain ⟨_, _, _, _, h⟩ := s.clkPass_cases d; rw [h]
@[simp] theorem State.until_tri_insn (x : Nat) : (s.until x).tri.insn = s.tri.insn := s.pass_tri_insn _
@[simp] theorem State.tick_tri_insn (n : Nat) : (s.tick n).tri.insn = s.tri.insn := s.clkPass_tri_insn _
@[simp] theorem State.pass_tri_ctLast (d : Nat) : (s.pass d).tri.ctLast = s.tri.ctLast := by obtain ⟨_, _, _, _, _, h⟩ := s.pass_cases d; rw [h]
@[simp] theorem State.clkPass_tri_ctLast (d : Nat) : (s.clkPass d).tri.ctLast = s.tri.ctLast := by obtain ⟨_, _, _, _, h⟩ := s.clkPass_cases d; rw [h]
@[simp] theorem State.until_tri_ctLast (x : Nat) : (s.until x).tri.ctLast = s.tri.ctLast := s.pass_tri_ctLast _
@[simp] theorem State.tick_tri_ctLast (n : Nat) : (s.tick n).tri.ctLast = s.tri.ctLast := s.clkPass_tri_ctLast _
@[simp] theorem State.pass_tri_c (d : Nat) : (s.pass d).tri.c = s.tri.c := by obtain ⟨_, _, _, _, _, h⟩ := s.pass_cases d; rw [h]
@[simp] theorem State.clkPass_tri_c (d : Nat) : (s.clkPass d).tri.c = s.tri.c := by obtain ⟨_, _, _, _, h⟩ := s.clkPass_cases d; rw [h]
@[simp] theorem State.until_tri_c (x : Nat) : (s.until x).tri.c = s.tri.c := s.pass_tri_c _
@[simp] theorem State.tick_tri_c (n : Nat) : (s.tick n).tri.c = s.tri.c := s.clkPass_tri_c _
@[simp] theorem State.pass_tri_fcap (d : Nat) : (s.pass d).tri.fcap = s.tri.fcap := by obtain ⟨_, _, _, _, _, h⟩ := s.pass_cases d; rw [h]
@[simp] theorem State.clkPass_tri_fcap (d : Nat) : (s.clkPass d).tri.fcap = s.tri.fcap := by obtain ⟨_, _, _, _, h⟩ := s.clkPass_cases d; rw [h]
@[simp] theorem State.until_tri_fcap (x : Nat) : (s.until x).tri.fcap = s.tri.fcap := s.pass_tri_fcap _
@[simp] theorem State.tick_tri_fcap (n : Nat) : (s.tick n).tri.fcap = s.tri.fcap := s.clkPass_tri_fcap _
@[simp] theorem State.pass_tri_ge (d : Nat) : (s.pass d).tri.ge = s.tri.ge := by obtain ⟨_, _, _, _, _, h⟩ := s.pass_cases d; rw [h]
@[simp] theorem State.clkPass_tri_ge (d : Nat) : (s.clkPass d).tri.ge = s.tri.ge := by obtain ⟨_, _, _, _, h⟩ := s.clkPass_cases d; rw [h]
@[simp] theorem State.until_tri_ge (x : Nat) : (s.until x).tri.ge = s.tri.ge := s.pass_tri_ge _
@[simp] theorem State.tick_tri_ge (n : Nat) : (s.tick n).tri.ge = s.tri.ge := s.clkPass_tri_ge _
@[simp] theorem State.pass_tri_geUsed (d : Nat) : (s.pass d).tri.geUsed = s.tri.geUsed := by obtain ⟨_, _, _, _, _, h⟩ := s.pass_cases d; rw [h]
@[simp] theorem State.clkPass_tri_geUsed (d : Nat) : (s.clkPass d).tri.geUsed = s.tri.geUsed := by obtain ⟨_, _, _, _, h⟩ := s.clkPass_cases d; rw [h]
@[simp] theorem State.until_tri_geUsed (x : Nat) : (s.until x).tri.geUsed = s.tri.geUsed := s.pass_tri_geUsed _
@[simp] theorem State.tick_tri_geUsed (n : Nat) : (s.tick n).tri.geUsed = s.tri.geUsed := s.clkPass_tri_geUsed _
@[simp] theorem State.pass_tri_htb (d : Nat) : (s.pass d).tri.htb = s.tri.htb := by obtain ⟨_, _, _, _, _, h⟩ := s.pass_cases d; rw [h]
@[simp] theorem State.clkPass_tri_htb (d : Nat) : (s.clkPass d).tri.htb = s.tri.htb := by obtain ⟨_, _, _, _, h⟩ := s.clkPass_cases d; rw [h]
@[simp] theorem State.until_tri_htb (x : Nat) : (s.until x).tri.htb = s.tri.htb := s.pass_tri_htb _
@[simp] theorem State.tick_tri_htb (n : Nat) : (s.tick n).tri.htb = s.tri.htb := s.clkPass_tri_htb _
@[simp] theorem State.pass_tri_esb (d : Nat) : (s.pass d).tri.esb = s.tri.esb := by obtain ⟨_, _, _, _, _, h⟩ := s.pass_cases d; rw [h]
@[simp] theorem State.clkPass_tri_esb (d : Nat) : (s.clkPass d).tri.esb = s.tri.esb := by obtain ⟨_, _, _, _, h⟩ := s.clkPass_cases d; rw [h]
@[simp] theorem State.until_tri_esb (x : Nat) : (s.until x).tri.esb = s.tri.esb := s.pass_tri_esb _
@[simp] theorem State.tick_tri_esb (n : Nat) : (s.tick n).tri.esb = s.tri.esb := s.clkPass_tri_esb _
@[simp] theorem State.pass_tri_ml (d : Nat) : (s.pass d).tri.ml = s.tri.ml := by obtain ⟨_, _, _, _, _, h⟩ := s.pass_cases d; rw [h]
@[simp] theorem State.clkPass_tri_ml (d : Nat) : (s.clkPass d).tri.ml = s.tri.ml := by obtain ⟨_, _, _, _, h⟩ := s.clkPass_cases d; rw [h]
@[simp] theorem State.until_tri_ml (x : Nat) : (s.until x).tri.ml = s.tri.ml := s.pass_tri_ml _
@[simp] theorem State.tick_tri_ml (n : Nat) : (s.tick n).tri.ml = s.tri.ml := s.clkPass_tri_ml _
@[simp] theorem State.pass_tri_htbUsed (d : Nat) : (s.pass d).tri.htbUsed = s.tri.htbUsed := by obtain ⟨_, _, _, _, _, h⟩ := s.pass_cases d; rw [h]
@[simp] theorem State.clkPass_tri_htbUsed (d : Nat) : (s.clkPass d).tri.htbUsed = s.tri.htbUsed := by obtain ⟨_, _, _, _, h⟩ := s.clkPass_cases d; rw [h]
@[simp] theorem State.until_tri_htbUsed (x : Nat) : (s.until x).tri.htbUsed = s.tri.htbUsed := s.pass_tri_htbUsed _
@[simp] theorem State.tick_tri_htbUsed (n : Nat) : (s.tick n).tri.htbUsed = s.tri.htbUsed := s.clkPass_tri_htbUsed _
@[simp] theorem State.pass_tri_esbUsed (d : Nat) : (s.pass d).tri.esbUsed = s.tri.esbUsed := by obtain ⟨_, _, _, _, _, h⟩ := s.pass_cases d; rw [h]
@[simp] theorem State.clkPass_tri_esbUsed (d : Nat) : (s.clkPass d).tri.esbUsed = s.tri.esbUsed := by obtain ⟨_, _, _, _, h⟩ := s.clkPass_cases d; rw [h]
@[simp] theorem State.until_tri_esbUsed (x : Nat) : (s.until x).tri.esbUsed = s.tri.esbUsed := s.pass_tri_esbUsed _
@[simp] theorem State.tick_tri_esbUsed (n : Nat) : (s.tick n).tri.esbUsed = s.tri.esbUsed := s.clkPass_tri_esbUsed _
@[simp] theorem State.pass_tri_mlUsed (d : Nat) : (s.pass d).tri.mlUsed = s.tri.mlUsed := by obtain ⟨_, _, _, _, _, h⟩ := s.pass_cases d; rw [h]
@[simp] theorem State.clkPass_tri_mlUsed (d : Nat) : (s.clkPass d).tri.mlUsed = s.tri.mlUsed := by obtain ⟨_, _, _, _, h⟩ := s.clkPass_cases d; rw [h]
@[simp] theorem State.until_tri_mlUsed (x : Nat) : (s.until x).tri.mlUsed = s.tri.mlUsed := s.pass_tri_mlUsed _
@[simp] theorem State.tick_tri_mlUsed (n : Nat) : (s.tick n).tri.mlUsed = s.tri.mlUsed := s.clkPass_tri_mlUsed _
@[simp] theorem State.pass_tri_fcause (d : Nat) : (s.pass d).tri.fcause = s.tri.fcause := by obtain ⟨_, _, _, _, _, h⟩ := s.pass_cases d; rw [h]
@[simp] theorem State.clkPass_tri_fcause (d : Nat) : (s.clkPass d).tri.fcause = s.tri.fcause := by obtain ⟨_, _, _, _, h⟩ := s.clkPass_cases d; rw [h]
@[simp] theorem State.until_tri_fcause (x : Nat) : (s.until x).tri.fcause = s.tri.fcause := s.pass_tri_fcause _
@[simp] theorem State.tick_tri_fcause (n : Nat) : (s.tick n).tri.fcause = s.tri.fcause := s.clkPass_tri_fcause _
@[simp] theorem State.pass_tri_faddr (d : Nat) : (s.pass d).tri.faddr = s.tri.faddr := by obtain ⟨_, _, _, _, _, h⟩ := s.pass_cases d; rw [h]
@[simp] theorem State.clkPass_tri_faddr (d : Nat) : (s.clkPass d).tri.faddr = s.tri.faddr := by obtain ⟨_, _, _, _, h⟩ := s.clkPass_cases d; rw [h]
@[simp] theorem State.until_tri_faddr (x : Nat) : (s.until x).tri.faddr = s.tri.faddr := s.pass_tri_faddr _
@[simp] theorem State.tick_tri_faddr (n : Nat) : (s.tick n).tri.faddr = s.tri.faddr := s.clkPass_tri_faddr _
@[simp] theorem State.pass_tri_eprW (d : Nat) : (s.pass d).tri.eprW = s.tri.eprW := by obtain ⟨_, _, _, _, _, h⟩ := s.pass_cases d; rw [h]
@[simp] theorem State.clkPass_tri_eprW (d : Nat) : (s.clkPass d).tri.eprW = s.tri.eprW := by obtain ⟨_, _, _, _, h⟩ := s.clkPass_cases d; rw [h]
@[simp] theorem State.until_tri_eprW (x : Nat) : (s.until x).tri.eprW = s.tri.eprW := s.pass_tri_eprW _
@[simp] theorem State.tick_tri_eprW (n : Nat) : (s.tick n).tri.eprW = s.tri.eprW := s.clkPass_tri_eprW _
@[simp] theorem State.pass_tri_epr (d : Nat) : (s.pass d).tri.epr = s.tri.epr := by obtain ⟨_, _, _, _, _, h⟩ := s.pass_cases d; rw [h]
@[simp] theorem State.clkPass_tri_epr (d : Nat) : (s.clkPass d).tri.epr = s.tri.epr := by obtain ⟨_, _, _, _, h⟩ := s.clkPass_cases d; rw [h]
@[simp] theorem State.until_tri_epr (x : Nat) : (s.until x).tri.epr = s.tri.epr := s.pass_tri_epr _
@[simp] theorem State.tick_tri_epr (n : Nat) : (s.tick n).tri.epr = s.tri.epr := s.clkPass_tri_epr _
@[simp] theorem State.pass_tri_eprUsed (d : Nat) : (s.pass d).tri.eprUsed = s.tri.eprUsed := by obtain ⟨_, _, _, _, _, h⟩ := s.pass_cases d; rw [h]
@[simp] theorem State.clkPass_tri_eprUsed (d : Nat) : (s.clkPass d).tri.eprUsed = s.tri.eprUsed := by obtain ⟨_, _, _, _, h⟩ := s.clkPass_cases d; rw [h]
@[simp] theorem State.until_tri_eprUsed (x : Nat) : (s.until x).tri.eprUsed = s.tri.eprUsed := s.pass_tri_eprUsed _
@[simp] theorem State.tick_tri_eprUsed (n : Nat) : (s.tick n).tri.eprUsed = s.tri.eprUsed := s.clkPass_tri_eprUsed _
@[simp] theorem State.pass_tri_waiting (d : Nat) : (s.pass d).tri.waiting = s.tri.waiting := by obtain ⟨_, _, _, _, _, h⟩ := s.pass_cases d; rw [h]
@[simp] theorem State.clkPass_tri_waiting (d : Nat) : (s.clkPass d).tri.waiting = s.tri.waiting := by obtain ⟨_, _, _, _, h⟩ := s.clkPass_cases d; rw [h]
@[simp] theorem State.until_tri_waiting (x : Nat) : (s.until x).tri.waiting = s.tri.waiting := s.pass_tri_waiting _
@[simp] theorem State.tick_tri_waiting (n : Nat) : (s.tick n).tri.waiting = s.tri.waiting := s.clkPass_tri_waiting _
@[simp] theorem State.pass_tri_remapUsed (d : Nat) : (s.pass d).tri.remapUsed = s.tri.remapUsed := by obtain ⟨_, _, _, _, _, h⟩ := s.pass_cases d; rw [h]
@[simp] theorem State.clkPass_tri_remapUsed (d : Nat) : (s.clkPass d).tri.remapUsed = s.tri.remapUsed := by obtain ⟨_, _, _, _, h⟩ := s.clkPass_cases d; rw [h]
@[simp] theorem State.until_tri_remapUsed (x : Nat) : (s.until x).tri.remapUsed = s.tri.remapUsed := s.pass_tri_remapUsed _
@[simp] theorem State.tick_tri_remapUsed (n : Nat) : (s.tick n).tri.remapUsed = s.tri.remapUsed := s.clkPass_tri_remapUsed _
@[simp] theorem State.pass_tri_holdOvr (d : Nat) : (s.pass d).tri.holdOvr = s.tri.holdOvr := by obtain ⟨_, _, _, _, _, h⟩ := s.pass_cases d; rw [h]
@[simp] theorem State.clkPass_tri_holdOvr (d : Nat) : (s.clkPass d).tri.holdOvr = s.tri.holdOvr := by obtain ⟨_, _, _, _, h⟩ := s.clkPass_cases d; rw [h]
@[simp] theorem State.until_tri_holdOvr (x : Nat) : (s.until x).tri.holdOvr = s.tri.holdOvr := s.pass_tri_holdOvr _
@[simp] theorem State.tick_tri_holdOvr (n : Nat) : (s.tick n).tri.holdOvr = s.tri.holdOvr := s.clkPass_tri_holdOvr _
@[simp] theorem State.pass_tri_epx (d : Nat) : (s.pass d).tri.epx = s.tri.epx := by obtain ⟨_, _, _, _, _, h⟩ := s.pass_cases d; rw [h]
@[simp] theorem State.clkPass_tri_epx (d : Nat) : (s.clkPass d).tri.epx = s.tri.epx := by obtain ⟨_, _, _, _, h⟩ := s.clkPass_cases d; rw [h]
@[simp] theorem State.until_tri_epx (x : Nat) : (s.until x).tri.epx = s.tri.epx := s.pass_tri_epx _
@[simp] theorem State.tick_tri_epx (n : Nat) : (s.tick n).tri.epx = s.tri.epx := s.clkPass_tri_epx _
@[simp] theorem State.pass_tri_actl (d : Nat) : (s.pass d).tri.actl = s.tri.actl := by obtain ⟨_, _, _, _, _, h⟩ := s.pass_cases d; rw [h]
@[simp] theorem State.clkPass_tri_actl (d : Nat) : (s.clkPass d).tri.actl = s.tri.actl := by obtain ⟨_, _, _, _, h⟩ := s.clkPass_cases d; rw [h]
@[simp] theorem State.until_tri_actl (x : Nat) : (s.until x).tri.actl = s.tri.actl := s.pass_tri_actl _
@[simp] theorem State.tick_tri_actl (n : Nat) : (s.tick n).tri.actl = s.tri.actl := s.clkPass_tri_actl _
@[simp] theorem State.pass_tri_comp (d : Nat) : (s.pass d).tri.comp = s.tri.comp := by obtain ⟨_, _, _, _, _, h⟩ := s.pass_cases d; rw [h]
@[simp] theorem State.clkPass_tri_comp (d : Nat) : (s.clkPass d).tri.comp = s.tri.comp := by obtain ⟨_, _, _, _, h⟩ := s.clkPass_cases d; rw [h]
@[simp] theorem State.until_tri_comp (x : Nat) : (s.until x).tri.comp = s.tri.comp := s.pass_tri_comp _
@[simp] theorem State.tick_tri_comp (n : Nat) : (s.tick n).tri.comp = s.tri.comp := s.clkPass_tri_comp _
@[simp] theorem State.pass_tri_hold (d : Nat) : (s.pass d).tri.hold = s.tri.hold := by obtain ⟨_, _, _, _, _, h⟩ := s.pass_cases d; rw [h]
@[simp] theorem State.clkPass_tri_hold (d : Nat) : (s.clkPass d).tri.hold = s.tri.hold := by obtain ⟨_, _, _, _, h⟩ := s.clkPass_cases d; rw [h]
@[simp] theorem State.until_tri_hold (x : Nat) : (s.until x).tri.hold = s.tri.hold := s.pass_tri_hold _
@[simp] theorem State.tick_tri_hold (n : Nat) : (s.tick n).tri.hold = s.tri.hold := s.clkPass_tri_hold _
@[simp] theorem State.pass_tri_stack (d : Nat) : (s.pass d).tri.stack = s.tri.stack := by obtain ⟨_, _, _, _, _, h⟩ := s.pass_cases d; rw [h]
@[simp] theorem State.clkPass_tri_stack (d : Nat) : (s.clkPass d).tri.stack = s.tri.stack := by obtain ⟨_, _, _, _, h⟩ := s.clkPass_cases d; rw [h]
@[simp] theorem State.until_tri_stack (x : Nat) : (s.until x).tri.stack = s.tri.stack := s.pass_tri_stack _
@[simp] theorem State.tick_tri_stack (n : Nat) : (s.tick n).tri.stack = s.tri.stack := s.clkPass_tri_stack _
@[simp] theorem State.pass_tri_entered (d : Nat) : (s.pass d).tri.entered = s.tri.entered := by obtain ⟨_, _, _, _, _, h⟩ := s.pass_cases d; rw [h]
@[simp] theorem State.clkPass_tri_entered (d : Nat) : (s.clkPass d).tri.entered = s.tri.entered := by obtain ⟨_, _, _, _, h⟩ := s.clkPass_cases d; rw [h]
@[simp] theorem State.until_tri_entered (x : Nat) : (s.until x).tri.entered = s.tri.entered := s.pass_tri_entered _
@[simp] theorem State.tick_tri_entered (n : Nat) : (s.tick n).tri.entered = s.tri.entered := s.clkPass_tri_entered _
@[simp] theorem State.pass_tri_wait (d : Nat) : (s.pass d).tri.wait = s.tri.wait := by obtain ⟨_, _, _, _, _, h⟩ := s.pass_cases d; rw [h]
@[simp] theorem State.clkPass_tri_wait (d : Nat) : (s.clkPass d).tri.wait = s.tri.wait := by obtain ⟨_, _, _, _, h⟩ := s.clkPass_cases d; rw [h]
@[simp] theorem State.until_tri_wait (x : Nat) : (s.until x).tri.wait = s.tri.wait := s.pass_tri_wait _
@[simp] theorem State.tick_tri_wait (n : Nat) : (s.tick n).tri.wait = s.tri.wait := s.clkPass_tri_wait _
@[simp] theorem State.pass_tri_rpt (d : Nat) : (s.pass d).tri.rpt = s.tri.rpt := by obtain ⟨_, _, _, _, _, h⟩ := s.pass_cases d; rw [h]
@[simp] theorem State.clkPass_tri_rpt (d : Nat) : (s.clkPass d).tri.rpt = s.tri.rpt := by obtain ⟨_, _, _, _, h⟩ := s.clkPass_cases d; rw [h]
@[simp] theorem State.until_tri_rpt (x : Nat) : (s.until x).tri.rpt = s.tri.rpt := s.pass_tri_rpt _
@[simp] theorem State.tick_tri_rpt (n : Nat) : (s.tick n).tri.rpt = s.tri.rpt := s.clkPass_tri_rpt _


/-! What passes of chain time and of Trifle's clock. -/

/-- Outside Frost chain time passes exactly (R21). -/
theorem State.pass_time (d : Nat) (h : s.isOn DBG_STAT.FROST = false) : (s.pass d).time = s.time + d := by
  unfold State.pass; split
  · omega
  · rw [h, if_neg (by simp)]; split <;> rfl

/-- Under Frost chain time stands, and the fabric counter runs on (R158, R358). -/
theorem State.pass_frost (d : Nat) (h : s.isOn DBG_STAT.FROST = true) :
    (s.pass d).time = s.time ∧ (s.pass d).chn.fabOff = s.chn.fabOff + d := by
  unfold State.pass
  by_cases hd : d = 0
  · subst hd; exact ⟨rfl, by simp⟩
  · rw [if_neg hd, if_pos h]; exact ⟨rfl, rfl⟩

/-- A time outside Frost is reached, if it is not past (R21). -/
theorem State.until_time (t : Nat) (h : s.isOn DBG_STAT.FROST = false) : (s.until t).time = max s.time t := by
  rw [State.until, s.pass_time _ h]; omega

/-- Nothing passes until an instant that is past. -/
theorem State.until_past (t : Nat) (h : t ≤ s.time) : s.until t = s := by
  unfold State.until State.pass; rw [if_pos (by omega)]

/-- Trifle's clock advances by whole tc exactly (R218). -/
theorem State.tick_clk (n : Nat) : (s.tick n).tri.clk = s.tri.clk + 16 * n := by
  unfold State.tick State.clkPass; split
  · omega
  · rfl

/-! Reads after writes: registers. -/

@[simp] theorem State.rdReg_wrReg_same (a v : Nat) : (s.wrReg a v).rdReg a = v % 2 ^ 32 := by
  simp [State.rdReg, State.wrReg]

theorem State.rdReg_wrReg_other (a v b : Nat) (h : b ≠ a) : (s.wrReg a v).rdReg b = s.rdReg b := by
  simp [State.rdReg, State.wrReg, SMap.get_set_other _ _ _ _ _ h]

theorem State.rdReg_lt (a : Nat) : s.rdReg a < 2 ^ 32 := (SMap.get regReset s.regs a).isLt

/-- A replaced field reads as its new value. -/
theorem bits_setBits_same (x hi lo v : Nat) (h : lo ≤ hi) : bits (setBits x hi lo v) hi lo = v % 2 ^ (hi + 1 - lo) := by
  unfold bits setBits
  obtain ⟨w, rfl⟩ : ∃ w, hi = lo + w := ⟨hi - lo, by omega⟩
  have e : lo + w + 1 - lo = w + 1 := by omega
  have e2 : (2 : Nat) ^ (lo + w + 1) = 2 ^ (w + 1) * 2 ^ lo := by rw [← Nat.pow_add]; congr 1; omega
  rw [e, e2]
  have hp : 0 < 2 ^ lo := Nat.pow_pos (by decide)
  have hq : 0 < 2 ^ (w + 1) := Nat.pow_pos (by decide)
  have : x / (2 ^ (w + 1) * 2 ^ lo) * (2 ^ (w + 1) * 2 ^ lo) + v % 2 ^ (w + 1) * 2 ^ lo + x % 2 ^ lo
      = (x / (2 ^ (w + 1) * 2 ^ lo) * 2 ^ (w + 1) + v % 2 ^ (w + 1)) * 2 ^ lo + x % 2 ^ lo := by
    rw [Nat.add_mul, Nat.mul_assoc]
  rw [this, Nat.mul_comm _ (2 ^ lo), Nat.mul_add_div hp, Nat.div_eq_of_lt (Nat.mod_lt _ hp), Nat.add_zero,
    Nat.add_comm, Nat.add_mul_mod_self_right, Nat.mod_mod]

/-- Fields above a replaced field stay. -/
theorem bits_setBits_above (x hi lo v hi' lo' : Nat) (h : lo ≤ hi) (h' : hi < lo') :
    bits (setBits x hi lo v) hi' lo' = bits x hi' lo' := by
  unfold bits setBits
  congr 1
  obtain ⟨d, rfl⟩ : ∃ d, lo' = hi + 1 + d := ⟨lo' - (hi + 1), by omega⟩
  have hp : 0 < 2 ^ (hi + 1) := Nat.pow_pos (by decide)
  have hlow : v % 2 ^ (hi + 1 - lo) * 2 ^ lo + x % 2 ^ lo < 2 ^ (hi + 1) := by
    have h1 : v % 2 ^ (hi + 1 - lo) + 1 ≤ 2 ^ (hi + 1 - lo) := Nat.mod_lt _ (Nat.pow_pos (by decide))
    have h2 : x % 2 ^ lo < 2 ^ lo := Nat.mod_lt _ (Nat.pow_pos (by decide))
    have h3 : 2 ^ (hi + 1) = 2 ^ (hi + 1 - lo) * 2 ^ lo := by rw [← Nat.pow_add]; congr 1; omega
    calc v % 2 ^ (hi + 1 - lo) * 2 ^ lo + x % 2 ^ lo
        < v % 2 ^ (hi + 1 - lo) * 2 ^ lo + 2 ^ lo := by omega
      _ = (v % 2 ^ (hi + 1 - lo) + 1) * 2 ^ lo := by rw [Nat.add_mul, Nat.one_mul]
      _ ≤ 2 ^ (hi + 1 - lo) * 2 ^ lo := Nat.mul_le_mul_right _ h1
      _ = 2 ^ (hi + 1) := h3.symm
  have e : (2 : Nat) ^ (hi + 1 + d) = 2 ^ (hi + 1) * 2 ^ d := Nat.pow_add 2 (hi + 1) d
  rw [e, ← Nat.div_div_eq_div_mul, ← Nat.div_div_eq_div_mul, Nat.add_assoc, Nat.mul_comm (x / 2 ^ (hi + 1)),
    Nat.mul_add_div hp, Nat.div_eq_of_lt hlow, Nat.add_zero]

/-- Fields below a replaced field stay. -/
theorem bits_setBits_below (x hi lo v hi' lo' : Nat) (h : lo ≤ hi) (h' : hi' < lo) (h'' : lo' ≤ hi') :
    bits (setBits x hi lo v) hi' lo' = bits x hi' lo' := by
  have key : ∀ y : Nat, bits y hi' lo' = y % 2 ^ (hi' + 1) / 2 ^ lo' := by
    intro y
    unfold bits
    rw [show hi' + 1 = lo' + (hi' + 1 - lo') by omega, Nat.pow_add, Nat.mod_mul_right_div_self]
    congr 2; omega
  rw [key, key]
  congr 1
  unfold setBits
  obtain ⟨d, rfl⟩ : ∃ d, lo = hi' + 1 + d := ⟨lo - (hi' + 1), by omega⟩
  obtain ⟨w, rfl⟩ : ∃ w, hi = hi' + 1 + d + w := ⟨hi - (hi' + 1 + d), by omega⟩
  have e1 : x / 2 ^ (hi' + 1 + d + w + 1) * 2 ^ (hi' + 1 + d + w + 1)
      = 2 ^ (hi' + 1) * (2 ^ (d + w + 1) * (x / 2 ^ (hi' + 1 + d + w + 1))) := by
    rw [← Nat.mul_assoc, ← Nat.pow_add, Nat.mul_comm]; congr 2; omega
  have e2 : ∀ z : Nat, z * 2 ^ (hi' + 1 + d) = 2 ^ (hi' + 1) * (2 ^ d * z) := by
    intro z; rw [← Nat.mul_assoc, ← Nat.pow_add, Nat.mul_comm]
  rw [e1, e2, Nat.add_assoc, Nat.mul_add_mod, Nat.mul_add_mod, Nat.pow_add, Nat.mod_mul_right_mod]

/-- A field keeps 32 bits. -/
theorem setBits_lt (x hi lo v : Nat) (hx : x < 2 ^ 32) (h : lo ≤ hi) (hh : hi < 32) : setBits x hi lo v < 2 ^ 32 := by
  unfold setBits
  have h1 : v % 2 ^ (hi + 1 - lo) + 1 ≤ 2 ^ (hi + 1 - lo) := Nat.mod_lt _ (Nat.pow_pos (by decide))
  have h2 : x % 2 ^ lo < 2 ^ lo := Nat.mod_lt _ (Nat.pow_pos (by decide))
  have h3 : 2 ^ (hi + 1) = 2 ^ (hi + 1 - lo) * 2 ^ lo := by rw [← Nat.pow_add]; congr 1; omega
  have hlow : v % 2 ^ (hi + 1 - lo) * 2 ^ lo + x % 2 ^ lo < 2 ^ (hi + 1) := by
    calc v % 2 ^ (hi + 1 - lo) * 2 ^ lo + x % 2 ^ lo
        < v % 2 ^ (hi + 1 - lo) * 2 ^ lo + 2 ^ lo := by omega
      _ = (v % 2 ^ (hi + 1 - lo) + 1) * 2 ^ lo := by rw [Nat.add_mul, Nat.one_mul]
      _ ≤ 2 ^ (hi + 1 - lo) * 2 ^ lo := Nat.mul_le_mul_right _ h1
      _ = 2 ^ (hi + 1) := h3.symm
  have h4 : x / 2 ^ (hi + 1) < 2 ^ (32 - (hi + 1)) := by
    rw [Nat.div_lt_iff_lt_mul (Nat.pow_pos (by decide)), ← Nat.pow_add]
    rwa [show 32 - (hi + 1) + (hi + 1) = 32 by omega]
  have h5 : 2 ^ 32 = 2 ^ (32 - (hi + 1)) * 2 ^ (hi + 1) := by rw [← Nat.pow_add]; congr 1; omega
  calc x / 2 ^ (hi + 1) * 2 ^ (hi + 1) + v % 2 ^ (hi + 1 - lo) * 2 ^ lo + x % 2 ^ lo
      < x / 2 ^ (hi + 1) * 2 ^ (hi + 1) + 2 ^ (hi + 1) := by omega
    _ = (x / 2 ^ (hi + 1) + 1) * 2 ^ (hi + 1) := by rw [Nat.add_mul, Nat.one_mul]
    _ ≤ 2 ^ (32 - (hi + 1)) * 2 ^ (hi + 1) := Nat.mul_le_mul_right _ h4
    _ = 2 ^ 32 := h5.symm

/-- A field lies within a 32-bit register. -/
abbrev Fld.ok (f : Fld) : Prop := f.lo ≤ f.hi ∧ f.hi < 32

/-- A written field reads as its value, cut to its width. -/
theorem State.rd_wr_same (f : Fld) (v : Nat) (h : f.ok) : (s.wr f v).rd f = v % 2 ^ (f.hi + 1 - f.lo) := by
  unfold State.rd State.wr
  rw [State.rdReg_wrReg_same, Nat.mod_eq_of_lt (setBits_lt _ _ _ _ (s.rdReg_lt _) h.1 h.2), bits_setBits_same _ _ _ _ h.1]

/-- Fields of other registers stay. -/
theorem State.rd_wr_other (f g : Fld) (v : Nat) (h : g.addr ≠ f.addr) : (s.wr f v).rd g = s.rd g := by
  unfold State.rd State.wr
  rw [State.rdReg_wrReg_other _ _ _ _ h]

/-- Other fields of the same register stay. -/
theorem State.rd_wr_apart (f g : Fld) (v : Nat) (h : f.ok) (ha : g.addr = f.addr) (hg : g.lo ≤ g.hi)
    (hd : f.hi < g.lo ∨ g.hi < f.lo) : (s.wr f v).rd g = s.rd g := by
  unfold State.rd State.wr
  rw [ha, State.rdReg_wrReg_same, Nat.mod_eq_of_lt (setBits_lt _ _ _ _ (s.rdReg_lt _) h.1 h.2)]
  rcases hd with hd | hd
  · rw [bits_setBits_above _ _ _ _ _ _ h.1 hd]
  · rw [bits_setBits_below _ _ _ _ _ _ h.1 hd hg]

/-- A field that does not meet a written one stays. -/
abbrev Fld.apart (f g : Fld) : Prop := g.addr ≠ f.addr ∨ (f.ok ∧ g.lo ≤ g.hi ∧ (f.hi < g.lo ∨ g.hi < f.lo))

theorem State.rd_wr_frame (f g : Fld) (v : Nat) (h : f.apart g) : (s.wr f v).rd g = s.rd g := by
  by_cases ha : g.addr = f.addr
  · rcases h with h | h
    · exact absurd ha h
    · exact s.rd_wr_apart f g v h.1 ha h.2.1 h.2.2
  · exact s.rd_wr_other f g v ha

theorem State.on_wr (f : Fld) : s.on f = s.wr f (2 ^ (f.hi + 1 - f.lo) - 1) := rfl
theorem State.off_wr (f : Fld) : s.off f = s.wr f 0 := rfl
theorem State.put_wr (f : Fld) (b : Bool) : s.put f b = s.wr f (b2n b) := rfl
theorem State.bump_wr (f : Fld) : s.bump f = s.wr f (min (s.rd f + 1) (2 ^ (f.hi + 1 - f.lo) - 1)) := rfl
theorem State.gain_wr (f : Fld) (n : Nat) : s.gain f n = s.wr f (min (s.rd f + n) (2 ^ (f.hi + 1 - f.lo) - 1)) := rfl
theorem State.bumpWrap_wr (f : Fld) : s.bumpWrap f = s.wr f (s.rd f + 1) := rfl
theorem State.orBits_wr (f : Fld) (m : Nat) : s.orBits f m = s.wr f (Nat.lor (s.rd f) m) := rfl
theorem State.clearBits_wr (f : Fld) (m : Nat) :
    s.clearBits f m = s.wr f (Nat.land (s.rd f) (Nat.xor (Nat.lor (s.rd f) m) m)) := rfl

/-- A field is below two to its width. -/
theorem State.rd_lt (f : Fld) : s.rd f < 2 ^ (f.hi + 1 - f.lo) := Nat.mod_lt _ (Nat.pow_pos (by decide))

/-- Writes of another part of State leave every register. -/
theorem State.rd_congr {s t : State} (h : t.regs = s.regs) (f : Fld) : t.rd f = s.rd f := by
  simp [State.rd, State.rdReg, h]

theorem State.isOn_congr {s t : State} (h : t.regs = s.regs) (f : Fld) : t.isOn f = s.isOn f := by
  simp [State.isOn, State.rd_congr h]

/-! Reads after writes: stored bytes. -/

theorem State.byte_congr {s t : State} (h : t.mem = s.mem) (a : Nat) : t.byte a = s.byte a := by simp [State.byte, h]

@[simp] theorem State.byte_setByte_same (a : Nat) (b : Byte) : (s.setByte a b).byte a = b := by
  simp [State.byte, State.setByte]

theorem State.byte_setByte_other (a : Nat) (b : Byte) (x : Nat) (h : x ≠ a) : (s.setByte a b).byte x = s.byte x := by
  simp [State.byte, State.setByte, SMap.get_set_other _ _ _ _ _ h]

theorem memPut_get (bs : List Byte) : ∀ (m : List Host.Cell) (a x : Nat),
    SMap.get memDefault (memPut m a bs) x =
      if h : a ≤ x ∧ x < a + bs.length then bs[x - a]'(by omega) else SMap.get memDefault m x := by
  induction bs with
  | nil => intro m a x; simp [memPut] <;> omega
  | cons b t ih =>
    intro m a x
    rw [memPut, ih, SMap.get_set]
    by_cases h1 : x = a
    · subst h1
      rw [dif_neg (by omega), dif_pos (by simp), if_pos rfl]; simp
    · by_cases h2 : a + 1 ≤ x ∧ x < a + 1 + t.length
      · have h3 : a ≤ x ∧ x < a + (b :: t).length := by simp only [List.length_cons]; omega
        rw [dif_pos h2, dif_pos h3]
        have : x - a = (x - (a + 1)) + 1 := by omega
        simp [this]
      · have h3 : ¬(a ≤ x ∧ x < a + (b :: t).length) := by simp only [List.length_cons]; omega
        rw [dif_neg h2, dif_neg h3, if_neg h1]

/-- Stored bytes read back. -/
theorem State.byte_setBytes_in (a : Nat) (bs : List Byte) (x : Nat) (h : a ≤ x ∧ x < a + bs.length) :
    (s.setBytes a bs).byte x = bs[x - a]'(by omega) := by
  simp only [State.byte, State.setBytes, memPut_get, dif_pos h]

/-- Every other byte stays. -/
theorem State.byte_setBytes_out (a : Nat) (bs : List Byte) (x : Nat) (h : x < a ∨ a + bs.length ≤ x) :
    (s.setBytes a bs).byte x = s.byte x := by
  simp only [State.byte, State.setBytes, memPut_get]
  rw [dif_neg (by omega)]

/-! The canonical form of memory. -/

/-- Memory is in its canonical form. -/
theorem memPut_wf (bs : List Byte) : ∀ (m : List Host.Cell) (a : Nat), SMap.wf memDefault m = true →
    SMap.wf memDefault (memPut m a bs) = true := by
  induction bs with
  | nil => intro m a h; exact h
  | cons b t ih => intro m a h; exact ih _ _ (SMap.wf_set _ _ _ _ h)

/-- Copying a region to a range with the same default keeps the canonical form. -/
theorem copyRegion_wf {α : Type} [DecidableEq α] (d : Nat → α) (m : List (Nat × α)) (a b n : Nat) (h : SMap.wf d m = true)
    (hd : ∀ i, i < n → d (a + i) = d (b + i)) : SMap.wf d (copyRegion m a b n) = true := by
  suffices H : ∀ (l acc : List (Nat × α)) (lo : Nat), SMap.wfFrom d lo l = true → SMap.wf d acc = true →
      (∀ c ∈ acc, ∀ e ∈ l, a ≤ e.1 → e.1 < a + n → c.1 ≠ e.1 - a + b) →
      SMap.wf d (((l.filter (fun c => decide (a ≤ c.1) && decide (c.1 < a + n))).map (fun c => (c.1 - a + b, c.2))).foldl
        (fun acc c => SMap.insert c.1 c.2 acc) acc) = true by
    refine H m (SMap.clear m b (b + n)) 0 h (SMap.wf_clear d m b (b + n) h) ?_
    intro c hc e _ h1 h2
    unfold SMap.clear at hc
    have := (List.mem_filter.1 hc).2
    simp only [Bool.or_eq_true, decide_eq_true_eq] at this
    omega
  intro l
  induction l with
  | nil => intro acc lo _ h _; exact h
  | cons x t ih =>
    obtain ⟨k, v⟩ := x
    intro acc lo hl hacc hne
    rw [SMap.wfFrom_cons] at hl
    by_cases hk : a ≤ k ∧ k < a + n
    · rw [List.filter_cons_of_pos (by simpa using hk), List.map_cons, List.foldl_cons]
      refine ih _ (k + 1) hl.2.2 ?_ ?_
      · refine SMap.wf_insert d acc _ _ hacc ?_ (fun c hc => hne c hc (k, v) (by simp) hk.1 hk.2)
        have := hd (k - a) (by omega)
        rw [show a + (k - a) = k by omega, show b + (k - a) = k - a + b by omega] at this
        rw [← this]; exact hl.2.1
      · intro c hc e he h1 h2
        rcases SMap.mem_insert _ _ _ _ hc with rfl | hc
        · have := (SMap.key_ge d t (k + 1) hl.2.2 e he).1
          simp only; omega
        · exact hne c hc e (by simp [he]) h1 h2
    · rw [List.filter_cons_of_neg (by simpa using hk)]
      exact ih acc (k + 1) hl.2.2 hacc (fun c hc e he => hne c hc e (by simp [he]))

/-! Trifle's registers. -/

@[simp] theorem State.g_zero : s.g 0 = 0 := rfl

theorem State.g_setG (r : Nat) (v : Word) (x : Nat) (h : r ≠ 0) : (s.setG r v).g x = if x = r then v else s.g x := by
  unfold State.setG State.g
  by_cases hx : x = 0
  · subst hx; simp [Ne.symm h]
  · simp [h, hx, SMap.get_set]

/-- A write to G0 is discarded. -/
@[simp] theorem State.setG_zero (v : Word) : s.setG 0 v = s := rfl

theorem State.f_setF (r v x : Nat) : (s.setF r v).f x = if x = r then BitVec.ofNat 64 v else s.f x := by
  simp [State.f, State.setF, SMap.get_set]

theorem State.v_setV (r v x : Nat) : (s.setV r v).v x = if x = r then BitVec.ofNat 128 v else s.v x := by
  simp [State.v, State.setV, SMap.get_set]

@[simp] theorem State.p_zero : s.p 0 = BitVec.allOnes 64 := rfl

theorem State.p_setP (r : Nat) (v : Word) (x : Nat) (h : r ≠ 0) : (s.setP r v).p x = if x = r then v else s.p x := by
  unfold State.setP State.p
  by_cases hx : x = 0
  · subst hx; simp [Ne.symm h]
  · simp [h, hx, SMap.get_set]

/-- A write to P0 is discarded. -/
@[simp] theorem State.setP_zero (v : Word) : s.setP 0 v = s := rfl

theorem State.c_setC (r : Nat) (c : Cap) (x : Nat) : (s.setC r c).c x = if x = r then c else s.c x := by
  simp [State.c, State.setC, SMap.get_set]

theorem State.sp_setSp (n v x : Nat) : (s.setSp n v).sp x = if x = n then BitVec.ofNat 64 v else s.sp x := by
  simp [State.sp, State.setSp, SMap.get_set]

end Sys2Proof.Machine
end

