-- ==== Sys2Proof/Laws/Memory.lean ====
section
/-! SUPPORT. Laws/Memory.lean: stored bytes read and written through the SECDED code where no stored bit is inverted. -/

namespace Sys2Proof.Machine

/-! Little-endian bytes. -/

@[simp] theorem toBytes_length (n x : Nat) : (toBytes n x).length = n := by
  induction n generalizing x with
  | zero => rfl
  | succ n ih => simp [toBytes, ih]

/-- The bytes of the number that bytes spell are those bytes (R5). -/
theorem toBytes_ofBytes (bs : List Byte) : toBytes bs.length (ofBytes bs) = bs := by
  induction bs with
  | nil => rfl
  | cons b t ih =>
    have h1 : (b.toNat + 256 * ofBytes t) / 256 = ofBytes t := by
      have := b.isLt; omega
    have h2 : BitVec.ofNat 8 (b.toNat + 256 * ofBytes t) = b := by
      apply BitVec.eq_of_toNat_eq
      have := b.isLt
      simp; omega
    simp only [List.length_cons, toBytes, ofBytes, h1, h2, ih]

/-- The number that the n bytes of x spell is x modulo 2^(8n). -/
theorem ofBytes_toBytes (n x : Nat) : ofBytes (toBytes n x) = x % 256 ^ n := by
  induction n generalizing x with
  | zero => simp [toBytes, ofBytes, Nat.mod_one]
  | succ n ih =>
    have e : x % 256 ^ (n + 1) = x % 256 + 256 * (x / 256 % 256 ^ n) := by rw [Nat.pow_succ', Nat.mod_mul]
    rw [e, ← ih]; rfl

/-! Runs of stored bytes. -/

variable (s : State)

@[simp] theorem State.bytes_length (a n : Nat) : (s.bytes a n).length = n := by
  induction n generalizing a with
  | zero => rfl
  | succ n ih => simp [State.bytes, ih]

theorem State.bytes_add (a n m : Nat) : s.bytes a (n + m) = s.bytes a n ++ s.bytes (a + n) m := by
  induction n generalizing a with
  | zero => simp [State.bytes]
  | succ n ih => rw [Nat.succ_add]; simp [State.bytes, ih, Nat.add_assoc, Nat.add_comm 1]

theorem State.bytes_get (a n i : Nat) (h : i < n) : (s.bytes a n)[i]'(by simpa using h) = s.byte (a + i) := by
  induction n generalizing a i with
  | zero => omega
  | succ n ih =>
    cases i with
    | zero => simp [State.bytes]
    | succ i => simp only [State.bytes, List.getElem_cons_succ]; rw [ih (a + 1) i (by omega)]; congr 1; omega

theorem State.bytes_congr {s t : State} (a n : Nat) (h : ∀ x, a ≤ x → x < a + n → t.byte x = s.byte x) :
    t.bytes a n = s.bytes a n := by
  induction n generalizing a with
  | zero => rfl
  | succ n ih =>
    simp only [State.bytes, h a (Nat.le_refl a) (by omega), ih (a + 1) (fun x h1 h2 => h x (by omega) (by omega))]

theorem State.bytes_drop_take (a n k m : Nat) (h : k + m ≤ n) : ((s.bytes a n).drop k).take m = s.bytes (a + k) m := by
  obtain ⟨r, rfl⟩ : ∃ r, n = k + (m + r) := ⟨n - k - m, by omega⟩
  rw [State.bytes_add, List.drop_left' (s.bytes_length a k), State.bytes_add, List.take_left' (s.bytes_length _ m)]

/-! Clean granules. -/

/-- No stored bit of granule g is inverted, and none is stuck. -/
def State.clean (s : State) (g : Nat) : Prop :=
  SMap.get (fun _ => (0 : BitVec 8)) s.syn g = 0 ∧ SMap.get (fun _ => (0 : BitVec 72)) s.stuck g = 0

/-- A clean granule delivers its stored bytes. -/
theorem State.gran_clean (g : Nat) (h : s.clean g) : s.gran g = (s.num (8 * g) 8, 0) := by
  unfold State.gran; rw [h.1]; rfl

theorem gransOf_mem (a n g : Nat) : g ∈ gransOf a n ↔ 0 < n ∧ a / 8 ≤ g ∧ g ≤ (a + n - 1) / 8 := by
  unfold gransOf
  split
  · simp; omega
  · have : a / 8 ≤ (a + n - 1) / 8 := Nat.div_le_div_right (by omega)
    simp only [upto, List.mem_map, List.mem_range]
    constructor
    · rintro ⟨i, hi, rfl⟩; omega
    · rintro ⟨h0, h1, h2⟩; exact ⟨g - a / 8, by omega, by omega⟩

theorem State.flat_bytes (q k : Nat) :
    ((upto k).map (· + q)).flatMap (fun g => s.bytes (8 * g) 8) = s.bytes (8 * q) (8 * k) := by
  unfold upto
  induction k with
  | zero => rfl
  | succ k ih =>
    rw [List.range_succ, List.map_append, List.flatMap_append, ih, Nat.mul_succ, State.bytes_add]
    simp [Nat.mul_add, Nat.add_comm]

/-- A read of clean granules delivers the stored bytes, and the decoder finds nothing (R65). -/
theorem State.eccRead_clean (a n : Nat) (h : ∀ g ∈ gransOf a n, s.clean g) : s.eccRead a n = (s.bytes a n, []) := by
  have e1 : (gransOf a n).map (fun g => let (d, y) := s.gran g; (⟨g, y, d⟩ : GEv))
      = (gransOf a n).map (fun g => (⟨g, 0, s.num (8 * g) 8⟩ : GEv)) :=
    List.map_congr_left (fun g hg => by simp only [s.gran_clean g (h g hg)])
  unfold State.eccRead
  simp only [e1]
  congr 1
  · rw [List.flatMap_map]
    have e2 : ∀ g, toBytes 8 (s.num (8 * g) 8) = s.bytes (8 * g) 8 := by
      intro g
      have := toBytes_ofBytes (s.bytes (8 * g) 8)
      rwa [State.bytes_length] at this
    simp only [e2]
    unfold gransOf
    split
    · next h0 => subst h0; simp [State.bytes]
    · next h0 =>
      rw [State.flat_bytes, State.bytes_drop_take _ _ _ _ _ (by omega)]
      congr 1; omega
  · rw [List.filter_eq_nil_iff]; simp

theorem ofBytes_lt (bs : List Byte) : ofBytes bs < 2 ^ (8 * bs.length) := by
  induction bs with
  | nil => simp [ofBytes]
  | cons b t ih =>
    have hb : b.toNat < 256 := b.isLt
    have e : 2 ^ (8 * (b :: t).length) = 2 ^ (8 * t.length) * 256 := by
      rw [List.length_cons, Nat.mul_succ, Nat.pow_add]
    rw [e]
    show b.toNat + 256 * ofBytes t < _
    omega

theorem ofBytes_append (x y : List Byte) : ofBytes (x ++ y) = ofBytes x + 2 ^ (8 * x.length) * ofBytes y := by
  induction x with
  | nil => simp [ofBytes]
  | cons b t ih =>
    have e : 2 ^ (8 * (b :: t).length) = 256 * 2 ^ (8 * t.length) := by
      rw [List.length_cons, Nat.mul_succ, Nat.pow_add, Nat.mul_comm]
    rw [e, Nat.mul_assoc]
    show b.toNat + 256 * ofBytes (t ++ y) = b.toNat + 256 * ofBytes t + _
    rw [ih]; omega

/-- Merging bytes into a granule's number is replacing those of its bytes. -/
theorem mergeGran_bytes (x y z : List Byte) (h : x.length + y.length + z.length = 8) (bs : List Byte)
    (hb : bs.length = y.length) (h0 : 0 < bs.length) :
    mergeGran (ofBytes (x ++ y ++ z)) x.length bs = ofBytes (x ++ bs ++ z) := by
  have hx := ofBytes_lt x
  have hy := ofBytes_lt y
  have hbs := ofBytes_lt bs
  unfold mergeGran setBits
  have e1 : 8 * (x.length + bs.length) - 1 + 1 = 8 * x.length + 8 * bs.length := by omega
  have e2 : 8 * (x.length + bs.length) - 1 + 1 - 8 * x.length = 8 * bs.length := by omega
  rw [e2, e1, Nat.mod_eq_of_lt hbs, List.append_assoc, List.append_assoc, ofBytes_append x, ofBytes_append x,
    ofBytes_append y, ofBytes_append bs, Nat.pow_add]
  have hp : 0 < 2 ^ (8 * x.length) := Nat.pow_pos (by decide)
  have hq : 0 < 2 ^ (8 * bs.length) := Nat.pow_pos (by decide)
  rw [← Nat.div_div_eq_div_mul, Nat.add_comm (ofBytes x), Nat.mul_add_div hp, Nat.div_eq_of_lt hx, Nat.add_zero,
    Nat.mul_add_mod, Nat.mod_eq_of_lt hx, hb, Nat.add_comm (ofBytes y), Nat.mul_add_div (hb ▸ hq),
    Nat.div_eq_of_lt hy, Nat.add_zero, Nat.mul_add, Nat.mul_comm (ofBytes bs),
    Nat.mul_comm (ofBytes z), Nat.mul_assoc]
  omega

theorem State.putGran_clean (g : Nat) (bs : List Byte) (hb : bs.length = 8) (h : s.clean g) :
    s.putGran g (ofBytes bs) = { s.setBytes (8 * g) bs with syn := SMap.erase g s.syn } := by
  unfold State.putGran
  rw [h.2]
  show ({ s.setNum (8 * g) 8 (ofBytes bs) with syn := SMap.erase g s.syn } : State) = _
  unfold State.setNum
  have := toBytes_ofBytes bs
  rw [hb] at this; rw [this]

/-- What a write of clean granules leaves: memory and check bits may change, the written bytes read back, every other byte
reads as before, and the granules are as clean as they were. -/
structure State.Wrote (s t : State) (a : Nat) (bs : List Byte) : Prop where
  rest : t = { s with mem := t.mem, syn := t.syn }
  inside : ∀ i (h : i < bs.length), t.byte (a + i) = bs[i]
  outside : ∀ x, x < a ∨ a + bs.length ≤ x → t.byte x = s.byte x
  clean : ∀ g, s.clean g → t.clean g

theorem State.Wrote.nil (a : Nat) : State.Wrote s s a [] :=
  ⟨rfl, fun _ h => absurd h (by simp), fun _ _ => rfl, fun _ h => h⟩

theorem State.Wrote.append {s t u : State} {a : Nat} {x y : List Byte} (h1 : State.Wrote s t a x)
    (h2 : State.Wrote t u (a + x.length) y) : State.Wrote s u a (x ++ y) := by
  refine ⟨?_, ?_, ?_, fun g hg => h2.clean g (h1.clean g hg)⟩
  · rw [h2.rest, h1.rest]
  · intro i hi
    by_cases h : i < x.length
    · rw [List.getElem_append_left h, h2.outside _ (by omega), h1.inside i h]
    · rw [List.getElem_append_right (by omega), ← h2.inside (i - x.length) (by simp at hi; omega)]
      congr 1; omega
  · intro z hz
    rw [List.length_append] at hz
    rw [h2.outside z (by omega), h1.outside z (by omega)]

/-- One piece of a write, within a clean granule. -/
theorem State.writePart_clean (g off : Nat) (bs : List Byte) (h : s.clean g) (hb : 0 < bs.length) (ho : off + bs.length ≤ 8) :
    ∃ t, s.writePart (g, off, bs) = (t, []) ∧ State.Wrote s t (8 * g + off) bs := by
  have keepClean : ∀ t : State, t.syn = SMap.erase g s.syn → t.stuck = s.stuck → ∀ k, s.clean k → t.clean k := by
    intro t h1 h2 k hk
    refine ⟨?_, by rw [h2]; exact hk.2⟩
    rw [h1, SMap.get_erase]; split
    · rfl
    · exact hk.1
  by_cases h8 : bs.length = 8
  · refine ⟨_, by simp only [State.writePart, h8, if_true]; rfl, ?_⟩
    have h0 : off = 0 := by omega
    subst h0
    rw [s.putGran_clean g bs h8 h]
    refine ⟨rfl, ?_, ?_, keepClean _ rfl rfl⟩
    · intro i hi
      have := s.byte_setBytes_in (8 * g) bs (8 * g + i) (by omega)
      refine Eq.trans this ?_
      congr 1; omega
    · intro x hx; exact s.byte_setBytes_out (8 * g) bs x (by simpa using hx)
  · have e : s.num (8 * g) 8 = ofBytes (s.bytes (8 * g) off ++ s.bytes (8 * g + off) bs.length
        ++ s.bytes (8 * g + off + bs.length) (8 - off - bs.length)) := by
      unfold State.num
      rw [← State.bytes_add, Nat.add_assoc (8 * g), ← State.bytes_add]
      congr 2; omega
    have em := mergeGran_bytes (s.bytes (8 * g) off) (s.bytes (8 * g + off) bs.length)
      (s.bytes (8 * g + off + bs.length) (8 - off - bs.length)) (by simp; omega) bs (by simp) hb
    simp only [State.bytes_length] at em
    refine ⟨_, by
      simp only [State.writePart, h8, if_false, s.gran_clean g h]
      rw [if_neg (by decide)]
      simp only [if_true]; rfl, ?_⟩
    rw [e, em, s.putGran_clean g _ (by simp; omega) h]
    generalize hL : s.bytes (8 * g) off ++ bs ++ s.bytes (8 * g + off + bs.length) (8 - off - bs.length) = L
    have hLl : L.length = 8 := by rw [← hL]; simp; omega
    refine ⟨rfl, ?_, ?_, keepClean _ rfl rfl⟩
    · intro i hi
      refine Eq.trans (s.byte_setBytes_in (8 * g) L (8 * g + off + i) (by omega)) ?_
      have : 8 * g + off + i - 8 * g = off + i := by omega
      simp only [this]
      subst hL
      rw [List.getElem_append_left (by simp; omega), List.getElem_append_right (by simp)]
      congr 1; simp
    · intro x hx
      by_cases hin : 8 * g ≤ x ∧ x < 8 * g + 8
      · refine Eq.trans (s.byte_setBytes_in (8 * g) L x (by omega)) ?_
        subst hL
        by_cases hl : x < 8 * g + off
        · rw [List.getElem_append_left (by simp; omega), List.getElem_append_left (by simp; omega),
            s.bytes_get _ _ _ (by omega), show 8 * g + (x - 8 * g) = x by omega]
        · rw [List.getElem_append_right (by simp; omega), s.bytes_get _ _ _ (by simp; omega)]
          simp only [List.length_append, State.bytes_length]
          rw [show 8 * g + off + bs.length + (x - 8 * g - (off + bs.length)) = x by omega]
      · exact s.byte_setBytes_out (8 * g) L x (by omega)

/-- A write to clean granules stores its bytes and finds nothing (R65). -/
theorem State.eccWrite_clean (a : Nat) (bs : List Byte) (h : ∀ g ∈ gransOf a bs.length, s.clean g) :
    ∃ t, s.eccWrite a bs = (t, []) ∧ State.Wrote s t a bs := by
  have H : ∀ (f : Nat) (a : Nat) (bs : List Byte) (s : State), bs.length ≤ f → (∀ g ∈ gransOf a bs.length, s.clean g) →
      ∃ t, (granParts f a bs).foldl (fun acc p => let (s', e) := acc.1.writePart p; (s', acc.2 ++ e)) (s, ([] : List GEv))
        = (t, []) ∧ State.Wrote s t a bs := by
    intro f
    induction f with
    | zero =>
      intro a bs s hf _
      have : bs = [] := List.length_eq_zero_iff.1 (by omega)
      subst this; exact ⟨s, rfl, State.Wrote.nil s a⟩
    | succ f ih =>
      intro a bs s hf hc
      by_cases h0 : bs = []
      · subst h0; exact ⟨s, rfl, State.Wrote.nil s a⟩
      · have hpos : 0 < bs.length := List.length_pos_iff.2 h0
        simp only [granParts, if_neg h0, List.foldl_cons]
        generalize hk : min (8 - a % 8) bs.length = k
        have hk1 : 0 < k := by omega
        have hk2 : k ≤ bs.length := by omega
        have hg : s.clean (a / 8) := hc _ ((gransOf_mem _ _ _).2 ⟨hpos, Nat.le_refl _, Nat.div_le_div_right (by omega)⟩)
        obtain ⟨t, ht, hw⟩ := s.writePart_clean (a / 8) (a % 8) (bs.take k) hg (by simp; omega) (by simp; omega)
        simp only [ht, List.append_nil]
        have ea : 8 * (a / 8) + a % 8 = a := Nat.div_add_mod a 8
        rw [ea] at hw
        have hl : (bs.take k).length = k := by simp; omega
        obtain ⟨u, hu, hw2⟩ := ih (a + k) (bs.drop k) t (by simp; omega) (by
          intro g hg'
          refine hw.clean g (hc g ?_)
          rw [gransOf_mem] at hg' ⊢
          simp only [List.length_drop] at hg'
          refine ⟨hpos, Nat.le_trans (Nat.div_le_div_right (by omega)) hg'.2.1, ?_⟩
          refine Nat.le_trans hg'.2.2 (Nat.div_le_div_right (by omega)))
        refine ⟨u, hu, ?_⟩
        have := State.Wrote.append hw (by rw [hl]; exact hw2)
        rwa [List.take_append_drop] at this
  exact H bs.length a bs s (Nat.le_refl _) h

end Sys2Proof.Machine
end

