-- ==== Sys2Proof/Laws/Dispatch.lean ====
section
/-! SUPPORT. Laws/Dispatch.lean: each command's meaning, as `exec` dispatches to it. -/

namespace Sys2Proof.Machine

@[simp] theorem exec_registerWrite (s : State) master secure addr value : exec (.registerWrite master secure addr value) s = execRegisterWrite master secure addr value s := rfl
@[simp] theorem exec_bulkAccess (s : State) asker write addr len data upsets : exec (.bulkAccess asker write addr len data upsets) s = execBulkAccess asker write addr len data upsets s := rfl
@[simp] theorem exec_bulkReRead (s : State) addr : exec (.bulkReRead addr) s = execBulkReRead addr s := rfl
@[simp] theorem exec_latticeAccess (s : State) reqs upsets : exec (.latticeAccess reqs upsets) s = execLatticeAccess reqs upsets s := rfl
@[simp] theorem exec_readData (s : State) : exec (.readData) s = execReadData s := rfl
@[simp] theorem exec_writeHalf (s : State) bank : exec (.writeHalf bank) s = execWriteHalf bank s := rfl
@[simp] theorem exec_eccWriteBack (s : State) pbank : exec (.eccWriteBack pbank) s = execEccWriteBack pbank s := rfl
@[simp] theorem exec_eccReRead (s : State) pbank : exec (.eccReRead pbank) s = execEccReRead pbank s := rfl
@[simp] theorem exec_phaseTableActivate (s : State) : exec (.phaseTableActivate) s = execPhaseTableActivate s := rfl
@[simp] theorem exec_scrub (s : State) upsets : exec (.scrub upsets) s = execScrub upsets s := rfl
@[simp] theorem exec_spareCmd (s : State) lbank : exec (.spareCmd lbank) s = execSpareCmd lbank s := rfl
@[simp] theorem exec_sparePendClear (s : State) n mask : exec (.sparePendClear n mask) s = execSparePendClear n mask s := rfl
@[simp] theorem exec_copyStart (s : State) : exec (.copyStart) s = execCopyStart s := rfl
@[simp] theorem exec_rowCopy (s : State) : exec (.rowCopy) s = execRowCopy s := rfl
@[simp] theorem exec_spareSwitch (s : State) : exec (.spareSwitch) s = execSpareSwitch s := rfl
@[simp] theorem exec_spareEntryWrite (s : State) spare state lbank : exec (.spareEntryWrite spare state lbank) s = execSpareEntryWrite spare state lbank s := rfl
@[simp] theorem exec_descriptorFetch (s : State) chain dec : exec (.descriptorFetch chain dec) s = execDescriptorFetch chain dec s := rfl
@[simp] theorem exec_tableLoad (s : State) load : exec (.tableLoad load) s = execTableLoad load s := rfl
@[simp] theorem exec_streamRead (s : State) chain port dec : exec (.streamRead chain port dec) s = execStreamRead chain port dec s := rfl
@[simp] theorem exec_streamWrite (s : State) chain port diff : exec (.streamWrite chain port diff) s = execStreamWrite chain port diff s := rfl
@[simp] theorem exec_stopWriteBack (s : State) chain diff : exec (.stopWriteBack chain diff) s = execStopWriteBack chain diff s := rfl
@[simp] theorem exec_qsinkMessage (s : State) chain port diff : exec (.qsinkMessage chain port diff) s = execQsinkMessage chain port diff s := rfl
@[simp] theorem exec_load (s : State) : exec (.load) s = execLoad s := rfl
@[simp] theorem exec_cctLoadDone (s : State) : exec (.cctLoadDone) s = execCctLoadDone s := rfl
@[simp] theorem exec_commit (s : State) : exec (.commit) s = execCommit s := rfl
@[simp] theorem exec_ribDone (s : State) : exec (.ribDone) s = execRibDone s := rfl
@[simp] theorem exec_lanemapWrite (s : State) strand value : exec (.lanemapWrite strand value) s = execLanemapWrite strand value s := rfl
@[simp] theorem exec_runSet (s : State) : exec (.runSet) s = execRunSet s := rfl
@[simp] theorem exec_runClear (s : State) : exec (.runClear) s = execRunClear s := rfl
@[simp] theorem exec_checkPass (s : State) : exec (.checkPass) s = execCheckPass s := rfl
@[simp] theorem exec_stoppedEntry (s : State) : exec (.stoppedEntry) s = execStoppedEntry s := rfl
@[simp] theorem exec_roundBoundary (s : State) : exec (.roundBoundary) s = execRoundBoundary s := rfl
@[simp] theorem exec_nop (s : State) : exec (.nop) s = execNop s := rfl
@[simp] theorem exec_wait (s : State) cyc : exec (.wait cyc) s = execWait cyc s := rfl
@[simp] theorem exec_launch (s : State) strands chain : exec (.launch strands chain) s = execLaunch strands chain s := rfl
@[simp] theorem exec_slot (s : State) lead list strands endRcr : exec (.slot lead list strands endRcr) s = execSlot lead list strands endRcr s := rfl
@[simp] theorem exec_reserve (s : State) endRcr : exec (.reserve endRcr) s = execReserve endRcr s := rfl
@[simp] theorem exec_exch (s : State) deadline dir count first : exec (.exch deadline dir count first) s = execExch deadline dir count first s := rfl
@[simp] theorem exec_move (s : State) desc mover : exec (.move desc mover) s = execMove desc mover s := rfl
@[simp] theorem exec_ptab (s : State) table : exec (.ptab table) s = execPtab table s := rfl
@[simp] theorem exec_mark (s : State) stamp irq n : exec (.mark stamp irq n) s = execMark stamp irq n s := rfl
@[simp] theorem exec_eventDoorbell (s : State) bells chan : exec (.eventDoorbell bells chan) s = execEventDoorbell bells chan s := rfl
@[simp] theorem exec_sendEvent (s : State) : exec (.sendEvent) s = execSendEvent s := rfl
@[simp] theorem exec_eventArm (s : State) list entry : exec (.eventArm list entry) s = execEventArm list entry s := rfl
@[simp] theorem exec_eventCancel (s : State) list entry : exec (.eventCancel list entry) s = execEventCancel list entry s := rfl
@[simp] theorem exec_skipr (s : State) n m k : exec (.skipr n m k) s = execSkipr n m k s := rfl
@[simp] theorem exec_roundend (s : State) : exec (.roundend) s = execRoundend s := rfl
@[simp] theorem exec_launchDecision (s : State) list : exec (.launchDecision list) s = execLaunchDecision list s := rfl
@[simp] theorem exec_preempt (s : State) list : exec (.preempt list) s = execPreempt list s := rfl
@[simp] theorem exec_slotEnd (s : State) list : exec (.slotEnd list) s = execSlotEnd list s := rfl
@[simp] theorem exec_softcmdArm (s : State) list entry : exec (.softcmdArm list entry) s = execSoftcmdArm list entry s := rfl
@[simp] theorem exec_softcmdCancel (s : State) list entry : exec (.softcmdCancel list entry) s = execSoftcmdCancel list entry s := rfl
@[simp] theorem exec_depthMet (s : State) list entry : exec (.depthMet list entry) s = execDepthMet list entry s := rfl
@[simp] theorem exec_retry (s : State) : exec (.retry) s = execRetry s := rfl
@[simp] theorem exec_reserveEnd (s : State) : exec (.reserveEnd) s = execReserveEnd s := rfl
@[simp] theorem exec_exchDeadline (s : State) : exec (.exchDeadline) s = execExchDeadline s := rfl
@[simp] theorem exec_swapRequest (s : State) sched cct fw : exec (.swapRequest sched cct fw) s = execSwapRequest sched cct fw s := rfl
@[simp] theorem exec_abort (s : State) : exec (.abort) s = execAbort s := rfl
@[simp] theorem exec_swapCheck (s : State) : exec (.swapCheck) s = execSwapCheck s := rfl
@[simp] theorem exec_swapCommit (s : State) : exec (.swapCommit) s = execSwapCommit s := rfl
@[simp] theorem exec_swap (s : State) : exec (.swap) s = execSwap s := rfl
@[simp] theorem exec_voterDisagreement (s : State) v0 v1 v2 alarm : exec (.voterDisagreement v0 v1 v2 alarm) s = execVoterDisagreement v0 v1 v2 alarm s := rfl
@[simp] theorem exec_resynchronisation (s : State) check : exec (.resynchronisation check) s = execResynchronisation check s := rfl
@[simp] theorem exec_resyncRestart (s : State) : exec (.resyncRestart) s = execResyncRestart s := rfl
@[simp] theorem exec_voterSelfTest (s : State) disturbed pass : exec (.voterSelfTest disturbed pass) s = execVoterSelfTest disturbed pass s := rfl
@[simp] theorem exec_mismatchEvent (s : State) : exec (.mismatchEvent) s = execMismatchEvent s := rfl
@[simp] theorem exec_testStep (s : State) strand found : exec (.testStep strand found) s = execTestStep strand found s := rfl
@[simp] theorem exec_rcUpset (s : State) machines : exec (.rcUpset machines) s = execRcUpset machines s := rfl
@[simp] theorem exec_watcherExpiry (s : State) : exec (.watcherExpiry) s = execWatcherExpiry s := rfl
@[simp] theorem exec_resync (s : State) : exec (.resync) s = execResync s := rfl
@[simp] theorem exec_ltest (s : State) strand : exec (.ltest strand) s = execLtest strand s := rfl
@[simp] theorem exec_clrhist (s : State) : exec (.clrhist) s = execClrhist s := rfl
@[simp] theorem exec_add (s : State) rd ra rb : exec (.add rd ra rb) s = execAdd rd ra rb s := rfl
@[simp] theorem exec_sub (s : State) rd ra rb : exec (.sub rd ra rb) s = execSub rd ra rb s := rfl
@[simp] theorem exec_and (s : State) rd ra rb : exec (.and rd ra rb) s = execAnd rd ra rb s := rfl
@[simp] theorem exec_or (s : State) rd ra rb : exec (.or rd ra rb) s = execOr rd ra rb s := rfl
@[simp] theorem exec_xor (s : State) rd ra rb : exec (.xor rd ra rb) s = execXor rd ra rb s := rfl
@[simp] theorem exec_andn (s : State) rd ra rb : exec (.andn rd ra rb) s = execAndn rd ra rb s := rfl
@[simp] theorem exec_sll (s : State) rd ra rb : exec (.sll rd ra rb) s = execSll rd ra rb s := rfl
@[simp] theorem exec_srl (s : State) rd ra rb : exec (.srl rd ra rb) s = execSrl rd ra rb s := rfl
@[simp] theorem exec_sra (s : State) rd ra rb : exec (.sra rd ra rb) s = execSra rd ra rb s := rfl
@[simp] theorem exec_slt (s : State) rd ra rb : exec (.slt rd ra rb) s = execSlt rd ra rb s := rfl
@[simp] theorem exec_sltu (s : State) rd ra rb : exec (.sltu rd ra rb) s = execSltu rd ra rb s := rfl
@[simp] theorem exec_min (s : State) rd ra rb : exec (.min rd ra rb) s = execMin rd ra rb s := rfl
@[simp] theorem exec_max (s : State) rd ra rb : exec (.max rd ra rb) s = execMax rd ra rb s := rfl
@[simp] theorem exec_minu (s : State) rd ra rb : exec (.minu rd ra rb) s = execMinu rd ra rb s := rfl
@[simp] theorem exec_maxu (s : State) rd ra rb : exec (.maxu rd ra rb) s = execMaxu rd ra rb s := rfl
@[simp] theorem exec_addw (s : State) rd ra rb : exec (.addw rd ra rb) s = execAddw rd ra rb s := rfl
@[simp] theorem exec_subw (s : State) rd ra rb : exec (.subw rd ra rb) s = execSubw rd ra rb s := rfl
@[simp] theorem exec_sllw (s : State) rd ra rb : exec (.sllw rd ra rb) s = execSllw rd ra rb s := rfl
@[simp] theorem exec_srlw (s : State) rd ra rb : exec (.srlw rd ra rb) s = execSrlw rd ra rb s := rfl
@[simp] theorem exec_sraw (s : State) rd ra rb : exec (.sraw rd ra rb) s = execSraw rd ra rb s := rfl
@[simp] theorem exec_clz (s : State) rd ra : exec (.clz rd ra) s = execClz rd ra s := rfl
@[simp] theorem exec_ctz (s : State) rd ra : exec (.ctz rd ra) s = execCtz rd ra s := rfl
@[simp] theorem exec_popc (s : State) rd ra : exec (.popc rd ra) s = execPopc rd ra s := rfl
@[simp] theorem exec_addi (s : State) rd ra imm : exec (.addi rd ra imm) s = execAddi rd ra imm s := rfl
@[simp] theorem exec_andi (s : State) rd ra imm : exec (.andi rd ra imm) s = execAndi rd ra imm s := rfl
@[simp] theorem exec_ori (s : State) rd ra imm : exec (.ori rd ra imm) s = execOri rd ra imm s := rfl
@[simp] theorem exec_xori (s : State) rd ra imm : exec (.xori rd ra imm) s = execXori rd ra imm s := rfl
@[simp] theorem exec_slti (s : State) rd ra imm : exec (.slti rd ra imm) s = execSlti rd ra imm s := rfl
@[simp] theorem exec_sltiu (s : State) rd ra imm : exec (.sltiu rd ra imm) s = execSltiu rd ra imm s := rfl
@[simp] theorem exec_slli (s : State) rd ra sh : exec (.slli rd ra sh) s = execSlli rd ra sh s := rfl
@[simp] theorem exec_srli (s : State) rd ra sh : exec (.srli rd ra sh) s = execSrli rd ra sh s := rfl
@[simp] theorem exec_srai (s : State) rd ra sh : exec (.srai rd ra sh) s = execSrai rd ra sh s := rfl
@[simp] theorem exec_addiw (s : State) rd ra imm : exec (.addiw rd ra imm) s = execAddiw rd ra imm s := rfl
@[simp] theorem exec_lui (s : State) rd imm : exec (.lui rd imm) s = execLui rd imm s := rfl
@[simp] theorem exec_lb (s : State) rd ra cb imm : exec (.lb rd ra cb imm) s = execLb rd ra cb imm s := rfl
@[simp] theorem exec_lbu (s : State) rd ra cb imm : exec (.lbu rd ra cb imm) s = execLbu rd ra cb imm s := rfl
@[simp] theorem exec_lh (s : State) rd ra cb imm : exec (.lh rd ra cb imm) s = execLh rd ra cb imm s := rfl
@[simp] theorem exec_lhu (s : State) rd ra cb imm : exec (.lhu rd ra cb imm) s = execLhu rd ra cb imm s := rfl
@[simp] theorem exec_lw (s : State) rd ra cb imm : exec (.lw rd ra cb imm) s = execLw rd ra cb imm s := rfl
@[simp] theorem exec_lwu (s : State) rd ra cb imm : exec (.lwu rd ra cb imm) s = execLwu rd ra cb imm s := rfl
@[simp] theorem exec_ld (s : State) rd ra cb imm : exec (.ld rd ra cb imm) s = execLd rd ra cb imm s := rfl
@[simp] theorem exec_sb (s : State) rs ra cb imm : exec (.sb rs ra cb imm) s = execSb rs ra cb imm s := rfl
@[simp] theorem exec_sh (s : State) rs ra cb imm : exec (.sh rs ra cb imm) s = execSh rs ra cb imm s := rfl
@[simp] theorem exec_sw (s : State) rs ra cb imm : exec (.sw rs ra cb imm) s = execSw rs ra cb imm s := rfl
@[simp] theorem exec_sd (s : State) rs ra cb imm : exec (.sd rs ra cb imm) s = execSd rs ra cb imm s := rfl
@[simp] theorem exec_atomicSwap (s : State) rd ra rb cb w : exec (.atomicSwap rd ra rb cb w) s = execAtomicSwap rd ra rb cb w s := rfl
@[simp] theorem exec_atomicAdd (s : State) rd ra rb cb w : exec (.atomicAdd rd ra rb cb w) s = execAtomicAdd rd ra rb cb w s := rfl
@[simp] theorem exec_atomicAnd (s : State) rd ra rb cb w : exec (.atomicAnd rd ra rb cb w) s = execAtomicAnd rd ra rb cb w s := rfl
@[simp] theorem exec_atomicOr (s : State) rd ra rb cb w : exec (.atomicOr rd ra rb cb w) s = execAtomicOr rd ra rb cb w s := rfl
@[simp] theorem exec_atomicXor (s : State) rd ra rb cb w : exec (.atomicXor rd ra rb cb w) s = execAtomicXor rd ra rb cb w s := rfl
@[simp] theorem exec_atomicMin (s : State) rd ra rb cb w : exec (.atomicMin rd ra rb cb w) s = execAtomicMin rd ra rb cb w s := rfl
@[simp] theorem exec_atomicMax (s : State) rd ra rb cb w : exec (.atomicMax rd ra rb cb w) s = execAtomicMax rd ra rb cb w s := rfl
@[simp] theorem exec_atomicMinu (s : State) rd ra rb cb w : exec (.atomicMinu rd ra rb cb w) s = execAtomicMinu rd ra rb cb w s := rfl
@[simp] theorem exec_atomicMaxu (s : State) rd ra rb cb w : exec (.atomicMaxu rd ra rb cb w) s = execAtomicMaxu rd ra rb cb w s := rfl
@[simp] theorem exec_cas (s : State) rd ra rb cb w : exec (.cas rd ra rb cb w) s = execCas rd ra rb cb w s := rfl
@[simp] theorem exec_mul (s : State) ra rb : exec (.mul ra rb) s = execMul ra rb s := rfl
@[simp] theorem exec_mulu (s : State) ra rb : exec (.mulu ra rb) s = execMulu ra rb s := rfl
@[simp] theorem exec_mulsu (s : State) ra rb : exec (.mulsu ra rb) s = execMulsu ra rb s := rfl
@[simp] theorem exec_mac (s : State) ra rb : exec (.mac ra rb) s = execMac ra rb s := rfl
@[simp] theorem exec_macu (s : State) ra rb : exec (.macu ra rb) s = execMacu ra rb s := rfl
@[simp] theorem exec_productWrite (s : State) : exec (.productWrite) s = execProductWrite s := rfl
@[simp] theorem exec_dstep (s : State) rd rs rt w : exec (.dstep rd rs rt w) s = execDstep rd rs rt w s := rfl
@[simp] theorem exec_bcmp (s : State) ra rb cond a disp : exec (.bcmp ra rb cond a disp) s = execBcmp ra rb cond a disp s := rfl
@[simp] theorem exec_bz (s : State) ra cond a disp : exec (.bz ra cond a disp) s = execBz ra cond a disp s := rfl
@[simp] theorem exec_jal (s : State) rd disp : exec (.jal rd disp) s = execJal rd disp s := rfl
@[simp] theorem exec_jalr (s : State) rd ra imm : exec (.jalr rd ra imm) s = execJalr rd ra imm s := rfl
@[simp] theorem exec_specNop (s : State) : exec (.specNop) s = execSpecNop s := rfl
@[simp] theorem exec_sync (s : State) : exec (.sync) s = execSync s := rfl
@[simp] theorem exec_mfsr (s : State) g sr : exec (.mfsr g sr) s = execMfsr g sr s := rfl
@[simp] theorem exec_mtsr (s : State) g sr : exec (.mtsr g sr) s = execMtsr g sr s := rfl
@[simp] theorem exec_fadd (s : State) fd fa fb p rm : exec (.fadd fd fa fb p rm) s = execFadd fd fa fb p rm s := rfl
@[simp] theorem exec_fsub (s : State) fd fa fb p rm : exec (.fsub fd fa fb p rm) s = execFsub fd fa fb p rm s := rfl
@[simp] theorem exec_fmul (s : State) fd fa fb p rm : exec (.fmul fd fa fb p rm) s = execFmul fd fa fb p rm s := rfl
@[simp] theorem exec_fmin (s : State) fd fa fb p : exec (.fmin fd fa fb p) s = execFmin fd fa fb p s := rfl
@[simp] theorem exec_fmax (s : State) fd fa fb p : exec (.fmax fd fa fb p) s = execFmax fd fa fb p s := rfl
@[simp] theorem exec_fminn (s : State) fd fa fb p : exec (.fminn fd fa fb p) s = execFminn fd fa fb p s := rfl
@[simp] theorem exec_fmaxn (s : State) fd fa fb p : exec (.fmaxn fd fa fb p) s = execFmaxn fd fa fb p s := rfl
@[simp] theorem exec_fabs (s : State) fd fa p : exec (.fabs fd fa p) s = execFabs fd fa p s := rfl
@[simp] theorem exec_fneg (s : State) fd fa p : exec (.fneg fd fa p) s = execFneg fd fa p s := rfl
@[simp] theorem exec_frstep (s : State) fd fa p rm : exec (.frstep fd fa p rm) s = execFrstep fd fa p rm s := rfl
@[simp] theorem exec_fsqstep (s : State) fd fa p rm : exec (.fsqstep fd fa p rm) s = execFsqstep fd fa p rm s := rfl
@[simp] theorem exec_fma (s : State) fd fa fb fc negp negc p rm : exec (.fma fd fa fb fc negp negc p rm) s = execFma fd fa fb fc negp negc p rm s := rfl
@[simp] theorem exec_flw (s : State) f ra cb imm : exec (.flw f ra cb imm) s = execFlw f ra cb imm s := rfl
@[simp] theorem exec_fld (s : State) f ra cb imm : exec (.fld f ra cb imm) s = execFld f ra cb imm s := rfl
@[simp] theorem exec_fsw (s : State) f ra cb imm : exec (.fsw f ra cb imm) s = execFsw f ra cb imm s := rfl
@[simp] theorem exec_fsd (s : State) f ra cb imm : exec (.fsd f ra cb imm) s = execFsd f ra cb imm s := rfl
@[simp] theorem exec_fmv (s : State) d r : exec (.fmv d r) s = execFmv d r s := rfl
@[simp] theorem exec_fmvxf (s : State) d r : exec (.fmvxf d r) s = execFmvxf d r s := rfl
@[simp] theorem exec_fmvfx (s : State) d r : exec (.fmvfx d r) s = execFmvfx d r s := rfl
@[simp] theorem exec_fcvtff (s : State) d r p rm : exec (.fcvtff d r p rm) s = execFcvtff d r p rm s := rfl
@[simp] theorem exec_fcvtfs (s : State) d r p rm : exec (.fcvtfs d r p rm) s = execFcvtfs d r p rm s := rfl
@[simp] theorem exec_fcvtfu (s : State) d r p rm : exec (.fcvtfu d r p rm) s = execFcvtfu d r p rm s := rfl
@[simp] theorem exec_fcvtsf (s : State) d r p rm : exec (.fcvtsf d r p rm) s = execFcvtsf d r p rm s := rfl
@[simp] theorem exec_fcvtuf (s : State) d r p rm : exec (.fcvtuf d r p rm) s = execFcvtuf d r p rm s := rfl
@[simp] theorem exec_fclass (s : State) d r p : exec (.fclass d r p) s = execFclass d r p s := rfl
@[simp] theorem exec_frcsr (s : State) d : exec (.frcsr d) s = execFrcsr d s := rfl
@[simp] theorem exec_fwcsr (s : State) r : exec (.fwcsr r) s = execFwcsr r s := rfl
@[simp] theorem exec_fcmp (s : State) rd fa fb cond p : exec (.fcmp rd fa fb cond p) s = execFcmp rd fa fb cond p s := rfl
@[simp] theorem exec_vadd (s : State) vd va vb grp es pr : exec (.vadd vd va vb grp es pr) s = execVadd vd va vb grp es pr s := rfl
@[simp] theorem exec_vsub (s : State) vd va vb grp es pr : exec (.vsub vd va vb grp es pr) s = execVsub vd va vb grp es pr s := rfl
@[simp] theorem exec_vadds (s : State) vd va vb grp es pr : exec (.vadds vd va vb grp es pr) s = execVadds vd va vb grp es pr s := rfl
@[simp] theorem exec_vsubs (s : State) vd va vb grp es pr : exec (.vsubs vd va vb grp es pr) s = execVsubs vd va vb grp es pr s := rfl
@[simp] theorem exec_vaddus (s : State) vd va vb grp es pr : exec (.vaddus vd va vb grp es pr) s = execVaddus vd va vb grp es pr s := rfl
@[simp] theorem exec_vsubus (s : State) vd va vb grp es pr : exec (.vsubus vd va vb grp es pr) s = execVsubus vd va vb grp es pr s := rfl
@[simp] theorem exec_vand (s : State) vd va vb grp es pr : exec (.vand vd va vb grp es pr) s = execVand vd va vb grp es pr s := rfl
@[simp] theorem exec_vor (s : State) vd va vb grp es pr : exec (.vor vd va vb grp es pr) s = execVor vd va vb grp es pr s := rfl
@[simp] theorem exec_vxor (s : State) vd va vb grp es pr : exec (.vxor vd va vb grp es pr) s = execVxor vd va vb grp es pr s := rfl
@[simp] theorem exec_vandn (s : State) vd va vb grp es pr : exec (.vandn vd va vb grp es pr) s = execVandn vd va vb grp es pr s := rfl
@[simp] theorem exec_vmin (s : State) vd va vb grp es pr : exec (.vmin vd va vb grp es pr) s = execVmin vd va vb grp es pr s := rfl
@[simp] theorem exec_vmax (s : State) vd va vb grp es pr : exec (.vmax vd va vb grp es pr) s = execVmax vd va vb grp es pr s := rfl
@[simp] theorem exec_vminu (s : State) vd va vb grp es pr : exec (.vminu vd va vb grp es pr) s = execVminu vd va vb grp es pr s := rfl
@[simp] theorem exec_vmaxu (s : State) vd va vb grp es pr : exec (.vmaxu vd va vb grp es pr) s = execVmaxu vd va vb grp es pr s := rfl
@[simp] theorem exec_vmul (s : State) vd va vb grp es pr : exec (.vmul vd va vb grp es pr) s = execVmul vd va vb grp es pr s := rfl
@[simp] theorem exec_vqmule (s : State) vd va vb grp es pr : exec (.vqmule vd va vb grp es pr) s = execVqmule vd va vb grp es pr s := rfl
@[simp] theorem exec_vqmulh (s : State) vd va vb grp es pr : exec (.vqmulh vd va vb grp es pr) s = execVqmulh vd va vb grp es pr s := rfl
@[simp] theorem exec_vshl (s : State) vd va vb grp es pr : exec (.vshl vd va vb grp es pr) s = execVshl vd va vb grp es pr s := rfl
@[simp] theorem exec_vshls (s : State) vd va vb grp es pr : exec (.vshls vd va vb grp es pr) s = execVshls vd va vb grp es pr s := rfl
@[simp] theorem exec_vsrl (s : State) vd va vb grp es pr : exec (.vsrl vd va vb grp es pr) s = execVsrl vd va vb grp es pr s := rfl
@[simp] theorem exec_vsra (s : State) vd va vb grp es pr : exec (.vsra vd va vb grp es pr) s = execVsra vd va vb grp es pr s := rfl
@[simp] theorem exec_vrshre (s : State) vd va vb grp es pr : exec (.vrshre vd va vb grp es pr) s = execVrshre vd va vb grp es pr s := rfl
@[simp] theorem exec_vrshrh (s : State) vd va vb grp es pr : exec (.vrshrh vd va vb grp es pr) s = execVrshrh vd va vb grp es pr s := rfl
@[simp] theorem exec_vcmp (s : State) pd va vb fn es grp pr : exec (.vcmp pd va vb fn es grp pr) s = execVcmp pd va vb fn es grp pr s := rfl
@[simp] theorem exec_pand (s : State) pd pa pb : exec (.pand pd pa pb) s = execPand pd pa pb s := rfl
@[simp] theorem exec_por (s : State) pd pa pb : exec (.por pd pa pb) s = execPor pd pa pb s := rfl
@[simp] theorem exec_pxor (s : State) pd pa pb : exec (.pxor pd pa pb) s = execPxor pd pa pb s := rfl
@[simp] theorem exec_pandn (s : State) pd pa pb : exec (.pandn pd pa pb) s = execPandn pd pa pb s := rfl
@[simp] theorem exec_pnot (s : State) pd pa : exec (.pnot pd pa) s = execPnot pd pa s := rfl
@[simp] theorem exec_pfromg (s : State) pd rg : exec (.pfromg pd rg) s = execPfromg pd rg s := rfl
@[simp] theorem exec_ptog (s : State) pa rg : exec (.ptog pa rg) s = execPtog pa rg s := rfl
@[simp] theorem exec_pcnt (s : State) pa rg : exec (.pcnt pa rg) s = execPcnt pa rg s := rfl
@[simp] theorem exec_pfirst (s : State) pa rg : exec (.pfirst pa rg) s = execPfirst pa rg s := rfl
@[simp] theorem exec_vins (s : State) d r es idx grp : exec (.vins d r es idx grp) s = execVins d r es idx grp s := rfl
@[simp] theorem exec_vext (s : State) d r es idx grp : exec (.vext d r es idx grp) s = execVext d r es idx grp s := rfl
@[simp] theorem exec_vsplat (s : State) d r es grp : exec (.vsplat d r es grp) s = execVsplat d r es grp s := rfl
@[simp] theorem exec_vmovv (s : State) d r grp : exec (.vmovv d r grp) s = execVmovv d r grp s := rfl
@[simp] theorem exec_vmemLoad (s : State) v ra cb grp es pr limit : exec (.vmemLoad v ra cb grp es pr limit) s = execVmemLoad v ra cb grp es pr limit s := rfl
@[simp] theorem exec_vmemStore (s : State) v ra cb grp es pr limit : exec (.vmemStore v ra cb grp es pr limit) s = execVmemStore v ra cb grp es pr limit s := rfl
@[simp] theorem exec_rpt (s : State) rc sz imm body limit : exec (.rpt rc sz imm body limit) s = execRpt rc sz imm body limit s := rfl
@[simp] theorem exec_smov (s : State) ra rb cs cd : exec (.smov ra rb cs cd) s = execSmov ra rb cs cd s := rfl
@[simp] theorem exec_sset (s : State) rd rb cd down : exec (.sset rd rb cd down) s = execSset rd rb cd down s := rfl
@[simp] theorem exec_scmp (s : State) rd ra rb cs cd down : exec (.scmp rd ra rb cs cd down) s = execScmp rd ra rb cs cd down s := rfl
@[simp] theorem exec_sscan (s : State) rd ra rb cs down : exec (.sscan rd ra rb cs down) s = execSscan rd ra rb cs down s := rfl
@[simp] theorem exec_waitev (s : State) rd ra : exec (.waitev rd ra) s = execWaitev rd ra s := rfl
@[simp] theorem exec_waitevLimit (s : State) : exec (.waitevLimit) s = execWaitevLimit s := rfl
@[simp] theorem exec_sigev (s : State) tgt : exec (.sigev tgt) s = execSigev tgt s := rfl
@[simp] theorem exec_waitt (s : State) rd ra : exec (.waitt rd ra) s = execWaitt rd ra s := rfl
@[simp] theorem exec_waittEnd (s : State) : exec (.waittEnd) s = execWaittEnd s := rfl
@[simp] theorem exec_capld (s : State) cd ra cb imm : exec (.capld cd ra cb imm) s = execCapld cd ra cb imm s := rfl
@[simp] theorem exec_capst (s : State) cd ra cb imm : exec (.capst cd ra cb imm) s = execCapst cd ra cb imm s := rfl
@[simp] theorem exec_capmv (s : State) cd cs : exec (.capmv cd cs) s = execCapmv cd cs s := rfl
@[simp] theorem exec_capnul (s : State) cd : exec (.capnul cd) s = execCapnul cd s := rfl
@[simp] theorem exec_capsub (s : State) cd cs ra rb : exec (.capsub cd cs ra rb) s = execCapsub cd cs ra rb s := rfl
@[simp] theorem exec_caprst (s : State) cd cs ra : exec (.caprst cd cs ra) s = execCaprst cd cs ra s := rfl
@[simp] theorem exec_capseal (s : State) cd cs ck : exec (.capseal cd cs ck) s = execCapseal cd cs ck s := rfl
@[simp] theorem exec_capopen (s : State) cd cs ck : exec (.capopen cd cs ck) s = execCapopen cd cs ck s := rfl
@[simp] theorem exec_capslot (s : State) cd cs ra : exec (.capslot cd cs ra) s = execCapslot cd cs ra s := rfl
@[simp] theorem exec_capfch (s : State) cd : exec (.capfch cd) s = execCapfch cd s := rfl
@[simp] theorem exec_caprb (s : State) cs ra : exec (.caprb cs ra) s = execCaprb cs ra s := rfl
@[simp] theorem exec_caprl (s : State) cs ra : exec (.caprl cs ra) s = execCaprl cs ra s := rfl
@[simp] theorem exec_caprm (s : State) cs ra : exec (.caprm cs ra) s = execCaprm cs ra s := rfl
@[simp] theorem exec_caprv (s : State) cs ra : exec (.caprv cs ra) s = execCaprv cs ra s := rfl
@[simp] theorem exec_capre (s : State) cs ra : exec (.capre cs ra) s = execCapre cs ra s := rfl
@[simp] theorem exec_gate (s : State) n keep : exec (.gate n keep) s = execGate n keep s := rfl
@[simp] theorem exec_gret (s : State) keep : exec (.gret keep) s = execGret keep s := rfl
@[simp] theorem exec_hret (s : State) : exec (.hret) s = execHret s := rfl
@[simp] theorem exec_hrel (s : State) : exec (.hrel) s = execHrel s := rfl
@[simp] theorem exec_mfsys (s : State) g n : exec (.mfsys g n) s = execMfsys g n s := rfl
@[simp] theorem exec_mtsys (s : State) g cb n : exec (.mtsys g cb n) s = execMtsys g cb n s := rfl
@[simp] theorem exec_ctoge (s : State) c cb n data : exec (.ctoge c cb n data) s = execCtoge c cb n data s := rfl
@[simp] theorem exec_getoc (s : State) c cb n data : exec (.getoc c cb n data) s = execGetoc c cb n data s := rfl
@[simp] theorem exec_interruptEntry (s : State) : exec (.interruptEntry) s = execInterruptEntry s := rfl
@[simp] theorem exec_holdWindowEnd (s : State) : exec (.holdWindowEnd) s = execHoldWindowEnd s := rfl
@[simp] theorem exec_arm (s : State) cb g : exec (.arm cb g) s = execArm cb g s := rfl
@[simp] theorem exec_cancel (s : State) cb g : exec (.cancel cb g) s = execCancel cb g s := rfl
@[simp] theorem exec_sourceEdge (s : State) n : exec (.sourceEdge n) s = execSourceEdge n s := rfl
@[simp] theorem exec_unpend (s : State) k mask : exec (.unpend k mask) s = execUnpend k mask s := rfl
@[simp] theorem exec_slotLatch (s : State) slot : exec (.slotLatch slot) s = execSlotLatch slot s := rfl
@[simp] theorem exec_mbxPost (s : State) master secure chan bells : exec (.mbxPost master secure chan bells) s = execMbxPost master secure chan bells s := rfl
@[simp] theorem exec_mbxAck (s : State) master secure chan ack : exec (.mbxAck master secure chan ack) s = execMbxAck master secure chan ack s := rfl
@[simp] theorem exec_mbxCfg (s : State) master secure chan value : exec (.mbxCfg master secure chan value) s = execMbxCfg master secure chan value s := rfl
@[simp] theorem exec_post (s : State) cb g : exec (.post cb g) s = execPost cb g s := rfl
@[simp] theorem exec_ack (s : State) cb g : exec (.ack cb g) s = execAck cb g s := rfl
@[simp] theorem exec_ring (s : State) cb g : exec (.ring cb g) s = execRing cb g s := rfl
@[simp] theorem exec_setep (s : State) cb g : exec (.setep cb g) s = execSetep cb g s := rfl
@[simp] theorem exec_enq (s : State) cb g : exec (.enq cb g) s = execEnq cb g s := rfl
@[simp] theorem exec_deq (s : State) cb g : exec (.deq cb g) s = execDeq cb g s := rfl
@[simp] theorem exec_drop (s : State) cb g : exec (.drop cb g) s = execDrop cb g s := rfl
@[simp] theorem exec_stat (s : State) cb g : exec (.stat cb g) s = execStat cb g s := rfl
@[simp] theorem exec_attach (s : State) cb g : exec (.attach cb g) s = execAttach cb g s := rfl
@[simp] theorem exec_detach (s : State) cb g : exec (.detach cb g) s = execDetach cb g s := rfl
@[simp] theorem exec_stallVisit (s : State) queue : exec (.stallVisit queue) s = execStallVisit queue s := rfl
@[simp] theorem exec_queStallq (s : State) : exec (.queStallq) s = execQueStallq s := rfl
@[simp] theorem exec_queNote (s : State) f : exec (.queNote f) s = execQueNote f s := rfl
@[simp] theorem exec_portUp (s : State) port : exec (.portUp port) s = execPortUp port s := rfl
@[simp] theorem exec_segmentDown (s : State) port : exec (.segmentDown port) s = execSegmentDown port s := rfl
@[simp] theorem exec_lack (s : State) port lseq good : exec (.lack port lseq good) s = execLack port lseq good s := rfl
@[simp] theorem exec_lackTimeout (s : State) port : exec (.lackTimeout port) s = execLackTimeout port s := rfl
@[simp] theorem exec_frameForward (s : State) port lseq bytes good : exec (.frameForward port lseq bytes good) s = execFrameForward port lseq bytes good s := rfl
@[simp] theorem exec_peerDelay (s : State) port : exec (.peerDelay port) s = execPeerDelay port s := rfl
@[simp] theorem exec_pdreq (s : State) port seq turn : exec (.pdreq port seq turn) s = execPdreq port seq turn s := rfl
@[simp] theorem exec_pdresp (s : State) port t4 : exec (.pdresp port t4) s = execPdresp port t4 s := rfl
@[simp] theorem exec_syncSend (s : State) : exec (.syncSend) s = execSyncSend s := rfl
@[simp] theorem exec_timeSync (s : State) port stamp residence : exec (.timeSync port stamp residence) s = execTimeSync port stamp residence s := rfl
@[simp] theorem exec_syncTimeout (s : State) : exec (.syncTimeout) s = execSyncTimeout s := rfl
@[simp] theorem exec_helloListen (s : State) : exec (.helloListen) s = execHelloListen s := rfl
@[simp] theorem exec_mgmtEnum (s : State) : exec (.mgmtEnum) s = execMgmtEnum s := rfl
@[simp] theorem exec_hello (s : State) : exec (.hello) s = execHello s := rfl
@[simp] theorem exec_enumEnd (s : State) : exec (.enumEnd) s = execEnumEnd s := rfl
@[simp] theorem exec_topo (s : State) : exec (.topo) s = execTopo s := rfl
@[simp] theorem exec_chal (s : State) : exec (.chal) s = execChal s := rfl
@[simp] theorem exec_cert (s : State) : exec (.cert) s = execCert s := rfl
@[simp] theorem exec_trust (s : State) : exec (.trust) s = execTrust s := rfl
@[simp] theorem exec_mgmtWake (s : State) : exec (.mgmtWake) s = execMgmtWake s := rfl
@[simp] theorem exec_mgmtReset (s : State) : exec (.mgmtReset) s = execMgmtReset s := rfl
@[simp] theorem exec_resetInstant (s : State) : exec (.resetInstant) s = execResetInstant s := rfl
@[simp] theorem exec_sessionOffer (s : State) : exec (.sessionOffer) s = execSessionOffer s := rfl
@[simp] theorem exec_sessionAccept (s : State) : exec (.sessionAccept) s = execSessionAccept s := rfl
@[simp] theorem exec_sessionConfirm (s : State) : exec (.sessionConfirm) s = execSessionConfirm s := rfl
@[simp] theorem exec_msgPost (s : State) : exec (.msgPost) s = execMsgPost s := rfl
@[simp] theorem exec_msgEnq (s : State) : exec (.msgEnq) s = execMsgEnq s := rfl
@[simp] theorem exec_nak (s : State) : exec (.nak) s = execNak s := rfl
@[simp] theorem exec_snapshotRequest (s : State) id : exec (.snapshotRequest id) s = execSnapshotRequest id s := rfl
@[simp] theorem exec_snap (s : State) : exec (.snap) s = execSnap s := rfl
@[simp] theorem exec_snapshotStrobe (s : State) : exec (.snapshotStrobe) s = execSnapshotStrobe s := rfl
@[simp] theorem exec_recipeOffer (s : State) : exec (.recipeOffer) s = execRecipeOffer s := rfl
@[simp] theorem exec_recipeData (s : State) : exec (.recipeData) s = execRecipeData s := rfl
@[simp] theorem exec_recipeStatus (s : State) : exec (.recipeStatus) s = execRecipeStatus s := rfl
@[simp] theorem exec_recipeCommit (s : State) : exec (.recipeCommit) s = execRecipeCommit s := rfl
@[simp] theorem exec_debugBatch (s : State) : exec (.debugBatch) s = execDebugBatch s := rfl
@[simp] theorem exec_debugReply (s : State) : exec (.debugReply) s = execDebugReply s := rfl
@[simp] theorem exec_enum (s : State) : exec (.enum) s = execEnum s := rfl
@[simp] theorem exec_wakeU (s : State) : exec (.wakeU) s = execWakeU s := rfl
@[simp] theorem exec_wakeD (s : State) : exec (.wakeD) s = execWakeD s := rfl
@[simp] theorem exec_chnTset (s : State) hi : exec (.chnTset hi) s = execChnTset hi s := rfl
@[simp] theorem exec_chainCtrlMm (s : State) : exec (.chainCtrlMm) s = execChainCtrlMm s := rfl
@[simp] theorem exec_ccRestartEnd (s : State) : exec (.ccRestartEnd) s = execCcRestartEnd s := rfl
@[simp] theorem exec_inboundExchange (s : State) b : exec (.inboundExchange b) s = execInboundExchange b s := rfl
@[simp] theorem exec_outboundExchange (s : State) b : exec (.outboundExchange b) s = execOutboundExchange b s := rfl
@[simp] theorem exec_exchangeComplete (s : State) b : exec (.exchangeComplete b) s = execExchangeComplete b s := rfl
@[simp] theorem exec_down (s : State) b k : exec (.down b k) s = execDown b k s := rfl
@[simp] theorem exec_up (s : State) b k frame codeErr delay : exec (.up b k frame codeErr delay) s = execUp b k frame codeErr delay s := rfl
@[simp] theorem exec_upTimeout (s : State) b k : exec (.upTimeout b k) s = execUpTimeout b k s := rfl
@[simp] theorem exec_hubDown (s : State) b k : exec (.hubDown b k) s = execHubDown b k s := rfl
@[simp] theorem exec_hubUp (s : State) b k frame codeErr delay : exec (.hubUp b k frame codeErr delay) s = execHubUp b k frame codeErr delay s := rfl
@[simp] theorem exec_ident (s : State) cb g : exec (.ident cb g) s = execIdent cb g s := rfl
@[simp] theorem exec_identFrame (s : State) b k frame codeErr delay : exec (.identFrame b k frame codeErr delay) s = execIdentFrame b k frame codeErr delay s := rfl
@[simp] theorem exec_clrcnt (s : State) cb g : exec (.clrcnt cb g) s = execClrcnt cb g s := rfl
@[simp] theorem exec_setcfg (s : State) cb g : exec (.setcfg cb g) s = execSetcfg cb g s := rfl
@[simp] theorem exec_ssiTransfer (s : State) b k value : exec (.ssiTransfer b k value) s = execSsiTransfer b k value s := rfl
@[simp] theorem exec_captureEdge (s : State) b k rising : exec (.captureEdge b k rising) s = execCaptureEdge b k rising s := rfl
@[simp] theorem exec_pulseEntry (s : State) b k : exec (.pulseEntry b k) s = execPulseEntry b k s := rfl
@[simp] theorem exec_markPulse (s : State) b k : exec (.markPulse b k) s = execMarkPulse b k s := rfl
@[simp] theorem exec_uartTransmit (s : State) b k : exec (.uartTransmit b k) s = execUartTransmit b k s := rfl
@[simp] theorem exec_uartReceive (s : State) b k char bad : exec (.uartReceive b k char bad) s = execUartReceive b k char bad s := rfl
@[simp] theorem exec_start (s : State) cb g : exec (.start cb g) s = execStart cb g s := rfl
@[simp] theorem exec_stop (s : State) cb g blocks : exec (.stop cb g blocks) s = execStop cb g blocks s := rfl
@[simp] theorem exec_moverComplete (s : State) n : exec (.moverComplete n) s = execMoverComplete n s := rfl
@[simp] theorem exec_frameStart (s : State) n stream0 fmt : exec (.frameStart n stream0 fmt) s = execFrameStart n stream0 fmt s := rfl
@[simp] theorem exec_frameEnd (s : State) n rows : exec (.frameEnd n rows) s = execFrameEnd n rows s := rfl
@[simp] theorem exec_camDone (s : State) n : exec (.camDone n) s = execCamDone n s := rfl
@[simp] theorem exec_camRel (s : State) n go slot : exec (.camRel n go slot) s = execCamRel n go slot s := rfl
@[simp] theorem exec_trigger (s : State) n : exec (.trigger n) s = execTrigger n s := rfl
@[simp] theorem exec_camCcmd (s : State) n value : exec (.camCcmd n value) s = execCamCcmd n value s := rfl
@[simp] theorem exec_controlAck (s : State) n error data : exec (.controlAck n error data) s = execControlAck n error data s := rfl
@[simp] theorem exec_controlTimeout (s : State) n : exec (.controlTimeout n) s = execControlTimeout n s := rfl
@[simp] theorem exec_archiveStart (s : State) : exec (.archiveStart) s = execArchiveStart s := rfl
@[simp] theorem exec_reprobe (s : State) probe : exec (.reprobe probe) s = execReprobe probe s := rfl
@[simp] theorem exec_archiveRecovery (s : State) probes : exec (.archiveRecovery probes) s = execArchiveRecovery probes s := rfl
@[simp] theorem exec_archiveWatchdog (s : State) : exec (.archiveWatchdog) s = execArchiveWatchdog s := rfl
@[simp] theorem exec_append (s : State) : exec (.append) s = execAppend s := rfl
@[simp] theorem exec_read (s : State) : exec (.read) s = execRead s := rfl
@[simp] theorem exec_flush (s : State) drive : exec (.flush drive) s = execFlush drive s := rfl
@[simp] theorem exec_completionRetry (s : State) : exec (.completionRetry) s = execCompletionRetry s := rfl
@[simp] theorem exec_commandTimeout (s : State) drive : exec (.commandTimeout drive) s = execCommandTimeout drive s := rfl
@[simp] theorem exec_wearCheck (s : State) drive used : exec (.wearCheck drive used) s = execWearCheck drive used s := rfl
@[simp] theorem exec_idle (s : State) : exec (.idle) s = execIdle s := rfl
@[simp] theorem exec_dormant (s : State) : exec (.dormant) s = execDormant s := rfl
@[simp] theorem exec_idleWake (s : State) : exec (.idleWake) s = execIdleWake s := rfl
@[simp] theorem exec_thaw (s : State) : exec (.thaw) s = execThaw s := rfl
@[simp] theorem exec_linePowerOn (s : State) : exec (.linePowerOn) s = execLinePowerOn s := rfl
@[simp] theorem exec_powerFail (s : State) : exec (.powerFail) s = execPowerFail s := rfl
@[simp] theorem exec_powerLoss (s : State) : exec (.powerLoss) s = execPowerLoss s := rfl
@[simp] theorem exec_bor (s : State) : exec (.bor) s = execBor s := rfl
@[simp] theorem exec_pin (s : State) : exec (.pin) s = execPin s := rfl
@[simp] theorem exec_coldReset (s : State) : exec (.coldReset) s = execColdReset s := rfl
@[simp] theorem exec_warmReset (s : State) : exec (.warmReset) s = execWarmReset s := rfl
@[simp] theorem exec_coreReset (s : State) : exec (.coreReset) s = execCoreReset s := rfl
@[simp] theorem exec_resetRelease (s : State) : exec (.resetRelease) s = execResetRelease s := rfl
@[simp] theorem exec_startWindow (s : State) : exec (.startWindow) s = execStartWindow s := rfl
@[simp] theorem exec_rstStarted (s : State) : exec (.rstStarted) s = execRstStarted s := rfl
@[simp] theorem exec_swCoreReset (s : State) : exec (.swCoreReset) s = execSwCoreReset s := rfl
@[simp] theorem exec_swWarmReset (s : State) : exec (.swWarmReset) s = execSwWarmReset s := rfl
@[simp] theorem exec_swColdReset (s : State) : exec (.swColdReset) s = execSwColdReset s := rfl
@[simp] theorem exec_watchdogExpiry (s : State) : exec (.watchdogExpiry) s = execWatchdogExpiry s := rfl
@[simp] theorem exec_kick (s : State) key : exec (.kick key) s = execKick key s := rfl
@[simp] theorem exec_flashRead (s : State) value : exec (.flashRead value) s = execFlashRead value s := rfl
@[simp] theorem exec_program (s : State) value : exec (.program value) s = execProgram value s := rfl
@[simp] theorem exec_erase (s : State) value : exec (.erase value) s = execErase value s := rfl
@[simp] theorem exec_raw (s : State) value : exec (.raw value) s = execRaw value s := rfl
@[simp] theorem exec_drst (s : State) value : exec (.drst value) s = execDrst value s := rfl
@[simp] theorem exec_flashDone (s : State) failed : exec (.flashDone failed) s = execFlashDone failed s := rfl
@[simp] theorem exec_pwrDown (s : State) value : exec (.pwrDown value) s = execPwrDown value s := rfl
@[simp] theorem exec_provision (s : State) debug : exec (.provision debug) s = execProvision debug s := rfl
@[simp] theorem exec_deploy (s : State) : exec (.deploy) s = execDeploy s := rfl
@[simp] theorem exec_service (s : State) arg : exec (.service arg) s = execService arg s := rfl
@[simp] theorem exec_lifecycleResume (s : State) : exec (.lifecycleResume) s = execLifecycleResume s := rfl
@[simp] theorem exec_retire (s : State) arg : exec (.retire arg) s = execRetire arg s := rfl
@[simp] theorem exec_keyprog (s : State) slot : exec (.keyprog slot) s = execKeyprog slot s := rfl
@[simp] theorem exec_revoke (s : State) slot : exec (.revoke slot) s = execRevoke slot s := rfl
@[simp] theorem exec_wipe (s : State) : exec (.wipe) s = execWipe s := rfl
@[simp] theorem exec_tamper (s : State) sources : exec (.tamper sources) s = execTamper sources s := rfl
@[simp] theorem exec_wakeSequence (s : State) periods : exec (.wakeSequence periods) s = execWakeSequence periods s := rfl
@[simp] theorem exec_longLow (s : State) : exec (.longLow) s = execLongLow s := rfl
@[simp] theorem exec_linkTimeout (s : State) : exec (.linkTimeout) s = execLinkTimeout s := rfl
@[simp] theorem exec_drd (s : State) idx crc : exec (.drd idx crc) s = execDrd idx crc s := rfl
@[simp] theorem exec_dwr (s : State) idx data crc : exec (.dwr idx data crc) s = execDwr idx data crc s := rfl
@[simp] theorem exec_mrd (s : State) addr crc slow : exec (.mrd addr crc slow) s = execMrd addr crc slow s := rfl
@[simp] theorem exec_mwr (s : State) addr data crc slow : exec (.mwr addr data crc slow) s = execMwr addr data crc slow s := rfl
@[simp] theorem exec_mrdn (s : State) crc slow : exec (.mrdn crc slow) s = execMrdn crc slow s := rfl
@[simp] theorem exec_mwrn (s : State) data crc slow : exec (.mwrn data crc slow) s = execMwrn data crc slow s := rfl
@[simp] theorem exec_rslt (s : State) crc : exec (.rslt crc) s = execRslt crc s := rfl
@[simp] theorem exec_halt (s : State) value : exec (.halt value) s = execHalt value s := rfl
@[simp] theorem exec_step (s : State) value : exec (.step value) s = execStep value s := rfl
@[simp] theorem exec_resume (s : State) value : exec (.resume value) s = execResume value s := rfl
@[simp] theorem exec_lock (s : State) value : exec (.lock value) s = execLock value s := rfl
@[simp] theorem exec_dbgCoreReset (s : State) value : exec (.dbgCoreReset value) s = execDbgCoreReset value s := rfl
@[simp] theorem exec_dbgWarmReset (s : State) value : exec (.dbgWarmReset value) s = execDbgWarmReset value s := rfl
@[simp] theorem exec_dbgColdReset (s : State) value : exec (.dbgColdReset value) s = execDbgColdReset value s := rfl
@[simp] theorem exec_unlock (s : State) scope : exec (.unlock scope) s = execUnlock scope s := rfl
@[simp] theorem exec_dbgRdata (s : State) hi : exec (.dbgRdata hi) s = execDbgRdata hi s := rfl
@[simp] theorem exec_dbgTxd (s : State) push : exec (.dbgTxd push) s = execDbgTxd push s := rfl
@[simp] theorem exec_dbgRxd (s : State) push : exec (.dbgRxd push) s = execDbgRxd push s := rfl
@[simp] theorem exec_ill (s : State) : exec (.ill) s = execIll s := rfl
@[simp] theorem exec_cameraLinkUp (s : State) n speed : exec (.cameraLinkUp n speed) s = execCameraLinkUp n speed s := rfl
@[simp] theorem exec_cameraLinkLoss (s : State) n : exec (.cameraLinkLoss n) s = execCameraLinkLoss n s := rfl
@[simp] theorem exec_pcieLinkDown (s : State) drive retrains : exec (.pcieLinkDown drive retrains) s = execPcieLinkDown drive retrains s := rfl
@[simp] theorem exec_nvmeFatalError (s : State) drive : exec (.nvmeFatalError drive) s = execNvmeFatalError drive s := rfl
@[simp] theorem exec_portDrawChange (s : State) port vin : exec (.portDrawChange port vin) s = execPortDrawChange port vin s := rfl
@[simp] theorem exec_superblockRewrite (s : State) drive : exec (.superblockRewrite drive) s = execSuperblockRewrite drive s := rfl

end Sys2Proof.Machine
end

