-- ==== Sys2Proof/Laws/Trifle.lean ====
section
/-! SUPPORT. Laws/Trifle.lean: what running one Trifle instruction does, from the state it finds. -/

namespace Sys2Proof.Machine

variable (s : State)

/-- The parts of `State.issues`. -/
theorem State.issues_iff : s.issues = true ↔
    s.triClocked = true ∧ s.tri.wait = none ∧ s.tri.rpt = none ∧ s.dbg.halting = false ∧
      (∀ d ∈ s.tri.slot, d.annul = false) ∧ (∀ w ∈ s.tri.mul, s.clk < w.1) ∧ (∀ e ∈ s.tri.hold, s.clk < e) ∧
      (∀ f ∈ s.tri.stack, ∀ e ∈ f.hold, s.clk < e) ∧ s.fetchFault = none := by
  simp [State.issues, and_assoc, Option.all_eq_true]

theorem State.ready_iff : s.ready = true ↔ s.issues = true ∧ s.tri.slot = none := by simp [State.ready]

/-- With no product write due, none takes place. -/
theorem State.mulDue_of_none (h : ∀ w ∈ s.tri.mul, s.clk < w.1) : s.mulDue = s := by
  have h1 : s.tri.mul.filter (fun w => decide (w.1 ≤ s.clk)) = [] := by
    rw [List.filter_eq_nil_iff]; intro w hw; simpa using h w hw
  have h2 : s.tri.mul.filter (fun w => decide (s.clk < w.1)) = s.tri.mul := by
    rw [List.filter_eq_self]; intro w hw; simpa using h w hw
  unfold State.mulDue
  rw [h1, h2]; rfl

/-- With no hold window at its end, none ends. -/
theorem State.holdTick_of_none (h : ∀ e ∈ s.tri.hold, s.clk < e) (h' : ∀ f ∈ s.tri.stack, ∀ e ∈ f.hold, s.clk < e) :
    s.holdTick = s := by
  unfold State.holdTick
  have h1 : s.tri.hold.any (fun e => decide (e ≤ s.clk)) = false := by
    cases hh : s.tri.hold with
    | none => rfl
    | some e => simpa using h e hh
  have h2 : s.tri.stack.any (fun f => f.hold.any (fun e => decide (e ≤ s.clk))) = false := by
    rw [List.any_eq_false]
    intro f hf
    cases hh : f.hold with
    | none => simp
    | some e => simpa using h' f hf e hh
  simp only [h1, h2]; simp

/-- Nothing is due when an instruction issues. -/
theorem State.beforeX_of_issues (h : s.issues = true) : s.beforeX = s := by
  obtain ⟨-, -, -, -, -, h1, h2, h3, -⟩ := (s.issues_iff).1 h
  unfold State.beforeX
  rw [s.mulDue_of_none h1, s.holdTick_of_none h2 h3]

/-- Without a halt request none takes place. -/
theorem State.tryHalt_of_not (h : s.dbg.halting = false) : s.tryHalt = s := by simp [State.tryHalt, h]

/-- An instruction that issues does what its body says. -/
theorem State.trifle_of_issues (h : s.issues = true) (inSlot : Bool) (hs : inSlot = true ∨ s.tri.slot = none)
    (body : State → TRes) (isBody : RptBody → Bool) : s.trifle inSlot body isBody = (s.finish (body s)).tryHalt := by
  have hx := s.beforeX_of_issues h
  obtain ⟨h1, h2, h3, h4, h5, -, -, -, h6⟩ := (s.issues_iff).1 h
  have hr : s.triRuns = true := by simp [State.triRuns, h1, h2]
  unfold State.trifle
  simp only [s.tryHalt_of_not h4, hr, if_true]
  congr 1
  unfold State.issueOne
  simp only [hx, h6, h3]
  cases hd : s.tri.slot with
  | none => rfl
  | some d =>
    have ha : d.annul = false := h5 d hd
    rcases hs with hs | hs
    · simp [ha, hs]
    · simp [hd] at hs

/-- The passing of tc minds neither the count of instructions nor the debug logic's step. -/
theorem State.tick_retired (n : Nat) (i : Word) (e b : Bool) :
    ({ s with tri.insn := i, tri.entered := e, dbg.step := b } : State).tick n =
      { s.tick n with tri.insn := i, tri.entered := e, dbg.step := b } := by
  unfold State.tick State.clkPass; split <;> rfl

@[simp] theorem State.tick_zero : s.tick 0 = s := rfl

/-- A body that retires after n further tc leaves the state that `goOn` says. -/
theorem State.finish_slow (t : State) (n : Nat) : s.finish (.slow t n) = t.goOn n := by
  have e : t.retire.tick n = { (t.tick 1).tick n with tri.insn := t.tri.insn + 1, tri.entered := false, dbg.step := false } :=
    (t.tick 1).tick_retired n _ _ _
  have hs : (t.retire.tick n).tri.slot = t.tri.slot := by rw [e]; simp
  cases h : t.tri.slot with
  | none =>
    rw [h] at hs
    simp only [State.finish, State.advance, State.goOn, h, hs]
    rw [e]; simp [h]
  | some d =>
    rw [h] at hs
    simp only [State.finish, State.advance, State.goOn, h, hs]
    rw [e]
    exact congrArg (fun z : State => { z with tri.pc := d.target, tri.slot := none })
      (((t.tick 1).tick n).tick_retired d.lost (t.tri.insn + 1) false false)

/-- A body that retires leaves the state that `goOn` says. -/
theorem State.finish_done (t : State) : s.finish (.done t) = t.goOn := (s.finish_slow t 0)

/-- What `goOn` writes. -/
theorem State.goOn_cases (n : Nat) : ∃ (x f c : Nat) (k : Int) (pc : BitVec 40),
    s.goOn n = { s with
      time := x, free := f, tri.clk := c, tri.skew := k, tri.pc := pc, tri.slot := none, tri.insn := s.tri.insn + 1,
      tri.entered := false, dbg.step := false } := by
  obtain ⟨x, f, c, k, h⟩ := s.clkPass_cases (16 * 1)
  obtain ⟨x2, f2, c2, k2, h2⟩ := (s.clkPass (16 * 1)).clkPass_cases (16 * n)
  cases hs : s.tri.slot with
  | none =>
    refine ⟨x2, f2, c2, k2, s.tri.pc + 4, ?_⟩
    simp only [State.goOn, State.tick, hs, h2]
    rw [h]; simp [hs]
  | some d =>
    obtain ⟨x3, f3, c3, k3, h3⟩ := ((s.clkPass (16 * 1)).clkPass (16 * n)).clkPass_cases (16 * d.lost)
    refine ⟨x3, f3, c3, k3, d.target, ?_⟩
    simp only [State.goOn, State.tick, hs, h3]
    rw [h2, h]

@[simp] theorem State.goOn_halting (n : Nat) : (s.goOn n).dbg.halting = s.dbg.halting := by
  obtain ⟨_, _, _, _, _, h⟩ := s.goOn_cases n; rw [h]

/-- An instruction that issues and retires. -/
theorem State.trifle_done (h : s.issues = true) (inSlot : Bool) (hs : inSlot = true ∨ s.tri.slot = none)
    (body : State → TRes) (isBody : RptBody → Bool) (t : State) (hb : body s = .done t) (ht : t.dbg.halting = false) :
    s.trifle inSlot body isBody = t.goOn := by
  rw [s.trifle_of_issues h inSlot hs, hb, State.finish_done, State.tryHalt_of_not _ (by simpa using ht)]

theorem State.issues_halting (h : s.issues = true) : s.dbg.halting = false := ((s.issues_iff).1 h).2.2.2.1

/-- A control transfer that issues. -/
theorem State.trifle_transfer (h : s.ready = true) (body : State → TRes) (isBody : RptBody → Bool) (t : State)
    (a : BitVec 40) (annul : Bool) (lost : Nat) (hb : body s = .transfer t a annul lost) (ht : t.dbg = s.dbg)
    (hpc : t.tri.pc = s.tri.pc) :
    s.trifle false body isBody = t.goTo a annul lost := by
  obtain ⟨hi, hs⟩ := (s.ready_iff).1 h
  rw [s.trifle_of_issues hi false (.inr hs), hb]
  have e : s.finish (.transfer t a annul lost) = t.goTo a annul lost := by
    simp [State.finish, State.goTo, State.retire, hpc, ht]
  rw [e, State.tryHalt_of_not]
  show t.dbg.halting = false
  rw [ht]; exact s.issues_halting hi

/-- An instruction allowed in a delay slot whose body retires, whatever it finds, and leaves the debug logic alone. -/
theorem State.trifle_eq_goOn (h : s.issues = true) (f : State → State) (isBody : RptBody → Bool)
    (hf : (f s).dbg = s.dbg) : s.trifle true (fun t => .done (f t)) isBody = (f s).goOn :=
  s.trifle_done h true (.inl rfl) _ _ _ rfl (by rw [hf]; exact s.issues_halting h)

theorem State.intOp_eq (h : s.issues = true) (rd ra rb : Fin 32) (f : Word → Word → Word) :
    s.intOp rd ra rb f = .next ((s.setG rd (f (s.g ra) (s.g rb))).goOn) := by
  unfold State.intOp next; rw [s.trifle_eq_goOn h]; simp

theorem State.intOp1_eq (h : s.issues = true) (rd ra : Fin 32) (f : Word → Word) :
    s.intOp1 rd ra f = .next ((s.setG rd (f (s.g ra))).goOn) := by
  unfold State.intOp1 next; rw [s.trifle_eq_goOn h]; simp

theorem State.plain_eq (h : s.issues = true) (f : State → State) (hf : (f s).dbg = s.dbg) :
    s.plain f = .next (f s).goOn := by
  unfold State.plain next; rw [s.trifle_eq_goOn h f _ hf]

/-! What `goOn` leaves. -/

@[simp] theorem State.goOn_g (n r : Nat) : (s.goOn n).g r = s.g r := by obtain ⟨_, _, _, _, _, h⟩ := s.goOn_cases n; rw [h]; rfl
@[simp] theorem State.goOn_f (n r : Nat) : (s.goOn n).f r = s.f r := by obtain ⟨_, _, _, _, _, h⟩ := s.goOn_cases n; rw [h]; rfl
@[simp] theorem State.goOn_v (n r : Nat) : (s.goOn n).v r = s.v r := by obtain ⟨_, _, _, _, _, h⟩ := s.goOn_cases n; rw [h]; rfl
@[simp] theorem State.goOn_c (n r : Nat) : (s.goOn n).c r = s.c r := by obtain ⟨_, _, _, _, _, h⟩ := s.goOn_cases n; rw [h]; rfl
@[simp] theorem State.goOn_mem (n : Nat) : (s.goOn n).mem = s.mem := by obtain ⟨_, _, _, _, _, h⟩ := s.goOn_cases n; rw [h]
@[simp] theorem State.goOn_regs (n : Nat) : (s.goOn n).regs = s.regs := by obtain ⟨_, _, _, _, _, h⟩ := s.goOn_cases n; rw [h]
@[simp] theorem State.goOn_pending (n : Nat) : (s.goOn n).pending = s.pending := by obtain ⟨_, _, _, _, _, h⟩ := s.goOn_cases n; rw [h]
@[simp] theorem State.goOn_tags (n : Nat) : (s.goOn n).tags = s.tags := by obtain ⟨_, _, _, _, _, h⟩ := s.goOn_cases n; rw [h]
@[simp] theorem State.goOn_stack (n : Nat) : (s.goOn n).tri.stack = s.tri.stack := by obtain ⟨_, _, _, _, _, h⟩ := s.goOn_cases n; rw [h]
@[simp] theorem State.goOn_sp (n : Nat) : (s.goOn n).tri.sp = s.tri.sp := by obtain ⟨_, _, _, _, _, h⟩ := s.goOn_cases n; rw [h]
@[simp] theorem State.goOn_fcsr (n : Nat) : (s.goOn n).tri.fcsr = s.tri.fcsr := by obtain ⟨_, _, _, _, _, h⟩ := s.goOn_cases n; rw [h]

/-- Trifle's clock has gone on by one tc and by those the instruction took beside it (R218, R240). -/
theorem State.goOn_clk (n : Nat) : (s.goOn n).tri.clk =
    s.tri.clk + 16 * (1 + n + match s.tri.slot with | none => 0 | some d => d.lost) := by
  cases h : s.tri.slot with
  | none => simp only [State.goOn, h, State.tick_clk]; omega
  | some d => simp only [State.goOn, h, State.tick_clk]; omega

end Sys2Proof.Machine
end

