-- ==== Sys2Proof/Laws/Access.lean ====
section
/-! SUPPORT. Laws/Access.lean: Trifle's data accesses to Trifle Local, with the checks of R229. -/

namespace Sys2Proof.Machine

variable (s : State)

/-- The checks of an access pass exactly when its capability allows it (R229). -/
theorem State.capCheck_none (cb : Nat) (need : List Nat) (align n : Nat) (ea : Int) :
    s.capCheck cb need align n ea = none ↔ s.allows cb need align n ea := by
  unfold State.capCheck State.allows
  simp only [Bool.not_eq_true', ne_eq]
  split
  · next h => simp only [reduceCtorEq, false_iff]; rintro ⟨⟨h1, h2⟩, -⟩; simp [h1, h2] at h
  · next h1 =>
    split
    · next h => simp only [reduceCtorEq, false_iff]; rintro ⟨-, ⟨h1, h2⟩, -⟩; simp [h1, h2] at h
    · next h2 =>
      split
      · next h => simp only [reduceCtorEq, false_iff]; rintro ⟨-, -, h3, -⟩; simp at h; obtain ⟨x, hx, hy⟩ := h; simp [h3 x hx] at hy
      · next h3 =>
        split
        · next h => simp only [reduceCtorEq, false_iff]; rintro ⟨-, -, -, h4, -⟩; exact h h4
        · next h4 =>
          split
          · next h => simp only [reduceCtorEq, false_iff]; rintro ⟨-, -, -, -, h5, h6⟩; omega
          · next h5 =>
            simp only [true_iff]
            simp at h1 h2 h3
            exact ⟨h1, h2, h3, Decidable.not_not.1 h4, by omega, by omega⟩

theorem State.region_local (a : Nat) (hr : s.rd XW_CTL.REMAP = 0) (h1 : 0x10000000 ≤ a) (h2 : a < 0x10200000) :
    s.region a = .tLocal a := by
  have e : s.isOn XW_CTL.REMAP = false := by simp [State.isOn, hr]
  unfold State.region regionOf
  rw [e]
  simp only [Bool.false_eq_true, if_false]
  rw [if_neg (by omega), if_neg (by omega), if_pos h2]

/-- A transaction's way to its port leaves nothing but the arbitration's state (R34). -/
theorem State.arbUntil_eq (port m : Nat) (ms : List Nat) : ∀ (f : Nat) (s : State), s.arbitrated (s.arbUntil port m ms f) := by
  intro f
  induction f with
  | zero => intro s; rfl
  | succ f ih =>
    intro s
    have h1 : s.arbitrated (s.arbOnce port ms).2 := rfl
    unfold State.arbUntil
    simp only
    split
    · exact h1
    · have h2 := ih (s.arbOnce port ms).2
      unfold State.arbitrated at h1 h2 ⊢
      rw [h2, h1]

theorem State.toPortAmong_eq (m a : Nat) (rivals : List Nat) : s.arbitrated (s.toPortAmong m a rivals) := by
  unfold State.toPortAmong
  split
  · exact State.arbUntil_eq _ _ _ _ _
  · rfl

theorem State.toPort_eq (m a : Nat) : ∃ cr tn, s.toPort m a = { s with credit := cr, xw.turn := tn } :=
  ⟨_, _, s.toPortAmong_eq m a []⟩

/-- Trifle Local is in no reset while none is asserted. -/
theorem State.inReset_local (a : Nat) (hr : s.rd XW_CTL.REMAP = 0) (h0 : s.pwr.asserted = 0) (h1 : 0x10000000 ≤ a)
    (h2 : a < 0x10200000) : s.inReset a = false := by
  simp [State.inReset, s.region_local a hr h1 h2, h0]

/-- A split access of Trifle Local is served. -/
theorem State.splitBad_local (b : Bool) (a : Nat) (hr : s.rd XW_CTL.REMAP = 0) (h1 : 0x10000000 ≤ a)
    (h2 : a < 0x10200000) : s.splitBad b a = false := by
  simp [State.splitBad, s.region_local a hr h1 h2]

/-- A read of sound bytes of Trifle Local by Trifle. -/
theorem State.busGet_local (sec : Bool) (a n : Nat) (hr : s.rd XW_CTL.REMAP = 0) (h0 : s.pwr.asserted = 0) (h1 : 0x10000000 ≤ a)
    (h2 : a < 0x10200000) (hc : ∀ g ∈ gransOf a n, s.clean g) :
    ∃ cr tn, s.busGet 0 sec a n = (some (s.bytes a n), { s with credit := cr, xw.turn := tn }) := by
  obtain ⟨cr, tn, hcr⟩ := s.toPort_eq 0 a
  refine ⟨cr, tn, ?_⟩
  have eb : (({ s with credit := cr, xw.turn := tn } : State)).bytes a n = s.bytes a n := State.bytes_congr a n (fun _ _ _ => rfl)
  have e : (({ s with credit := cr, xw.turn := tn } : State)).eccRead a n = (s.bytes a n, []) :=
    (State.eccRead_clean ({ s with credit := cr, xw.turn := tn } : State) a n (fun g hg => hc g hg)).trans (by rw [eb])
  unfold State.busGet State.busRead
  simp [s.inReset_local a hr h0 h1 h2, s.region_local a hr h1 h2, hcr, State.localRead, e, clusterOf]

theorem State.clearTags_eq (a n : Nat) : s.clearTags a n = { s with tags := (s.clearTags a n).tags } := by
  unfold State.clearTags; split <;> rfl

theorem State.clearTags_tagged (a n x : Nat) (hn : 0 < n) : (s.clearTags a n).tagged x =
    (s.tagged x && !(decide (a / 16 ≤ x / 16) && decide (x / 16 ≤ (a + n - 1) / 16))) := by
  have e : (s.clearTags a n).tags = s.tags.filter (fun g => decide (g < a / 16) || decide ((a + n - 1) / 16 < g)) := by
    unfold State.clearTags; rw [if_neg (by omega)]
  unfold State.tagged
  rw [e, List.elem_eq_contains, List.elem_eq_contains, Bool.eq_iff_iff]
  simp only [List.contains_iff_mem, List.mem_filter, Bool.or_eq_true, decide_eq_true_eq, Bool.and_eq_true,
    Bool.not_eq_true', Bool.and_eq_false_iff, decide_eq_false_iff_not]
  exact and_congr_right fun _ => by omega

/-- A write of sound bytes of Trifle Local by Trifle. -/
theorem State.busPut_local (sec : Bool) (a : Nat) (bs : List Byte) (hr : s.rd XW_CTL.REMAP = 0) (h0 : s.pwr.asserted = 0)
    (h1 : 0x10000000 ≤ a)
    (h2 : a < 0x10200000) (hb : 0 < bs.length) (hc : ∀ g ∈ gransOf a bs.length, s.clean g) :
    ∃ u, s.busPut 0 sec a bs = (true, u) ∧ s.stored u a bs ∧ (∀ g, s.clean g → u.clean g) := by
  obtain ⟨cr, tn, hcr⟩ := s.toPort_eq 0 a
  obtain ⟨t, ht, hw⟩ := State.eccWrite_clean ({ s with credit := cr, xw.turn := tn } : State) a bs (fun g hg => hc g hg)
  refine ⟨t.clearTags a bs.length, ?_, ⟨?_, ?_, ?_, ?_⟩, ?_⟩
  · unfold State.busPut State.busWrite
    simp [s.inReset_local a hr h0 h1 h2, s.region_local a hr h1 h2, hcr, State.localWrite, ht, clusterOf]
  · rw [State.clearTags_eq, hw.rest]
  · intro i hi; rw [State.clearTags_eq]; exact hw.inside i hi
  · intro x hx; rw [State.clearTags_eq]; exact hw.outside x hx
  · intro x
    rw [State.clearTags_tagged _ _ _ _ hb]
    have : t.tagged x = s.tagged x := by rw [hw.rest]; rfl
    rw [this]
  · intro g hg; rw [State.clearTags_eq]; exact hw.clean g hg

theorem State.inLocal_clean (n : Nat) (ea : Int) (h : s.inLocal n ea) (a m : Nat) (ha : ea.toNat ≤ a)
    (hm : a + m ≤ ea.toNat + n) : ∀ g ∈ gransOf a m, s.clean g := by
  intro g hg
  rw [gransOf_mem] at hg
  refine h.2.2.2.2 g (Nat.le_trans (Nat.div_le_div_right ha) hg.2.1) (Nat.le_trans hg.2.2 (Nat.div_le_div_right (by omega)))

theorem splitParts_eq (a n : Nat) (hn : 0 < n) : splitParts a n = [(a, n)] ∨
    ∃ k, 0 < k ∧ k < n ∧ splitParts a n = [(a, k), (a + k, n - k)] := by
  unfold splitParts
  split
  · exact .inl rfl
  · next h =>
    refine .inr ⟨n - a % n, ?_⟩
    have h1 := Nat.mod_lt a hn
    have h2 : (a / n + 1) * n = a + (n - a % n) := by
      have h3 : a / n * n + a % n = a := Nat.div_add_mod' a n
      rw [Nat.add_mul, Nat.one_mul]; omega
    refine ⟨by omega, by omega, ?_⟩
    simp only [h2]
    rw [show a + (n - a % n) - a = n - a % n by omega, show a + n - (a + (n - a % n)) = n - (n - a % n) by omega]

/-- The value read from sound bytes of Trifle Local through a capability that allows it (R228 to R230). -/
theorem State.loadVal_local (cb n : Nat) (ea : Int) (hn : 0 < n) (ha : s.allows cb [permR] 1 n ea)
    (hl : s.inLocal n ea) : ∃ cr tn, s.loadVal cb n ea = (.ok (s.num ea.toNat n), { s with credit := cr, xw.turn := tn }) := by
  have hck := (s.capCheck_none cb [permR] 1 n ea).2 ha
  have hcl := s.inLocal_clean n ea hl
  obtain ⟨hr, h0, h1, h2, -⟩ := hl
  unfold State.loadVal
  rw [hck]
  rcases splitParts_eq ea.toNat n hn with hp | ⟨k, hk0, hk1, hp⟩
  · obtain ⟨cr, tn, hg⟩ := s.busGet_local ((s.c cb).has permSEC) ea.toNat n hr h0 (by omega) (by omega)
      (hcl ea.toNat n (by omega) (by omega))
    refine ⟨cr, tn, ?_⟩
    have hb := fun b => s.splitBad_local b ea.toNat hr (by omega) (by omega)
    simp only [hp, hb, Bool.false_eq_true, if_false, State.readParts, hg, List.append_nil]
    rfl
  · obtain ⟨cr, tn, hg⟩ := s.busGet_local ((s.c cb).has permSEC) ea.toNat k hr h0 (by omega) (by omega)
      (hcl ea.toNat k (by omega) (by omega))
    obtain ⟨cr2, tn2, hg2⟩ := State.busGet_local ({ s with credit := cr, xw.turn := tn } : State) ((s.c cb).has permSEC) (ea.toNat + k)
      (n - k) (by rw [← hr]; rfl) (by rw [← h0]) (by omega) (by omega) (fun g hg => hcl (ea.toNat + k) (n - k) (by omega) (by omega) g hg)
    refine ⟨cr2, tn2, ?_⟩
    have e : (({ s with credit := cr, xw.turn := tn } : State)).c cb = s.c cb := rfl
    have hb := fun b => s.splitBad_local b ea.toNat hr (by omega) (by omega)
    have hb2 := fun b => State.splitBad_local ({ s with credit := cr, xw.turn := tn } : State) b (ea.toNat + k) (by rw [← hr]; rfl)
      (by omega) (by omega)
    simp only [hp, hb, hb2, Bool.false_eq_true, if_false, State.readParts, hg, e, hg2, List.append_nil]
    have e2 : State.bytes ({ s with credit := cr, xw.turn := tn } : State) (ea.toNat + k) (n - k) = s.bytes (ea.toNat + k) (n - k) :=
      State.bytes_congr _ _ (fun _ _ _ => rfl)
    rw [e2, ← State.bytes_add, Nat.add_sub_cancel' (by omega)]
    rfl

theorem State.stored_append {s t u : State} {a : Nat} {x y : List Byte} (hx : 0 < x.length) (hy : 0 < y.length)
    (h1 : s.stored t a x) (h2 : t.stored u (a + x.length) y) : s.stored u a (x ++ y) := by
  obtain ⟨r1, i1, o1, t1⟩ := h1
  obtain ⟨r2, i2, o2, t2⟩ := h2
  refine ⟨?_, ?_, ?_, ?_⟩
  · rw [r2, r1]
  · intro i hi
    by_cases hx' : i < x.length
    · rw [List.getElem_append_left hx', o2 _ (by omega), i1 i hx']
    · rw [List.getElem_append_right (by omega), ← i2 (i - x.length) (by simp at hi; omega)]
      congr 1; omega
  · intro z hz
    rw [List.length_append] at hz
    rw [o2 z (by omega), o1 z (by omega)]
  · intro z
    rw [t2, t1, List.length_append, Bool.eq_iff_iff]
    simp only [Bool.and_eq_true, Bool.not_eq_true', Bool.and_eq_false_iff, decide_eq_false_iff_not]
    have h3 : (a + x.length - 1) / 16 ≤ (a + x.length) / 16 := Nat.div_le_div_right (by omega)
    have h4 : (a + x.length) / 16 ≤ (a + x.length - 1) / 16 + 1 := by omega
    have h5 : (a + x.length + y.length - 1) = (a + (x.length + y.length) - 1) := by omega
    have h6 : (a + x.length) / 16 ≤ (a + x.length + y.length - 1) / 16 := Nat.div_le_div_right (by omega)
    have h7 : a / 16 ≤ (a + x.length) / 16 := Nat.div_le_div_right (by omega)
    have h8 : (a + x.length - 1) / 16 ≤ (a + x.length + y.length - 1) / 16 := Nat.div_le_div_right (by omega)
    rw [h5] at h6 h8
    rw [h5]
    constructor
    · rintro ⟨⟨hs, h9⟩, h10⟩; exact ⟨hs, by omega⟩
    · rintro ⟨hs, h9⟩; exact ⟨⟨hs, by omega⟩, by omega⟩

theorem toBytes_split (n k v : Nat) (h : k ≤ n) : (toBytes n v).take k ++ (toBytes n v).drop k = toBytes n v :=
  List.take_append_drop k _

/-- A store of sound bytes of Trifle Local through a capability that allows it (R228 to R230). -/
theorem State.storeVal_local (cb n v : Nat) (ea : Int) (hn : 0 < n) (ha : s.allows cb [permW] 1 n ea)
    (hl : s.inLocal n ea) : ∃ u, s.storeVal cb n ea v = (none, u) ∧ s.stored u ea.toNat (toBytes n v) := by
  have hck := (s.capCheck_none cb [permW] 1 n ea).2 ha
  have hcl := s.inLocal_clean n ea hl
  obtain ⟨hr, h0, h1, h2, -⟩ := hl
  unfold State.storeVal
  rw [hck]
  rcases splitParts_eq ea.toNat n hn with hp | ⟨k, hk0, hk1, hp⟩
  · obtain ⟨u, hu, hst, -⟩ := s.busPut_local ((s.c cb).has permSEC) ea.toNat (toBytes n v) hr h0 (by omega) (by omega)
      (by simpa using hn) (by simpa using hcl ea.toNat n (by omega) (by omega))
    refine ⟨u, ?_, hst⟩
    have e : (toBytes n v).take n = toBytes n v := List.take_of_length_le (by simp)
    have hb := fun b => s.splitBad_local b ea.toNat hr (by omega) (by omega)
    simp only [hp, hb, Bool.false_eq_true, if_false, State.writeParts, e, hu]
  · have hk : ((toBytes n v).take k).length = k := by simp; omega
    have hd : ((toBytes n v).drop k).length = n - k := by simp
    obtain ⟨t, ht, hst, hclt⟩ := s.busPut_local ((s.c cb).has permSEC) ea.toNat ((toBytes n v).take k) hr h0 (by omega) (by omega)
      (by omega) (by rw [hk]; exact hcl ea.toNat k (by omega) (by omega))
    have hreg : t.rd XW_CTL.REMAP = 0 := by rw [hst.1]; exact hr
    obtain ⟨u, hu, hsu, -⟩ := t.busPut_local ((s.c cb).has permSEC) (ea.toNat + k) ((toBytes n v).drop k) hreg (by rw [hst.1]; exact h0) (by omega)
      (by omega) (by omega) (by
        rw [hd]; intro g hg; exact hclt g (hcl (ea.toNat + k) (n - k) (by omega) (by omega) g hg))
    refine ⟨u, ?_, ?_⟩
    · have e : t.c cb = s.c cb := by rw [hst.1]; rfl
      have e2 : ((toBytes n v).drop k).take (n - k) = (toBytes n v).drop k := List.take_of_length_le (by omega)
      have hb := fun b => s.splitBad_local b ea.toNat hr (by omega) (by omega)
      have hb2 := fun b => t.splitBad_local b (ea.toNat + k) hreg (by omega) (by omega)
      simp only [hp, hb, hb2, Bool.false_eq_true, if_false, State.writeParts, ht, e, e2, hu]
    · have hx0 : 0 < ((toBytes n v).take k).length := by rw [hk]; exact hk0
      have hy0 : 0 < ((toBytes n v).drop k).length := by rw [hd]; omega
      have := State.stored_append hx0 hy0 hst (by rw [hk]; exact hsu)
      rwa [List.take_append_drop] at this

/-! The instructions. -/

/-- An instruction that issues, retires and holds X or M for n further tc. -/
theorem State.trifle_slow (h : s.issues = true) (inSlot : Bool) (hs : inSlot = true ∨ s.tri.slot = none)
    (body : State → TRes) (isBody : RptBody → Bool) (t : State) (n : Nat) (hb : body s = .slow t n) (ht : t.dbg = s.dbg) :
    s.trifle inSlot body isBody = t.goOn n := by
  rw [s.trifle_of_issues h inSlot hs, hb, State.finish_slow, State.tryHalt_of_not]
  rw [State.goOn_halting, ht]; exact s.issues_halting h

/-- The tc that a split access of Trifle Local takes (R230). -/
theorem State.splitTc_local (n : Nat) (ea : Int) (hl : s.inLocal n ea) (hn : 0 < n) :
    s.splitTc ea.toNat n = if ea % n = 0 then 0 else 1 := by
  unfold State.splitTc
  obtain ⟨hr, h0, h1, h2, -⟩ := hl
  rw [s.region_local _ hr (by omega) (by omega)]
  obtain ⟨k, rfl⟩ : ∃ k : Nat, ea = k := ⟨ea.toNat, by omega⟩
  simp only [Int.toNat_natCast]
  norm_cast

/-- A load of sound bytes of Trifle Local through a capability that allows it. -/
theorem State.loadWith_local (h : s.issues = true) (ra : Fin 32) (cb : Fin 16) (imm : BitVec 9) (n : Nat)
    (k : State → Nat → State) (hk : ∀ u v, (k u v).dbg = u.dbg) (hn : 0 < n)
    (ha : s.allows cb [permR] 1 n (s.ea cb ra imm.toInt n)) (hl : s.inLocal n (s.ea cb ra imm.toInt n)) :
    ∃ cr tn, s.loadWith ra cb imm n k = .next ((k { s with credit := cr, xw.turn := tn }
      (s.num (s.ea cb ra imm.toInt n).toNat n)).goOn (if s.ea cb ra imm.toInt n % n = 0 then 0 else 1)) := by
  obtain ⟨cr, tn, hv⟩ := s.loadVal_local cb n _ hn ha hl
  refine ⟨cr, tn, ?_⟩
  unfold State.loadWith next
  rw [s.trifle_slow h true (.inl rfl) _ _ (k { s with credit := cr, xw.turn := tn } (s.num (s.ea cb ra imm.toInt n).toNat n))
    (s.splitTc (s.ea cb ra imm.toInt n).toNat n), s.splitTc_local n _ hl hn]
  · simp only [State.loadFrom, hv]
  · rw [hk]

/-- A store of sound bytes of Trifle Local through a capability that allows it. -/
theorem State.storeOf_local (h : s.issues = true) (ra : Fin 32) (cb : Fin 16) (imm : BitVec 9) (n : Nat)
    (v : State → Word) (hn : 0 < n) (ha : s.allows cb [permW] 1 n (s.ea cb ra imm.toInt n))
    (hl : s.inLocal n (s.ea cb ra imm.toInt n)) :
    ∃ u, s.storeOf ra cb imm n v = .next (u.goOn (if s.ea cb ra imm.toInt n % n = 0 then 0 else 1)) ∧
      s.stored u (s.ea cb ra imm.toInt n).toNat (toBytes n (v s).toNat) := by
  obtain ⟨u, hu, hst⟩ := s.storeVal_local cb n (v s).toNat _ hn ha hl
  refine ⟨u, ?_, hst⟩
  unfold State.storeOf next
  rw [s.trifle_slow h true (.inl rfl) _ _ u (s.splitTc (s.ea cb ra imm.toInt n).toNat n), s.splitTc_local n _ hl hn]
  · simp only [State.storeTo, hu]
  · rw [hst.1]

/-- Sign extension of the low w bits. -/
theorem ofNat_sext64 (w x : Nat) (hw : w = 8 ∨ w = 16 ∨ w = 32) :
    BitVec.ofNat 64 (sext64 w x) = (BitVec.ofNat w x).signExtend 64 := by
  have e : asInt x w = (BitVec.ofNat w x).toInt := by
    unfold asInt BitVec.toInt
    rcases hw with rfl | rfl | rfl <;> simp <;> omega
  unfold sext64 BitVec.signExtend ofInt
  rw [e]
  apply BitVec.eq_of_toNat_eq
  simp only [BitVec.toNat_ofNat, BitVec.toNat_ofInt]
  exact Nat.mod_eq_of_lt (by have := Int.emod_lt_of_pos (BitVec.ofNat w x).toInt (b := (2 ^ 64 : Nat)) (by decide); omega)

end Sys2Proof.Machine
end

