-- ==== Sys2Proof/Laws/Canonical.lean ====
section
/-! SUPPORT. Laws/Canonical.lean: every operation on memory and on registers keeps their canonical forms, and the reset state
has them. -/

namespace Sys2Proof.Machine

variable {s t : State}

/-- The memory and the register map are in their canonical forms. -/
def State.canonical (s : State) : Prop := s.memWf = true ∧ s.regsWf = true

theorem reset_canonical : State.reset.canonical := ⟨rfl, rfl⟩

theorem reset_memWf : State.reset.memWf = true := rfl

/-- What changes neither memory nor registers keeps them. -/
theorem canonical_of (h : s.canonical) (hm : t.mem = s.mem) (hr : t.regs = s.regs) : t.canonical := by
  unfold State.canonical State.memWf State.regsWf at *
  rw [hm, hr]; exact h

theorem pwr_canonical (h : s.canonical) (p : PwrS) : State.canonical { s with pwr := p } := ⟨h.1, h.2⟩
theorem rcv_canonical (h : s.canonical) (r : RcvS) : State.canonical { s with rcv := r } := ⟨h.1, h.2⟩
theorem tri_canonical (h : s.canonical) (r : TriS) : State.canonical { s with tri := r } := ⟨h.1, h.2⟩
theorem time_canonical (h : s.canonical) (n : Nat) : State.canonical { s with time := n } := ⟨h.1, h.2⟩
theorem syn_canonical (h : s.canonical) (m : List (Nat × BitVec 8)) : State.canonical { s with syn := m } := ⟨h.1, h.2⟩

/-! Registers. -/

theorem wrReg_canonical (h : s.canonical) (a v : Nat) : (s.wrReg a v).canonical := ⟨h.1, SMap.wf_set _ _ _ _ h.2⟩
theorem wr_canonical (h : s.canonical) (f : Fld) (v : Nat) : (s.wr f v).canonical := by
  unfold State.wr; exact wrReg_canonical h _ _
theorem on_canonical (h : s.canonical) (f : Fld) : (s.on f).canonical := by unfold State.on; exact wr_canonical h _ _
theorem off_canonical (h : s.canonical) (f : Fld) : (s.off f).canonical := by unfold State.off; exact wr_canonical h _ _
theorem put_canonical (h : s.canonical) (f : Fld) (b : Bool) : (s.put f b).canonical := by
  unfold State.put; exact wr_canonical h _ _
theorem gain_canonical (h : s.canonical) (f : Fld) (n : Nat) : (s.gain f n).canonical := by
  unfold State.gain; exact wr_canonical h _ _
theorem bump_canonical (h : s.canonical) (f : Fld) : (s.bump f).canonical := by unfold State.bump; exact gain_canonical h _ _
theorem bumpWrap_canonical (h : s.canonical) (f : Fld) : (s.bumpWrap f).canonical := by
  unfold State.bumpWrap; exact wr_canonical h _ _
theorem orBits_canonical (h : s.canonical) (f : Fld) (m : Nat) : (s.orBits f m).canonical := by
  unfold State.orBits; exact wr_canonical h _ _
theorem clearBits_canonical (h : s.canonical) (f : Fld) (m : Nat) : (s.clearBits f m).canonical := by
  unfold State.clearBits; exact wr_canonical h _ _
theorem wr2_canonical (h : s.canonical) (f g : Fld) (v : Nat) : (s.wr2 f g v).canonical := by
  unfold State.wr2; exact wr_canonical (wr_canonical h _ _) _ _
theorem when_canonical (b : Bool) (f : State → State) (h : s.canonical) (hf : (f s).canonical) : (s.when b f).canonical := by
  unfold State.when; split <;> assumption
theorem rcLog_canonical (h : s.canonical) (a b c d : Nat) : (s.rcLog a b c d).canonical := by
  unfold State.rcLog; exact bumpWrap_canonical (rcv_canonical h _) _

/-- A request for a reset that is heeded sets its cause and changes the power block's own state only. -/
theorem callReset_cases (s : State) (k c : Nat) : s.callReset k c = s ∨
    ∃ p, s.callReset k c = { s.orBits RST_CAUSE.CAUSE (2 ^ c) with pwr := p } := by
  unfold State.callReset
  split
  · exact .inl rfl
  · exact .inr ⟨_, rfl⟩

theorem callReset_canonical (h : s.canonical) (k c : Nat) : (s.callReset k c).canonical := by
  rcases callReset_cases s k c with e | ⟨p, e⟩ <;> rw [e]
  · exact h
  · exact pwr_canonical (orBits_canonical h _ _) _

/-! Memory. -/

theorem setByte_canonical (h : s.canonical) (a : Nat) (b : Byte) : (s.setByte a b).canonical := ⟨SMap.wf_set _ _ _ _ h.1, h.2⟩
theorem setBytes_canonical (h : s.canonical) (a : Nat) (bs : List Byte) : (s.setBytes a bs).canonical := ⟨memPut_wf _ _ _ h.1, h.2⟩
theorem setNum_canonical (h : s.canonical) (a n v : Nat) : (s.setNum a n v).canonical := by
  unfold State.setNum; exact setBytes_canonical h _ _
theorem wipeMem_canonical (h : s.canonical) (lo hi : Nat) : (s.wipeMem lo hi).canonical := ⟨SMap.wf_clear _ _ _ _ h.1, h.2⟩
theorem clearTags_canonical (h : s.canonical) (a n : Nat) : (s.clearTags a n).canonical := by
  unfold State.clearTags; split
  · exact h
  · exact canonical_of h rfl rfl
theorem setTag_canonical (h : s.canonical) (a : Nat) : (s.setTag a).canonical := canonical_of h rfl rfl
theorem flipGran_canonical (h : s.canonical) (g : Nat) (m : BitVec 72) : (s.flipGran g m).canonical := by
  unfold State.flipGran
  exact syn_canonical (setNum_canonical h _ _ _) _
theorem putGran_canonical (h : s.canonical) (g d : Nat) : (s.putGran g d).canonical := by
  have h1 : State.canonical { s.setNum (8 * g) 8 d with syn := SMap.erase g s.syn } :=
    syn_canonical (setNum_canonical h _ _ _) _
  unfold State.putGran
  dsimp only
  split
  · exact h1
  · exact flipGran_canonical h1 _ _
theorem upset_canonical (h : s.canonical) (u : Upset) : (s.upset u).canonical := by
  have := flipGran_canonical h u.gran u.mask
  unfold State.upset
  dsimp only
  split
  · exact ⟨this.1, this.2⟩
  · exact this
theorem writePart_canonical (h : s.canonical) (p : Nat × Nat × List Byte) : (s.writePart p).1.canonical := by
  unfold State.writePart
  split
  · exact putGran_canonical h _ _
  · dsimp only; split
    · exact h
    · exact putGran_canonical h _ _
theorem eccWrite_canonical (h : s.canonical) (a : Nat) (bs : List Byte) : (s.eccWrite a bs).1.canonical := by
  unfold State.eccWrite
  generalize granParts bs.length a bs = l
  suffices H : ∀ acc : State × List GEv, acc.1.canonical →
      (l.foldl (fun acc p => let (s', e) := acc.1.writePart p; (s', acc.2 ++ e)) acc).1.canonical from H _ h
  induction l with
  | nil => exact fun acc h => h
  | cons p t ih => exact fun acc h => ih _ (writePart_canonical h p)

/-- The same for a fold of operations that each keep them. -/
theorem foldl_canonical {α : Type} (l : List α) (f : State → α → State) (hf : ∀ u x, u.canonical → (f u x).canonical)
    (s : State) (h : s.canonical) : (l.foldl f s).canonical := by
  induction l generalizing s with
  | nil => exact h
  | cons a t ih => exact ih _ (hf _ _ h)

end Sys2Proof.Machine
end

