-- ==== Sys2Proof/Tests/Slice0.lean ====
section
/-! SUPPORT. Tests/Slice0.lean: the model's own tests. First WellFormed on ill-formed terms and single steps with the values
of the spec's worked examples (each test names its section); then, per obligation, states and operands that meet the
hypotheses of its clauses, at boundary values where a clause has a range. -/

namespace Sys2Proof.Tests

open Sys2Proof.Machine

set_option maxRecDepth 100000
set_option Elab.async false

/-! Small states. -/

/-- An entry-stack frame of a kind. -/
def wFrame (k : FrameKind) : EFrame := ⟨k, 0x10000000, rootMem, Cap.null, 0, 0, 16, none, none⟩

/-- n frames of a kind on the entry stack. -/
def wStack (k : FrameKind) (n : Nat) (s : State) : State := { s with tri.stack := List.replicate n (wFrame k) }

/-- Entry e of the table of a reset machine, its low doubleword lo; gate entry 0 holds the root. -/
def wEntry (e lo : Nat) (s : State) : State := (({ s with tri.geUsed := [(0, rootMem)] } : State).setNum (0x10000000 + 16 * e) 8 lo)

/-- A queue of 16 slots with the given DEPTH. -/
def wDesc (depth : Nat) : QDesc := ⟨0x1000 + 4 * 2 ^ 32 + 2 ^ 42, depth * 2 ^ 16, 0, 0⟩

/-- The queue engine on, queue q attached with that descriptor. -/
def wQueue (q depth : Nat) (s : State) : State :=
  let t := ((s.wr QUE_CTL.EN 1).wr QUE_DBASE_HI.ADDR_HI 8).setBytes (0x800000000 + 32 * q) (wDesc depth).bytes
  { t with que.attached := [q], que.cache := [(q, wDesc depth)] }

/-- Soft entry e of the active buffer. -/
def wEnt (e w : Nat) (s : State) : State := s.setNum (sstoreBase + 8 * (8 + e)) 8 w

/-- A schedule of one instruction, ROUNDEND, in a buffer. -/
def wSched (buf : Nat) (s : State) : State :=
  (s.setNum (sstoreBase + 0x200000 * buf) 8 (80 + 2 ^ 32)).setNum (sstoreBase + 0x200000 * buf + 8 * 1032) 8 (12 * 2 ^ 58)

/-- A run launched from soft entry 70. -/
def wRun (chain strands : Nat) (s : State) : State := { s with rib.runs := [RibRun.launch chain strands true (some 70) false] }

/-- Mover descriptor d. -/
def wMv (d a b c : Nat) (s : State) : State := ((((s.wr (MV_DESC.DESC d 0) (a % 2 ^ 32)).wr (MV_DESC.DESC d 1) (a / 2 ^ 32)).wr (MV_DESC.DESC d 2) (b % 2 ^ 32)).wr
  (MV_DESC.DESC d 3) (b / 2 ^ 32)).wr (MV_DESC.DESC d 4) (c % 2 ^ 32) |>.wr (MV_DESC.DESC d 5) (c / 2 ^ 32)

/-- Port 15 of block 63 in a role. -/
def wPort (role opt : Nat) (p : PortS) (s : State) : State :=
  let t : State := s.wr (FLD_CTL.EN 63) 1
  { t with
    fld.eff := [((FLD_PCFG_A.ROLE 63 15).addr, BitVec.ofNat 32 (role * 2 ^ (FLD_PCFG_A.ROLE 63 15).lo + opt * 2 ^ (FLD_PCFG_A.OPT 63 15).lo))]
    fld.ports := [(1023, p)] }

/-- Camera port 7, on and linked. -/
def wCam (p : CamPort) (s : State) : State :=
  let t : State := ((s.wr (CAM_CTL.EN 7) 1).wr (CAM_STAT.LINK 7) 1).wr (CAM_SLOTSZ.SIZE 7) 1
  { t.wr (CAM_RBASE.BASE 7) 0x2FFFFE with cam.ports := [(7, p)] }

/-- A chain descriptor: one or two readers, one or two writers. -/
def wDescr (ctrl two len ridx out : Nat) : Nat :=
  let slot (p x : Nat) : Nat := x * 2 ^ (8 * (0x40 + 0x20 * p))
  let inp (b : Nat) : Nat := 1 + 2 * 16 + b * 2 ^ 24 + 2 ^ 64
  ctrl + (2 ^ 44 + (if out = 2 then 2 ^ 48 else 0)) * 2 ^ 64 + (len + ridx * 2 ^ 32) * 2 ^ (8 * 0x30) + slot 0 (inp 0x100000) +
    (if two = 1 then slot 1 (inp 0x100040) else 0) + slot 4 (1 + 2 * 16 + 1 * 256 + 0x200000 * 2 ^ 24 + 2 ^ 64) +
    (if out = 2 then slot 5 (1 + 2 * 16 + 1 * 256 + 0x200400 * 2 ^ 24 + 2 ^ 64) else 0)

/-- Chain 4,095 with a descriptor, and its runs. -/
def wRib (d : Nat) (runs : List RibRun) (s : State) : State :=
  let t := (upto 8).foldl (fun (t : State) i => t.setNum (8 * t.wordGran (8 * 4095 + i) 0) 32 (bits d (256 * i + 255) (256 * i))) s
  { t with rib.runs := runs, rib.cct0 := [(0, rootMem), (1, rootMem)] }

/-- A run of chain 4,095 that has, or has not, read its first beat. -/
def wRunning (d strands : Nat) (got : Bool) : RibRun :=
  { RibRun.launch 4095 strands true none false with
    phase := .running, desc := d, caps := List.replicate 6 rootMem, limit := 16
    reads := if got then [[⟨[List.replicate 32 7], []⟩], [], [], []] else [[], [], [], []] }

/-- A frame of the chain. -/
def wFr (cls sub dst src arg h2 : Nat) (body : List Byte) : Frame :=
  ⟨cls + 16 + dst * 2 ^ 8 + src * 2 ^ 16, body.length + sub * 2 ^ 12 + arg * 2 ^ 32, h2, pad8 body⟩

/-- A frame that waits at port U. -/
def wRx (cls sub src arg h2 : Nat) (body : List Byte) : RxFrame := ⟨0, wFr cls sub 3 src arg h2 body, body, none, 0⟩

/-- A module of a line of 5: address, head or not, ports up (1 U, 2 D). -/
def wNode (addr head up : Nat) (s : State) : State :=
  ((((s.wr CHN_ADDR.ADDR addr).wr CHN_ADDR.COUNT 5).wr CHN_CTL.HEAD head).wr CHN_STAT.UP_U (up % 2)).wr CHN_STAT.UP_D (up / 2)

/-- A request of the Archive. -/
def wMsg (op len buf seq : Nat) : List Byte :=
  toBytes 4 op ++ toBytes 4 len ++ toBytes 8 buf ++ List.replicate 32 0 ++ toBytes 8 seq ++ List.replicate 8 0

/-- The Archive ready, with a request in queue 1. -/
def wArc (m : List Byte) (s : State) : State :=
  let t := wQueue 1 1 ((((s.wr ARC_STAT.STATE arcReady).wr ARC_RQUEUE.QUEUE 1).wr ARC_STAGE_BASE_HI.ADDR_HI 8).wr ARC_STAGE_LEN.LEN 17)
  t.setBytes ((wDesc 1).slotAddr 0) m

/-- The sequencer runs a program of one instruction. -/
def wProg (w : Nat) (s : State) : State :=
  { (s.wr SCH_STAT.STATE 3).setNum (sstoreBase + 8 * 1032) 8 w with sch.plen := 1, sch.ended := false }

/-! The state after a command that answers next. -/

def wAfter (i : Instr) (s : State) : State := match exec i s with
  | .next t => t
  | _ => s

/-! WellFormed refuses an ill-formed term for each of its checks, beside a well-formed one. -/

theorem test_wf_register_write : Instr.wf (.registerWrite 0 true 0x40001002 7) = false ∧
    Instr.wf (.registerWrite 0 true 0x40001004 7) = true := by decide

theorem test_wf_bulk_access : Instr.wf (.bulkAccess ⟨0, []⟩ false 0x800000001 64 [] []) = false ∧
    Instr.wf (.bulkAccess ⟨0, []⟩ false 0x800000000 0 [] []) = false ∧ Instr.wf (.bulkAccess ⟨0, []⟩ true 0x800000000 2 [1] []) = false ∧
    Instr.wf (.bulkAccess ⟨0, []⟩ false 0x800000000 1 [1] []) = false ∧ Instr.wf (.bulkAccess ⟨0, []⟩ false 0x800000000 64 [] [⟨0, 0, false⟩]) = false ∧
    Instr.wf (.bulkAccess ⟨0, []⟩ true 0x80000003F 1 [1] [⟨0, 1, false⟩]) = true := by decide

theorem test_wf_lattice : Instr.wf (.latticeAccess [⟨0, 1, 0, 0, 0x300000, true, 1, 1, 0⟩] []) = false ∧
    Instr.wf (.latticeAccess [⟨0, 1, 0, 0, 0, false, 1, 0, 0⟩] []) = false ∧
    Instr.wf (.latticeAccess [⟨0, 1, 0, 0, 0, false, 0, 1, 0⟩] []) = false ∧ Instr.wf (.latticeAccess [] [⟨0, 0, false⟩]) = false ∧
    Instr.wf (.scrub [⟨0, 0, false⟩]) = false ∧ Instr.wf (.latticeAccess [⟨0, 1, 0, 0, 0x2FFFFF, true, 1, 1, 0⟩] [⟨0, 1, false⟩]) = true := by decide

theorem test_wf_registers_differ : Instr.wf (.dstep 1 1 2 false) = false ∧ Instr.wf (.dstep 0 1 2 false) = false ∧
    Instr.wf (.dstep 1 2 2 false) = false ∧ Instr.wf (.dstep 1 2 0 true) = true ∧ Instr.wf (.jalr 3 3 0) = false ∧
    Instr.wf (.jalr 0 0 0) = true := by decide

theorem test_wf_rounding : Instr.wf (.fadd 1 2 3 false 1) = false ∧ Instr.wf (.fadd 1 2 3 false 3) = false ∧
    Instr.wf (.fadd 1 2 3 false 4) = true ∧ Instr.wf (.fcvtff 1 2 false 4) = false ∧ Instr.wf (.fcvtff 1 2 true 4) = true := by decide

theorem test_wf_groups : Instr.wf (.vadd 1 2 4 1 0 0) = false ∧ Instr.wf (.vadd 4 8 12 2 0 0) = true ∧
    Instr.wf (.vqmule 0 2 4 1 0 0) = false ∧ Instr.wf (.vqmule 0 2 4 1 2 0) = true ∧ Instr.wf (.vins 4 1 3 8 2) = false ∧
    Instr.wf (.vext 1 4 3 7 2) = true ∧ Instr.wf (.vext 1 6 3 7 2) = false := by decide

theorem test_wf_repeat : Instr.wf (.rpt 0 0 1 .other 1) = false ∧ Instr.wf (.rpt 0 1 1 (.dstep 1 2 3 false) 1) = false ∧
    Instr.wf (.rpt 0 0 1 (.dstep 1 1 3 false) 1) = false ∧ Instr.wf (.rpt 0 0 1 (.dstep 1 2 3 false) 1) = true := by decide

theorem test_wf_counts : Instr.wf (.controlAck 0 false (List.replicate 9 0)) = false ∧
    Instr.wf (.controlAck 0 false (List.replicate 8 0)) = true ∧
    Instr.wf (.archiveRecovery (List.replicate 5 ⟨0, true, true, 0, 0, 0⟩)) = false ∧
    Instr.wf (.archiveRecovery (List.replicate 4 ⟨0, true, true, 0, 0, 0⟩)) = true ∧
    Instr.wf (.wakeSequence (List.replicate 7 4000)) = false ∧ Instr.wf (.wakeSequence (List.replicate 8 4000)) = true := by decide

/-! One step, with the values of the spec's worked examples and tables. -/

/-- 02_lattice: row 0x91 and bank 0x32 hold word 0x9_1A3; 05_schedule: 0x1_4400 and 0x1_4480 lie in banks 0x40 and 0xC0;
13_field: 0x1_54A6 lies in bank 0xF6. -/
theorem test_lattice_bank : latBank 0x91A3 = 0x32 ∧ latRow 0x91A3 = 0x91 ∧ latBank 0x14400 = 0x40 ∧ latBank 0x14480 = 0xC0 ∧
    latBank 0x154A6 = 0xF6 := by decide +kernel

/-- 00_scope: RL 250 is a round of 31,250 ns, RL 0 the default of 31.25 µs. -/
theorem test_round_length : (State.reset.wr SCH_STAT.RL 250).roundLen = 16 * 31250 ∧ State.reset.roundLen = 16 * 31250 := by
  decide +kernel

/-- 05_schedule: a MARK at rcr 1,000 of the round of 1,000,000,000 ns reads 1,000,000,625. -/
theorem test_mark : (wAfter (.mark false true 3)
    (wProg (schInstr 9 (2 ^ 4 + 3)) { State.reset with time := 16 * 1000000000 + 10 * 1000 })).rd (SCH_MARK_LO.CT 3) = 1000000625 := by decide +kernel

/-- 11_events, "a result queue": the fifth ENQ of queue 0x4_0017 goes to slot 0 and pushes q into FIFO 0; slot 62 is at
0x09_0000_0F80. -/
def wResultQueue : State :=
  let t := ((State.reset.wr QUE_CTL.EN 1).wr QUE_DBASE_HI.ADDR_HI 0xC).setBytes 0xC008002E0
    (QDesc.bytes ⟨0x0000050604000000, 60 + 4 * 2 ^ 32, 0x000001F400000005, 0⟩)
  { t.setGN 1 0x40017 with que.attached := [0x40017], que.cache := [(0x40017, ⟨0x0000050604000000, 60 + 4 * 2 ^ 32, 0x000001F400000005, 0⟩)] }

theorem test_result_queue : wResultQueue.queDescAddr 0x40017 = 0xC008002E0 ∧
    QDesc.slotAddr ⟨0x0000050604000000, 0, 0, 0⟩ 62 = 0x900000F80 := by decide +kernel

/-- 12_chain, "one segment": t1 = 1,000, t4 = 1,157.25 and 120.5 ns at the peer give a delay of 294 sixteenths. -/
theorem test_peer_delay : (wAfter (.pdresp 0 18516) { wNode 2 0 3 State.reset with
    chn.u := { ChnPort.idle with t1 := 16000 }
    chn.rx := [⟨0, wFr 1 1 0 1 0 0 (toBytes 8 1928), toBytes 8 1928, none, 0⟩] }).rd CHN_TDLY_U.DELAY = 294 := by decide +kernel

/-- 12_chain: CHN_ACL0_A = 0xC000_2802 and CHN_ACL0_B = 0x0FF4_0000 let addresses 2 to 40 enqueue to queues 0x4_0000 to
0x4_00FF. -/
theorem test_acl : let s := (State.reset.wrReg (CHN_ACL_A.addr 0) 0xC0002802).wrReg (CHN_ACL_B.addr 0) 0x0FF40000
    s.aclCovers 1 2 0x40000 = true ∧ s.aclCovers 1 40 0x400FF = true ∧ s.aclCovers 1 41 0x40000 = false ∧
      s.aclCovers 1 2 0x40100 = false ∧ s.aclCovers 0 2 0x40000 = false := by decide +kernel

/-- 13_field, "one drive in the default round": the DOWN of port 5 of block 3 starts at B + 20,000 and ends at B + 25,900. -/
def wDrive : State := { State.reset.wr (FLD_CTL.EN 3) 1 with
  fld.eff := [((FLD_PCFG_A.ROLE 3 5).addr, BitVec.ofNat 32 (2 ^ (FLD_PCFG_A.ROLE 3 5).lo)),
    ((FLD_PCFG_B.TXOFF 3 5).addr, BitVec.ofNat 32 (20000 * 2 ^ (FLD_PCFG_B.TXOFF 3 5).lo))]
  mem := (State.setNum State.reset (bankAt 3 2 (planeOff 2 5)) 4 8).mem
  fld.ports := [(53, { PortS.idle with due := true })] }

theorem test_drive_down : let t := wAfter (.down 3 5) wDrive
    (t.port1 3 5).eof = 25900 ∧ (t.port1 3 5).waiting = true ∧ t.out.map (fun o => o.bytes.length) = [112] := by decide +kernel

/-- 10_authority, "narrowing and revoking": CAPSUB, CAPRST and CAPSLOT leave 0x3005_0000_0003_0000_0100_0008_4000_0000. -/
theorem test_capslot : ((wAfter (.capslot 1 1 3) { (State.reset.setGN 3 3).setC 1 (Cap.make 0x840000000 0x10000 3 0 0 0 true) with
    tri.epr := [(3, 5)], tri.eprW := [(3, 5)] }).c 1).v = 0x30050000000300000100000840000000 := by decide +kernel

theorem test_capsub : let c := (wAfter (.capsub 1 0 1 2) ((State.reset.setGN 1 0x840000000).setGN 2 0x10000)).c 1
    (c.tag, c.base, c.len) = (true, 0x840000000, 0x10000) := by decide +kernel

/-- The same example: an LD of 8 bytes at offset 0xFFFC ends in CAP_BOUNDS with FADDR = 0x08_4001_0000. -/
theorem test_capBounds : (wAfter (.ld 5 3 1 0) (wEntry 1 0x8000000010000000 (wEntry 2 0x8000000010000000
    ((State.reset.setC 1 (Cap.make 0x840000000 0x10000 3 0 0 0 true)).setGN 3 0xFFFC)))).tri.faddr = 0x840010000 := by decide +kernel

/-- 09_extensions, "an overlapping move, interrupted": after three elements of RPT and SMOV. -/
def wMove : State := wAfter (.smov 3 4 1 1) <| wAfter (.rpt 0 3 10 (.smov 3 4 1 1) 3)
  (((State.reset.setC 1 (Cap.make 0x10000000 0x10000 3 0 0 0 true)).setGN 3 0x100).setGN 4 0x110)

theorem test_overlapping_move : (wMove.sp spCnt, wMove.sp spSrc, wMove.sp spDst, wMove.sp spSt) = (7, 0x100, 0x110, 0xF) := by
  decide +kernel

/-- 10_authority, "an entry taken over": entry 131 of the table at offset 0x1_0000 enters 0x00_1000_4000 in compartment 2 at
priority 12 (ACTL 12 + 1) with a hold window of 40. -/
def wBreach : State := wAfter .interruptEntry { (((State.reset.wr (ICU_PEND.PEND 3) 8).wr (ICU_EN.EN 3) 8).wrReg
    (ICU_PRIO.addr 12) 0xC000).setNum 0x10010830 8 0x8002820010004000 with
  tri.htb := 0x10000, tri.htbUsed := 0x10000, tri.geUsed := [(4, rootMem)] }

theorem test_interrupt_entry : (wBreach.tri.pc, wBreach.tri.comp, wBreach.tri.actl, wBreach.tri.stack.length) =
    (0x10004000, 2, 13, 1) := by decide +kernel

/-- 16_security: ten fuses blown and two slots programmed read 0x0A00_EC02. -/
theorem test_sec_stat : ({ State.reset with sec.n := 10, sec.prog := 3 } : State).viewSecStat (State.reset.rdReg SEC_STAT.addr) = 0x0A00EC02 := by
  decide +kernel

/-- 15_power, "a firmware swap that fails": the start window expires: RST_STARTS 1, cause bit 3 beside bit 8. -/
theorem test_start_window : let t := wAfter .startWindow ((State.reset.wr RST_STAT.WIN 1).wr RST_CAUSE.CAUSE 0x100)
    (t.rd RST_CAUSE.CAUSE, t.rd RST_STARTS.COUNT, t.pwr.req) = (0x108, 1, 2) := by decide +kernel

/-- 17_debug, "reading XW_ID over the wire": MRD of 0x00_4007_0000 answers OK with 0x0192_0302. -/
theorem test_xw_id : (wAfter (.mrd 0x40070000 (BitVec.ofNat 8 (crc8 (DCmd.mrd 0x40070000).fields)) false)
    (State.reset.wr DBG_STAT.LINK 1)).resp = .code 1 0x01920302 := by decide +kernel

/-- R460: eight periods of 4 µs make Tc 1 µs and the link ACTIVE. -/
theorem test_wake_sequence : (wAfter (.wakeSequence (List.replicate 8 4000)) State.reset).rd DBG_STAT.LINK = 1 := by decide +kernel

/-- 08_core, "a dot product": ADDI G4, G4, −1; an LD of the doubleword at C1 + G3. -/
theorem test_addi : (wAfter (.addi 4 4 0xFFF) (State.reset.setGN 4 256)).g 4 = 255 := by decide +kernel

theorem test_ld : (wAfter (.ld 5 3 0 0) ((State.reset.setGN 3 0x10000100).setNum 0x10000100 8 0x8877665544332211)).g 5 =
    0x8877665544332211 := by decide +kernel

/-- G0 reads 0 and discards writes (R217). -/
theorem test_g0 : (wAfter (.addi 0 0 5) State.reset).g 0 = 0 := by decide +kernel

/-- R135, R254: a signed saturating add of halfwords holds at 32,767. -/
theorem test_vadds : (wAfter (.vadds 3 1 2 0 1 0) ((State.reset.setV 1 0x7FFF).setV 2 1)).v 3 = 0x7FFF := by decide +kernel

/-- The queue is first in, first out; with nothing waiting one rc passes (log entry 2). -/
theorem test_queue_order : step { State.reset with pending := [.addi 1 0 5, .addi 1 0 6] } =
    exec (.addi 1 0 5) { State.reset with pending := [.addi 1 0 6] } ∧
    step State.reset = .next (State.reset.pass 10) := ⟨rfl, rfl⟩

/-- No row of the table has bits, so no word spells a command (Decode.lean). -/
theorem test_decode : decodeTableWord 32 0x10A31C00 = none ∧ State.reset.withFetchWord 32 0x10A31C00 = State.reset := ⟨rfl, rfl⟩

/-! Witnesses: the hypotheses of the statements can be met. -/

theorem clean_sound {s : State} (h : s.syn = [] ∧ s.stuck = []) (g : Nat) : s.sound g := by
  simp [State.sound, h.1, h.2, SMap.get]

theorem clean_word {s : State} (h : s.syn = [] ∧ s.stuck = []) (w : Nat) : s.soundWord w := fun _ _ => clean_sound h _

theorem clean_local {s : State} {n : Nat} {ea : Int} (h : (s.syn = [] ∧ s.stuck = []) ∧ s.rd XW_CTL.REMAP = 0 ∧
    s.pwr.asserted = 0 ∧ 0x10000000 ≤ ea ∧ ea + n ≤ 0x10200000) : s.inLocal n ea :=
  ⟨h.2.1, h.2.2.1, h.2.2.2.1, h.2.2.2.2, fun g _ _ => clean_sound h.1 g⟩

theorem clean_queue {s : State} {q : Nat} {d : QDesc} (h : (s.syn = [] ∧ s.stuck = []) ∧ s.isOn QUE_CTL.EN = true ∧
    q ∈ s.que.attached ∧ qdescOf (s.bytes (s.queDescAddr q) 32) = d ∧ d.ok = true ∧ d.enable = true ∧
    inBulk (s.queDescAddr q) 32 = true ∧ bulkBase ≤ d.slotAddr 0 ∧
    (s.queDescAddr q + 32 ≤ d.slotAddr 0 ∨ d.slotAddr d.n ≤ s.queDescAddr q) ∧
    s.que.cache.length ≤ 4096 ∧ (∀ x ∈ s.que.cache, x.1 = q → x.2 = d) ∧ s.pwr.asserted ≤ 1 ∧ s.bulk.redir = [] ∧ s.bulk.ueGran = []) : s.queueAt q d := by
  obtain ⟨c, h1, h2, h3, h4, h5, h6, h7, h8, h9, h10, h11, h12, h13⟩ := h
  exact ⟨h1, h2, h3, h4, h5, h6, h7, h8, h9, h10, h11, h12, h13, fun g _ _ => clean_sound c g⟩

theorem parsed_length {o : Option (Nat × List Byte)} {t n : Nat}
    (h : o.all (fun x => x.1 != t || x.2.length != n) = true) : ∀ pl, o = some (t, pl) → pl.length ≠ n := by
  rintro pl rfl e
  simp [e] at h

def isNext (o : Res) (t : State) : Bool := match o with
  | .next u => decide (u = t)
  | _ => false

theorem next_of {o : Res} {t : State} (h : isNext o t = true) : o = .next t := by
  unfold isNext at h
  split at h
  · exact congrArg _ (of_decide_eq_true h)
  · cases h

theorem bounded {p : Nat → Prop} {b m : Nat} (h : ∀ i, i < m → b ≤ i → p i) : ∀ i, b ≤ i → i < m → p i :=
  fun i x y => h i y x

theorem sch_issues {s : State} {w : Nat} (h : (s.syn = [] ∧ s.stuck = []) ∧ s.live = true ∧
    (s.rd SCH_STAT.STATE = 3 ∨ s.rd SCH_STAT.STATE = 4) ∧ s.sch.ended = false ∧ s.sch.held = none ∧
    s.rd SCH_PC.PC < s.sch.plen ∧ s.num (schWordAt (s.rd SCH_STAT.ACT) (1032 + s.rd SCH_PC.PC)) 8 = w) : s.schIssues w := by
  obtain ⟨c, h1, h2, h3, h4, h5, h6⟩ := h
  exact ⟨h1, h2, h3, h4, h5, clean_sound c _, h6⟩

theorem no_test {s : State} (h : s.rcv.vtesting = none) : ∀ v, s.rcv.vtesting ≠ some (v, s.now) := by simp [h]

theorem after_next {i : Instr} {s : State} (h : (match exec i s with | .next _ => true | _ => false) = true) :
    exec i s = .next (wAfter i s) := by
  unfold wAfter
  split at h
  · rename_i e; simp [e]
  · cases h

/-- O1. -/
theorem meets_IntegerOperations :
    ∃ (s : State) (t : State) (i : Instr) (rd : Fin 32) (r : _), exec i s = .next t ∧ s.issues = true ∧
      i.intDest = some rd ∧ r ≠ rd.val :=
  ⟨State.reset, (wAfter (.add 1 2 3) State.reset), (.add 1 2 3), 1, 2, after_next (by decide +kernel), by decide +kernel⟩

/-- O2. -/
theorem meets_ImmediateOperations :
    ∃ (s : State), s.issues = true :=
  ⟨State.reset, by decide +kernel⟩

/-- O3. -/
theorem meets_LocalAccesses :
    (∃ (s : State) (ra : Fin 32) (cb : Fin 16) (imm : BitVec 9),
      let ea (n : Nat) : Int := ((s.c cb).base : Int) + (s.g ra).toNat + imm.toInt * n;
      let ok (n : Nat) : Prop := s.allows cb [permR] 1 n (ea n) ∧ s.inLocal n (ea n); ok 1 ∧ ok 2 ∧ ok 4 ∧ ok 8 ∧ s.allows
      cb [permW] 1 1 (ea 1) ∧ s.inLocal 1 (ea 1) ∧ s.allows cb [permW] 1 2 (ea 2) ∧ s.inLocal 2 (ea 2) ∧ s.allows cb [permW]
      1 4 (ea 4) ∧ s.inLocal 4 (ea 4) ∧ s.allows cb [permW] 1 8 (ea 8) ∧ s.inLocal 8 (ea 8) ∧ s.issues = true) ∧
    (∃ (s : State) (ra : Fin 32) (cb : Fin 16) (w : Bool),
      let n : Nat := if w then 4 else 8; let ea : Int := ((s.c cb).base : Int) + (s.g ra).toNat; s.allows cb [permR, permW] n n ea ∧ s.inLocal n ea ∧ s.issues = true) :=
  ⟨⟨(State.reset.setGN 1 0x101FFFF8), 1, 0, 0, ⟨by unfold State.allows; decide +kernel, clean_local (by decide +kernel)⟩,
      ⟨by unfold State.allows; decide +kernel, clean_local (by decide +kernel)⟩, ⟨by unfold State.allows; decide +kernel,
      clean_local (by decide +kernel)⟩, ⟨by unfold State.allows; decide +kernel, clean_local (by decide +kernel)⟩,
      by unfold State.allows; decide +kernel, clean_local (by decide +kernel), by unfold State.allows; decide +kernel,
      clean_local (by decide +kernel), by unfold State.allows; decide +kernel, clean_local (by decide +kernel),
      by unfold State.allows; decide +kernel, clean_local (by decide +kernel), by decide +kernel⟩,
    ⟨(State.reset.setGN 1 0x101FFFF8), 1, 0, false, by unfold State.allows; decide +kernel, clean_local (by decide +kernel),
      by decide +kernel⟩⟩

/-- O4. -/
theorem meets_AccessChecks_1 :
    (∃ (s : State) (cb : Nat) (n : Nat), let c := s.c cb; let current := c.tag = true ∧ s.currentCap c = true; 0 < n ∧
      (¬current)) ∧
    (∃ (s : State) (cb : Nat) (n : Nat), let c := s.c cb; let current := c.tag = true ∧ s.currentCap c = true;
      let plain := c.sealv = 0 ∧ c.otype = 0; 0 < n ∧ current ∧ (¬plain)) ∧
    (∃ (s : State) (cb : Nat) (need : List Nat) (n : Nat), let c := s.c cb;
      let current := c.tag = true ∧ s.currentCap c = true; let plain := c.sealv = 0 ∧ c.otype = 0;
      let permitted := ∀ p ∈ need, c.has p = true; 0 < n ∧ current ∧ plain ∧ (¬permitted)) ∧
    (∃ (s : State) (cb : Nat) (need : List Nat) (align : Nat) (n : Nat) (ea : Int), let c := s.c cb;
      let current := c.tag = true ∧ s.currentCap c = true; let plain := c.sealv = 0 ∧ c.otype = 0;
      let permitted := ∀ p ∈ need, c.has p = true; let aligned := ea % align = 0; 0 < n ∧ current ∧ plain ∧ permitted ∧
      (¬aligned)) ∧
    (∃ (s : State) (cb : Nat) (need : List Nat) (align : Nat) (n : Nat) (ea : Int), let c := s.c cb;
      let current := c.tag = true ∧ s.currentCap c = true; let plain := c.sealv = 0 ∧ c.otype = 0;
      let permitted := ∀ p ∈ need, c.has p = true; let aligned := ea % align = 0;
      let inside := (c.base : Int) ≤ ea ∧ ea + n ≤ (c.base + c.len : Nat); 0 < n ∧ current ∧ plain ∧ permitted ∧ aligned ∧
      (¬inside)) ∧
    (∃ (s : State) (cb : Nat) (need : List Nat) (align : Nat) (n : Nat) (ea : Int), let c := s.c cb;
      let current := c.tag = true ∧ s.currentCap c = true; let plain := c.sealv = 0 ∧ c.otype = 0;
      let permitted := ∀ p ∈ need, c.has p = true; let aligned := ea % align = 0;
      let inside := (c.base : Int) ≤ ea ∧ ea + n ≤ (c.base + c.len : Nat); 0 < n ∧ current ∧ plain ∧ permitted ∧ aligned ∧
      inside) :=
  ⟨⟨State.reset, 7, 8, by decide +kernel⟩,
    ⟨State.reset, 1, 8, by decide +kernel⟩,
    ⟨(State.reset.setC 0 (Cap.make 0 (2 ^ 40 - 1) 1 0 0 0 true)), 0, [permW], 8, by decide +kernel⟩,
    ⟨State.reset, 0, [permW], 8, 8, 0x10000004, by decide +kernel⟩,
    ⟨(State.reset.setC 0 (rootCap 0 0 15)), 0, [permW], 8, 8, 8, by decide +kernel⟩,
    ⟨State.reset, 0, [permW], 8, 8, 8, by decide +kernel⟩⟩

/-- O4. -/
theorem meets_AccessChecks_2 :
    ∃ (s : State) (ra : Fin 32) (cb : Fin 16) (imm : BitVec 9) (w : Bool) (f : TFault),
      let n : Nat := if w then 4 else 8; let ea (n : Nat) : Int := ((s.c cb).base : Int) + (s.g ra).toNat + imm.toInt * n; let at0 : Int := ((s.c cb).base : Int) + (s.g ra).toNat; s.issues = true ∧ s.capCheck cb [permR] 1 1 (ea 1) = some f ∧ s.capCheck cb [permR] 1 2 (ea 2) = some f ∧ s.capCheck cb [permR] 1 4 (ea 4) = some f ∧ s.capCheck cb [permR] 1 8 (ea 8) = some f ∧ s.capCheck cb [permW] 1 1 (ea 1) = some f ∧ s.capCheck cb [permW] 1 2 (ea 2) = some f ∧ s.capCheck cb [permW] 1 4 (ea 4) = some f ∧ s.capCheck cb [permW] 1 8 (ea 8) = some f ∧ s.capCheck cb [permR, permW] n n at0 = some f :=
  ⟨State.reset, 1, 7, 0, false, (.check 5 7 0), by decide +kernel⟩

/-- O5. -/
theorem meets_Multiply :
    (∃ (s : State) (t : State) (ra : Fin 32) (rb : Fin 32), exec (.mulu ra rb) s = .next t ∧ s.issues = true ∧ s.tri.mul =
      [] ∧ s.rcv.paused = none ∧ s.rd DBG_STAT.FROST = 0) ∧
    (∃ (s : State) (due : Nat) (m : MulOp) (rest : List (Nat × MulOp)), s.tri.mul = (due, m) :: rest ∧ (s.rcv.paused ≠ none
      ∨ s.rd DBG_STAT.FROST = 1)) ∧
    (∃ (s : State) (due : Nat) (m : MulOp) (rest : List (Nat × MulOp)), s.tri.mul = (due, m) :: rest ∧ s.rcv.paused = none ∧
      s.rd DBG_STAT.FROST = 0) :=
  ⟨⟨State.reset, (wAfter (.mul 1 2) State.reset), 1, 2, after_next (by decide +kernel), by decide +kernel⟩,
    ⟨(({ State.reset with tri.mul := [(48, .set 5)] } : State).wr DBG_STAT.FROST 1), 48, (.set 5), [], by decide +kernel⟩,
    ⟨{ State.reset with tri.mul := [(48, .set 5)] }, 48, (.set 5), [], by decide +kernel⟩⟩

/-- O6. -/
theorem meets_ControlTransfers_1 :
    (∃ (s : State) (ra : Fin 32) (rb : Fin 32) (rd : Fin 32), let a := s.g ra; let b := s.g rb; s.ready = true ∧ (a = b) ∧
      (¬(a ≠ b)) ∧ (¬(a.toInt < b.toInt)) ∧ (b.toInt ≤ a.toInt) ∧ (¬(a.toNat < b.toNat)) ∧ (b.toNat ≤ a.toNat) ∧ (a = 0) ∧
      (¬(a ≠ 0)) ∧ (¬(a.toInt < 0)) ∧ (0 ≤ a.toInt) ∧ (¬(0 < a.toInt)) ∧ (a.toInt ≤ 0) ∧ rd = ra ∧ rd ≠ 0) ∧
    (∃ (s : State) (ra : Fin 32) (rb : Fin 32), let a := s.g ra; let b := s.g rb; s.ready = true ∧ (¬(a = b)) ∧ (¬(a = 0)) ∧
      (¬(a.toInt ≤ 0))) ∧
    (∃ (s : State) (ra : Fin 32) (rb : Fin 32), let a := s.g ra; let b := s.g rb; s.ready = true ∧ (a ≠ b) ∧ (a ≠ 0) ∧ (0 <
      a.toInt)) ∧
    (∃ (s : State) (ra : Fin 32) (rb : Fin 32), let a := s.g ra; let b := s.g rb; s.ready = true ∧ (a.toInt < b.toInt) ∧
      (a.toNat < b.toNat)) ∧
    (∃ (s : State) (ra : Fin 32) (rb : Fin 32), let a := s.g ra; let b := s.g rb; s.ready = true ∧ (¬(b.toInt ≤ a.toInt)) ∧
      (¬(0 ≤ a.toInt))) ∧
    (∃ (s : State) (ra : Fin 32) (rb : Fin 32), let a := s.g ra; let b := s.g rb; s.ready = true ∧ (¬(b.toNat ≤ a.toNat))) :=
  ⟨⟨State.reset, 1, 2, 1, by decide +kernel⟩,
    ⟨(State.reset.setGN 1 1), 1, 2, by decide +kernel⟩,
    ⟨(State.reset.setGN 1 2), 1, 2, by decide +kernel⟩,
    ⟨(State.reset.setGN 1 2), 2, 1, by decide +kernel⟩,
    ⟨(State.reset.setGN 1 (2 ^ 64 - 1)), 1, 2, by decide +kernel⟩,
    ⟨(State.reset.setGN 2 1), 1, 2, by decide +kernel⟩⟩

/-- O6. -/
theorem meets_ControlTransfers_2 :
    (∃ (s : State) (ra : Fin 32), let a := s.g ra; s.ready = true ∧ (a.toInt < 0)) ∧
    (∃ (s : State) (rd : Fin 32) (ra : Fin 32) (imm : BitVec 16),
      let a : BitVec 40 := (s.g ra + BitVec.ofInt 64 imm.toInt).setWidth 40; s.ready = true ∧ (rd ≠ ra ∨ rd = 0) ∧ a.toNat %
      4 = 0) ∧
    (∃ (s : State) (rd : Fin 32) (ra : Fin 32) (imm : BitVec 16),
      let a : BitVec 40 := (s.g ra + BitVec.ofInt 64 imm.toInt).setWidth 40; s.ready = true ∧ (rd ≠ ra ∨ rd = 0) ∧ a.toNat %
      4 ≠ 0) ∧
    (∃ (s : State) (d : Slot) (i : Instr), s.tri.slot = some d ∧ ({ s with tri.slot := none } : State).ready = true ∧
      d.annul = true ∧ i.intDest ≠ none) ∧
    (∃ (s : State) (d : Slot), let barred : Prop := 0x20 ≤ bits s.fetchWord 31 26 ∧ bits s.fetchWord 31 26 ≤ 0x23;
      s.tri.slot = some d ∧ ({ s with tri.slot := none } : State).ready = true ∧ d.annul = true ∧ (¬barred)) ∧
    (∃ (s : State) (d : Slot) (i : Instr), s.tri.slot = some d ∧ ({ s with tri.slot := none } : State).ready = true ∧
      i.noSlot = true) :=
  ⟨⟨(State.reset.setGN 1 0xFFFFFFFFFFFFFFFC), 1, by decide +kernel⟩,
    ⟨State.reset, 3, 1, 0, by decide +kernel⟩,
    ⟨(State.reset.setGN 1 2), 3, 1, 0, by decide +kernel⟩,
    ⟨{ State.reset with tri.slot := some ⟨0, 8, true, 2⟩ }, ⟨0, 8, true, 2⟩, (.add 1 2 3), by decide +kernel⟩,
    ⟨{ State.reset with tri.pc := 0x10000000, tri.slot := some ⟨0, 8, true, 2⟩ }, ⟨0, 8, true, 2⟩, by decide +kernel⟩,
    ⟨{ State.reset with tri.slot := some ⟨0, 8, true, 2⟩ }, ⟨0, 8, true, 2⟩, .sync, by decide +kernel⟩⟩

/-- O6. -/
theorem meets_ControlTransfers_3 :
    ∃ (s : State) (d : Slot), let barred : Prop := 0x20 ≤ bits s.fetchWord 31 26 ∧ bits s.fetchWord 31 26 ≤ 0x23;
      s.tri.slot = some d ∧ ({ s with tri.slot := none } : State).ready = true ∧ barred :=
  ⟨{ State.reset.setNum 0x10000000 4 0x80000000 with tri.pc := 0x10000000, tri.slot := some ⟨0, 8, true, 2⟩ }, ⟨0, 8, true,
    2⟩, by decide +kernel⟩

/-- O7. -/
theorem meets_SpecialRegisters :
    (∃ (s : State) (n : Nat), let held := n = 0 ∨ n = 1 ∨ n = 0x10 ∨ n = 0x11 ∨ n = 0x12 ∨ n = 0x13 ∨ n = 0x18; s.issues =
      true ∧ s.tri.slot = none ∧ held) ∧
    (∃ (s : State) (n : Nat), let held := n = 0 ∨ n = 1 ∨ n = 0x10 ∨ n = 0x11 ∨ n = 0x12 ∨ n = 0x13 ∨ n = 0x18; s.issues =
      true ∧ n < 256 ∧ (¬held) ∧ n ≠ 2 ∧ n ≠ 3 ∧ n ≠ 4) ∧
    (∃ (s : State) (n : Nat), s.issues = true ∧ (n = 0x10 ∨ n = 0x11 ∨ n = 0x12)) :=
  ⟨⟨State.reset, 0, by decide +kernel⟩,
    ⟨State.reset, 255, by decide +kernel⟩,
    ⟨State.reset, 0x10, by decide +kernel⟩⟩

/-- O8. -/
theorem meets_Waits_1 :
    (∃ (s : State), s.ready = true ∧ s.tri.ev = true) ∧
    (∃ (s : State) (ra : Fin 32), s.ready = true ∧ s.tri.ev = false ∧ ra = 0) ∧
    (∃ (s : State) (ra : Fin 32), s.ready = true ∧ s.tri.ev = false ∧ ra ≠ 0 ∧ s.now < (s.g ra).toNat ∧ s.tri.ctLast < (s.g
      ra).toNat) ∧
    (∃ (s : State) (ra : Fin 32), s.ready = true ∧ s.tri.ev = false ∧ ra ≠ 0 ∧ (s.g ra).toNat + 6 ≤ s.now) ∧
    (∃ (s : State) (rd : Fin 32) (l : Nat), s.triClocked = true ∧ s.tri.wait = some (.event rd (some l)) ∧ s.tri.ev = true) ∧
    (∃ (s : State) (rd : Fin 32) (l : Nat), s.triClocked = true ∧ s.tri.wait = some (.event rd (some l)) ∧ s.tri.ev = false) :=
  ⟨⟨{ State.reset with tri.ev := true }, by decide +kernel⟩,
    ⟨State.reset, 0, by decide +kernel⟩,
    ⟨(State.reset.setGN 2 1), 2, by decide +kernel⟩,
    ⟨{ State.reset with time := 112 }, 2, by decide +kernel⟩,
    ⟨{ State.reset with tri.wait := some (.event 1 (some 7)), tri.ev := true }, 1, 7, by decide +kernel⟩,
    ⟨{ State.reset with tri.wait := some (.event 1 (some 7)) }, 1, 7, by decide +kernel⟩⟩

/-- O8. -/
theorem meets_Waits_2 :
    (∃ (s : State) (rd : Fin 32) (l : Nat), s.triClocked = true ∧ s.tri.wait = some (.time rd l)) ∧
    (∃ (s : State) (ra : Fin 32), s.ready = true ∧ (s.g ra).toNat + 6 ≤ s.now) :=
  ⟨⟨{ State.reset with tri.wait := some (.time 1 7) }, 1, 7, by decide +kernel⟩,
    ⟨{ State.reset with time := 112 }, 0, by decide +kernel⟩⟩

/-- O9. -/
theorem meets_FloatOperations :
    (∃ (s : State) (rm : BitVec 3) (p : Bool), s.issues = true ∧ (rm = 0 ∨ 4 ≤ rm.toNat) ∧ (p = true ∨ rm = 0)) ∧
    (∃ (s : State) (p : Bool) (rm : BitVec 3), s.issues = true ∧ p = false ∧ rm ≠ 0 ∧ 1 ≤ rm.toNat ∧ rm.toNat ≤ 3) :=
  ⟨⟨State.reset, 0, false, by decide +kernel⟩,
    ⟨State.reset, false, 1, by decide +kernel⟩⟩

/-- O10. -/
theorem meets_VectorOperations :
    (∃ (s : State) (vd : Fin 32) (va : Fin 32) (vb : Fin 32) (grp : Fin 3) (es : Fin 4), s.issues = true ∧ vgroups grp [vd,
      va, vb] = true ∧ (es = 1 ∨ es = 2)) ∧
    (∃ (s : State) (vd : Fin 32) (va : Fin 32) (vb : Fin 32) (grp : Fin 3) (es : Fin 4), s.issues = true ∧ vgroups grp [vd,
      va, vb] = false ∧ (es = 0 ∨ es = 3) ∧ vgroups grp [va, vb] = false ∧ vgroups grp [vd] = false) ∧
    (∃ (s : State) (grp : Fin 3) (es : Fin 4) (idx : Fin 64), s.issues = true ∧ inGroup grp es idx = false) :=
  ⟨⟨State.reset, 1, 1, 1, 0, 1, by decide +kernel⟩,
    ⟨State.reset, 1, 1, 1, 1, 0, by decide +kernel⟩,
    ⟨State.reset, 0, 3, 2, by decide +kernel⟩⟩

/-- O11. -/
theorem meets_PredicatesAndMoves :
    ∃ (s : State) (va : Fin 32) (vb : Fin 32) (grp : Fin 3) (d : Fin 32) (es : Fin 4) (idx : Fin 64) (r : Fin 32),
      let n : Nat := 16 * 2 ^ grp.val / 2 ^ es.val; s.issues = true ∧ vgroups grp [va, vb] = true ∧ vgroups grp [d] = true ∧
      idx.val < n ∧ vgroups grp [r] = true :=
  ⟨State.reset, 1, 1, 0, 1, 1, 1, 1, by decide +kernel⟩

/-- O12. -/
theorem meets_VectorMemory :
    (∃ (s : State) (v : Fin 32) (grp : Fin 3) (es : Fin 4), let e : Nat := 2 ^ es.val; let n : Nat := 16 * 2 ^ grp.val / e;
      let k0 : Nat := (s.sp spVx).toNat; s.issues = true ∧ (vgroups grp [v] = false ∨ n ≤ k0)) ∧
    (∃ (s : State) (v : Fin 32) (ra : Fin 32) (cb : Fin 16) (grp : Fin 3) (es : Fin 4) (limit : Nat),
      let e : Nat := 2 ^ es.val; let n : Nat := 16 * 2 ^ grp.val / e; let k0 : Nat := (s.sp spVx).toNat;
      let ea : Int := ((s.c cb).base : Int) + (s.g ra).toNat;
      let whole : Prop := s.tri.slot ≠ none ∨ (s.dbg.step = false ∧ n ≤ limit); s.allows cb [permR] 1 (n * e) ea ∧ s.inLocal
      (n * e) ea ∧ s.allows cb [permW] 1 (n * e) ea ∧ s.issues = true ∧ vgroups grp [v] = true ∧ k0 < n ∧ whole) ∧
    (∃ (s : State) (v : Fin 32) (grp : Fin 3) (es : Fin 4) (pr : Fin 8) (k : _), let e : Nat := 2 ^ es.val;
      let n : Nat := 16 * 2 ^ grp.val / e; let k0 : Nat := (s.sp spVx).toNat;
      let touched (k : Nat) : Prop := k0 ≤ k ∧ k < n ∧ (s.p pr).getLsbD k = true; ((∀ j, touched j → k ≤ j)) ∧ s.issues =
      true ∧ vgroups grp [v] = true ∧ s.tri.slot = none ∧ s.dbg.step = false ∧ touched k) :=
  ⟨⟨State.reset, 1, 2, 3, by decide +kernel⟩,
    ⟨(State.reset.setGN 1 0x101FFFC0), 4, 1, 0, 2, 3, 8, by unfold State.allows; decide +kernel, clean_local
      (by decide +kernel), by unfold State.allows; decide +kernel, by decide +kernel⟩,
    ⟨(State.reset.setP 1 128), 4, 2, 3, 1, 7,
      fun j h => Nat.le_of_not_lt fun q => absurd h.2.2 ((by decide +kernel : ∀ i, i < 7 → ¬((State.reset.setP 1 128).p 1).getLsbD i = true) j q), by decide +kernel⟩⟩

/-- O13. -/
theorem meets_Division :
    (∃ (s : State) (rd : Fin 32) (rs : Fin 32) (rt : Fin 32), s.issues = true ∧ distinct rd rs rt = true) ∧
    (∃ (s : State) (rd : Fin 32) (rs : Fin 32) (rt : Fin 32), s.issues = true ∧ distinct rd rs rt = false) :=
  ⟨⟨State.reset, 1, 2, 0, by decide +kernel⟩,
    ⟨State.reset, 1, 1, 1, by decide +kernel⟩⟩

/-- O14. -/
theorem meets_Repeats_1 :
    (∃ (s : State) (b : RptBody), s.ready = true ∧ bodyKind b = none) ∧
    (∃ (s : State) (sz : Fin 4) (b : RptBody), s.ready = true ∧ bodyKind b = some 4 ∧ sz ≠ 0) ∧
    (∃ (s : State) (sz : Fin 4) (b : RptBody) (kind : Nat), let st : Nat := (s.sp spSt).toNat; s.ready = true ∧ bodyKind b =
      some kind ∧ ((kind = 4 → sz = 0)) ∧ st % 2 = 0) ∧
    (∃ (s : State) (sz : Fin 4) (b : RptBody) (kind : Nat), let st : Nat := (s.sp spSt).toNat; s.ready = true ∧ bodyKind b =
      some kind ∧ ((kind = 4 → sz = 0)) ∧ st % 2 = 1 ∧ bits st 6 4 = kind ∧ bits st 3 2 = sz.val) ∧
    (∃ (s : State) (sz : Fin 4) (b : RptBody) (kind : Nat), let st : Nat := (s.sp spSt).toNat; s.ready = true ∧ bodyKind b =
      some kind ∧ st % 2 = 1 ∧ ((bits st 6 4 ≠ kind ∨ bits st 3 2 ≠ sz.val))) ∧
    (∃ (s : State) (r : RptS) (ra : Fin 32) (rb : Fin 32) (cs : Fin 16) (cd : Fin 16), let st : Nat := (s.sp spSt).toNat;
      let z : Nat := 2 ^ bits st 3 2; let c : Nat := (s.sp spCnt).toNat;
      let src : Nat := (s.c cs).base + (s.sp spSrc).toNat; let dst : Nat := (s.c cd).base + (s.sp spDst).toNat;
      let descends : Bool := bitb st 1;
      let reads (cb : Nat) (a : Nat) : Prop := c ≠ 0 → s.allows cb [permR] 1 (c * z) a ∧ s.inLocal (c * z) a;
      let writes (cb : Nat) (a : Nat) : Prop := c ≠ 0 → s.allows cb [permW] 1 (c * z) a ∧ s.inLocal (c * z) a; reads cs src
      ∧ writes cd dst ∧ s.tri.rpt = some r ∧ ({ s with tri.rpt := none } : State).ready = true ∧ bitb st 0 = true ∧ c ≤
      r.limit ∧ r.body = .smov ra rb cs cd ∧ bits st 6 4 = 0 ∧ (descends = true ↔ src < dst ∧ dst < src + c * z)) :=
  ⟨⟨State.reset, .other, by decide +kernel⟩,
    ⟨State.reset, 1, (.dstep 1 2 3 false), by decide +kernel⟩,
    ⟨State.reset, 0, (.smov 2 3 0 0), 0, by decide +kernel⟩,
    ⟨(State.reset.setSp spSt 1), 0, (.smov 2 3 0 0), 0, by decide +kernel⟩,
    ⟨(State.reset.setSp spSt 1), 0, (.dstep 1 2 3 false), 4, by decide +kernel⟩,
    ⟨(((({ State.reset with tri.rpt := some ⟨0, .smov 2 3 0 0, 4⟩ }.setSp spSt 3).setSp spCnt 4).setSp spSrc
      0x10000000).setSp spDst 0x10000002), ⟨0, .smov 2 3 0 0, 4⟩, 2, 3, 0, 0,
      fun _ => ⟨by unfold State.allows; decide +kernel, clean_local (by decide +kernel)⟩, fun _ => ⟨by unfold State.allows; decide +kernel, clean_local (by decide +kernel)⟩, by decide +kernel⟩⟩

/-- O14. -/
theorem meets_Repeats_2 :
    (∃ (s : State) (r : RptS) (rd : Fin 32) (rb : Fin 32) (cd : Fin 16) (down : Bool), let st : Nat := (s.sp spSt).toNat;
      let z : Nat := 2 ^ bits st 3 2; let c : Nat := (s.sp spCnt).toNat;
      let dst : Nat := (s.c cd).base + (s.sp spDst).toNat;
      let writes (cb : Nat) (a : Nat) : Prop := c ≠ 0 → s.allows cb [permW] 1 (c * z) a ∧ s.inLocal (c * z) a; writes cd dst
      ∧ s.tri.rpt = some r ∧ ({ s with tri.rpt := none } : State).ready = true ∧ bitb st 0 = true ∧ c ≤ r.limit ∧ r.body =
      .sset rd rb cd down ∧ bits st 6 4 = 1) ∧
    (∃ (s : State) (r : RptS) (rd : Fin 32) (ra : Fin 32) (rb : Fin 32) (cs : Fin 16) (cd : Fin 16) (down : Bool),
      let st : Nat := (s.sp spSt).toNat; let z : Nat := 2 ^ bits st 3 2; let c : Nat := (s.sp spCnt).toNat;
      let src : Nat := (s.c cs).base + (s.sp spSrc).toNat; let dst : Nat := (s.c cd).base + (s.sp spDst).toNat;
      let descends : Bool := bitb st 1;
      let reads (cb : Nat) (a : Nat) : Prop := c ≠ 0 → s.allows cb [permR] 1 (c * z) a ∧ s.inLocal (c * z) a;
      let same (i : Nat) : Prop := s.num (src + i * z) z = s.num (dst + i * z) z; reads cs src ∧ reads cd dst ∧ s.tri.rpt =
      some r ∧ ({ s with tri.rpt := none } : State).ready = true ∧ bitb st 0 = true ∧ c ≤ r.limit ∧ r.body = .scmp rd ra rb
      cs cd down ∧ bits st 6 4 = 2 ∧ descends = false ∧ ((∀ i, i < c → same i))) ∧
    (∃ (s : State) (r : RptS) (rd : Fin 32) (ra : Fin 32) (rb : Fin 32) (cs : Fin 16) (cd : Fin 16) (down : Bool) (j : _),
      let st : Nat := (s.sp spSt).toNat; let z : Nat := 2 ^ bits st 3 2; let c : Nat := (s.sp spCnt).toNat;
      let src : Nat := (s.c cs).base + (s.sp spSrc).toNat; let dst : Nat := (s.c cd).base + (s.sp spDst).toNat;
      let descends : Bool := bitb st 1;
      let reads (cb : Nat) (a : Nat) : Prop := c ≠ 0 → s.allows cb [permR] 1 (c * z) a ∧ s.inLocal (c * z) a;
      let same (i : Nat) : Prop := s.num (src + i * z) z = s.num (dst + i * z) z; reads cs src ∧ reads cd dst ∧ s.tri.rpt =
      some r ∧ ({ s with tri.rpt := none } : State).ready = true ∧ bitb st 0 = true ∧ c ≤ r.limit ∧ r.body = .scmp rd ra rb
      cs cd down ∧ bits st 6 4 = 2 ∧ descends = false ∧ j < c ∧ ((∀ i, i < j → same i)) ∧ (¬same j)) ∧
    (∃ (s : State) (r : RptS) (rd : Fin 32) (ra : Fin 32) (rb : Fin 32) (cs : Fin 16) (down : Bool),
      let st : Nat := (s.sp spSt).toNat; let z : Nat := 2 ^ bits st 3 2; let c : Nat := (s.sp spCnt).toNat;
      let src : Nat := (s.c cs).base + (s.sp spSrc).toNat; let descends : Bool := bitb st 1;
      let reads (cb : Nat) (a : Nat) : Prop := c ≠ 0 → s.allows cb [permR] 1 (c * z) a ∧ s.inLocal (c * z) a;
      let found (i : Nat) : Prop := s.num (src + i * z) z = (s.g rb).toNat % 2 ^ (8 * z); reads cs src ∧ s.tri.rpt = some r
      ∧ ({ s with tri.rpt := none } : State).ready = true ∧ bitb st 0 = true ∧ c ≤ r.limit ∧ r.body = .sscan rd ra rb cs
      down ∧ bits st 6 4 = 3 ∧ descends = false ∧ ((∀ i, i < c → ¬found i))) ∧
    (∃ (s : State) (r : RptS) (rd : Fin 32) (ra : Fin 32) (rb : Fin 32) (cs : Fin 16) (down : Bool) (j : _),
      let st : Nat := (s.sp spSt).toNat; let z : Nat := 2 ^ bits st 3 2; let c : Nat := (s.sp spCnt).toNat;
      let src : Nat := (s.c cs).base + (s.sp spSrc).toNat; let descends : Bool := bitb st 1;
      let reads (cb : Nat) (a : Nat) : Prop := c ≠ 0 → s.allows cb [permR] 1 (c * z) a ∧ s.inLocal (c * z) a;
      let found (i : Nat) : Prop := s.num (src + i * z) z = (s.g rb).toNat % 2 ^ (8 * z); reads cs src ∧ s.tri.rpt = some r
      ∧ ({ s with tri.rpt := none } : State).ready = true ∧ bitb st 0 = true ∧ c ≤ r.limit ∧ r.body = .sscan rd ra rb cs
      down ∧ bits st 6 4 = 3 ∧ descends = false ∧ j < c ∧ ((∀ i, i < j → ¬found i)) ∧ found j) :=
  ⟨⟨(((({ State.reset with tri.rpt := some ⟨0, .sset 1 3 0 false, 4⟩ }.setSp spSt 0x11).setSp spCnt 4).setSp spSrc
      0x10000000).setSp spDst 0x10000002), ⟨0, .sset 1 3 0 false, 4⟩, 1, 3, 0, false,
      fun _ => ⟨by unfold State.allows; decide +kernel, clean_local (by decide +kernel)⟩, by decide +kernel⟩,
    ⟨(((({ State.reset with tri.rpt := some ⟨0, .scmp 1 2 3 0 0 false, 4⟩ }.setSp spSt 0x21).setSp spCnt 4).setSp spSrc
      0x10000000).setSp spDst 0x10000002), ⟨0, .scmp 1 2 3 0 0 false, 4⟩, 1, 2, 3, 0, 0, false,
      fun _ => ⟨by unfold State.allows; decide +kernel, clean_local (by decide +kernel)⟩, fun _ => ⟨by unfold State.allows; decide +kernel, clean_local (by decide +kernel)⟩, by decide +kernel⟩,
    ⟨(((((({ State.reset with tri.rpt := some ⟨0, .scmp 1 2 3 0 0 false, 4⟩ }.setSp spSt 0x21).setSp spCnt 4).setSp spSrc
      0x10000000).setSp spDst 0x10000002).setByte 0x10000005 7) : State), ⟨0, .scmp 1 2 3 0 0 false, 4⟩, 1, 2, 3, 0, 0,
      false, 3,
      fun _ => ⟨by unfold State.allows; decide +kernel, clean_local (by decide +kernel)⟩, fun _ => ⟨by unfold State.allows; decide +kernel, clean_local (by decide +kernel)⟩, by decide +kernel⟩,
    ⟨((((({ State.reset with tri.rpt := some ⟨0, .sscan 1 2 3 0 false, 4⟩ }.setSp spSt 0x31).setSp spCnt 4).setSp spSrc
      0x10000000).setSp spDst 0x10000002).setGN 3 9), ⟨0, .sscan 1 2 3 0 false, 4⟩, 1, 2, 3, 0, false,
      fun _ => ⟨by unfold State.allows; decide +kernel, clean_local (by decide +kernel)⟩, by decide +kernel⟩,
    ⟨(((((({ State.reset with tri.rpt := some ⟨0, .sscan 1 2 3 0 false, 4⟩ }.setSp spSt 0x31).setSp spCnt 4).setSp spSrc
      0x10000000).setSp spDst 0x10000002).setByte 0x10000003 9).setGN 3 9), ⟨0, .sscan 1 2 3 0 false, 4⟩, 1, 2, 3, 0, false,
      3, fun _ => ⟨by unfold State.allows; decide +kernel, clean_local (by decide +kernel)⟩, by decide +kernel⟩⟩

/-- O15. -/
theorem meets_CapabilityOperations_1 :
    (∃ (s : State) (cs : Fin 16) (ra : Fin 32) (rb : Fin 32) (ck : Fin 16), let c := s.c cs;
      let live (x : Cap) : Prop := x.tag = true ∧ s.currentCap x = true; let k := s.c ck;
      let sealer (perm : Nat) : Prop := live k ∧ k.sealv = 0 ∧ k.otype = 6 ∧ k.has perm = true; s.issues = true ∧ live c ∧
      c.sealv = 0 ∧ (s.g ra).toNat + (s.g rb).toNat ≤ c.len ∧ sealer permSEAL ∧ 1 ≤ k.len ∧ 1 ≤ k.base ∧ k.base ≤ 4095 ∧
      c.slot = 0) ∧
    (∃ (s : State) (cs : Fin 16) (ck : Fin 16), let c := s.c cs; let k := s.c ck;
      let live (x : Cap) : Prop := x.tag = true ∧ s.currentCap x = true;
      let sealer (perm : Nat) : Prop := live k ∧ k.sealv = 0 ∧ k.otype = 6 ∧ k.has perm = true; s.issues = true ∧ live c ∧
      c.sealv ≠ 0 ∧ sealer permUNSEAL ∧ k.base ≤ c.sealv ∧ c.sealv + 1 ≤ k.base + k.len) ∧
    (∃ (s : State) (cs : Fin 16), let c := s.c cs; let live (x : Cap) : Prop := x.tag = true ∧ s.currentCap x = true;
      s.issues = true ∧ (¬live c)) ∧
    (∃ (s : State) (cs : Fin 16) (ra : Fin 32) (rb : Fin 32), let c := s.c cs;
      let live (x : Cap) : Prop := x.tag = true ∧ s.currentCap x = true; s.issues = true ∧ live c ∧ c.sealv = 0 ∧ c.len <
      (s.g ra).toNat + (s.g rb).toNat) ∧
    (∃ (s : State) (cs : Fin 16), let c := s.c cs; let live (x : Cap) : Prop := x.tag = true ∧ s.currentCap x = true;
      s.issues = true ∧ live c ∧ c.sealv = 0 ∧ c.slot ≠ 0) ∧
    (∃ (s : State) (cs : Fin 16) (ck : Fin 16), let c := s.c cs; let k := s.c ck;
      let live (x : Cap) : Prop := x.tag = true ∧ s.currentCap x = true; s.issues = true ∧ live c ∧ c.sealv = 0 ∧ (¬live k)) :=
  ⟨⟨State.reset, 0, 1, 2, 6, by decide +kernel⟩,
    ⟨(State.reset.setC 0 (Cap.make 0 8 3 0 4095 0 true)), 0, 6, by decide +kernel⟩,
    ⟨State.reset, 7, by decide +kernel⟩,
    ⟨((State.reset.setGN 1 0xFFFFFFFFFF).setGN 2 1), 0, 1, 2, by decide +kernel⟩,
    ⟨(State.reset.setC 0 ⟨BitVec.ofNat 128 (8 * 2 ^ 40 + 2 ^ 124), true⟩), 0, by decide +kernel⟩,
    ⟨State.reset, 0, 7, by decide +kernel⟩⟩

/-- O15. -/
theorem meets_CapabilityOperations_2 :
    (∃ (s : State) (cs : Fin 16) (ck : Fin 16), let c := s.c cs; let k := s.c ck;
      let live (x : Cap) : Prop := x.tag = true ∧ s.currentCap x = true; s.issues = true ∧ live c ∧ c.sealv = 0 ∧ live k ∧
      ((k.sealv ≠ 0 ∨ k.otype ≠ 6))) ∧
    (∃ (s : State) (cs : Fin 16) (ck : Fin 16), let c := s.c cs; let k := s.c ck;
      let live (x : Cap) : Prop := x.tag = true ∧ s.currentCap x = true; s.issues = true ∧ live c ∧ c.sealv = 0 ∧ live k ∧
      k.sealv = 0 ∧ k.otype = 6 ∧ k.has permSEAL = false) ∧
    (∃ (s : State) (cs : Fin 16) (ck : Fin 16), let c := s.c cs; let k := s.c ck;
      let live (x : Cap) : Prop := x.tag = true ∧ s.currentCap x = true; s.issues = true ∧ live c ∧ c.sealv = 0 ∧ live k ∧
      k.sealv = 0 ∧ k.otype = 6 ∧ k.has permSEAL = true ∧ ((k.len = 0 ∨ k.base = 0 ∨ 4095 < k.base))) ∧
    (∃ (s : State) (cs : Fin 16) (ck : Fin 16), let c := s.c cs; let k := s.c ck;
      let live (x : Cap) : Prop := x.tag = true ∧ s.currentCap x = true; s.issues = true ∧ live c ∧ c.sealv ≠ 0 ∧ live k ∧
      k.sealv = 0 ∧ k.otype = 6 ∧ k.has permUNSEAL = true ∧ ((c.sealv < k.base ∨ k.base + k.len ≤ c.sealv))) :=
  ⟨⟨State.reset, 0, 0, by decide +kernel⟩,
    ⟨(State.reset.setC 6 (Cap.make 1 8 0 6 0 0 true)), 0, 6, by decide +kernel⟩,
    ⟨(State.reset.setC 6 (rootCap 6 0 8)), 0, 6, by decide +kernel⟩,
    ⟨((State.reset.setC 0 (Cap.make 0 8 3 0 9 0 true)).setC 6 (rootCap 6 1 8)), 0, 6, by decide +kernel⟩⟩

/-- O16. -/
theorem meets_CapabilityMemory :
    ∃ (s : State) (cb : Fin 16) (ra : Fin 32) (imm : BitVec 12) (cd : Fin 16),
      let ea : Int := ((s.c cb).base : Int) + (s.g ra).toNat + imm.toInt * 16; s.inLocal 16 ea ∧
      s.allows cb [permR] 16 16 ea ∧ s.allows cb (if (s.c cd).tag then [permW, permTS] else [permW]) 16 16 ea ∧
      s.issues = true :=
  ⟨(State.reset.setGN 1 0x101FFFF0), 0, 1, 0, 2, clean_local (by decide +kernel), by unfold State.allows; decide +kernel,
    by unfold State.allows; decide +kernel, by decide +kernel⟩

/-- O17. -/
theorem meets_GatesAndReturns :
    (∃ (s : State) (n : Fin 16), let c := s.geIn (2 * n);
      let valid : Prop := c.tag = true ∧ s.currentCap c = true ∧ c.sealv = 0 ∧ c.otype = 0 ∧ c.has permX = true ∧ c.base % 4 = 0 ∧ 4 ≤ c.len;
      s.ready = true ∧ valid ∧ s.tri.stack.length < 30) ∧
    (∃ (s : State) (n : Fin 16), let c := s.geIn (2 * n);
      let valid : Prop := c.tag = true ∧ s.currentCap c = true ∧ c.sealv = 0 ∧ c.otype = 0 ∧ c.has permX = true ∧ c.base % 4 = 0 ∧ 4 ≤ c.len;
      s.ready = true ∧ (¬valid ∨ 30 ≤ s.tri.stack.length)) ∧
    (∃ (s : State) (fr : EFrame) (rest : List EFrame), s.ready = true ∧ s.tri.stack = fr :: rest ∧ fr.kind = .gate ∧
      s.issues = true) ∧
    (∃ (s : State) (fr : EFrame) (rest : List EFrame), s.ready = true ∧ s.tri.stack = fr :: rest ∧ fr.kind ≠ .gate ∧
      s.issues = true ∧ fr.src = none) ∧
    (∃ (s : State), s.ready = true ∧ s.tri.stack = [] ∧ s.issues = true) :=
  ⟨⟨(wStack .gate 29 { State.reset with tri.geUsed := [(0, rootMem)] }), 0, by decide +kernel⟩,
    ⟨(wStack .gate 30 { State.reset with tri.geUsed := [(0, rootMem)] }), 0, by decide +kernel⟩,
    ⟨(wStack .gate 1 State.reset), (wFrame .gate), [], by decide +kernel⟩,
    ⟨(wStack .handler 1 State.reset), (wFrame .handler), [], by decide +kernel⟩,
    ⟨State.reset, by decide +kernel⟩⟩

/-- O18. -/
theorem meets_SystemRegisters :
    (∃ (s : State) (k : Nat) (cb : Fin 16), let a := s.c cb;
      let live : Prop := a.tag = true ∧ s.currentCap a = true ∧ a.sealv = 0 ∧ a.otype ≤ 6;
      let sys : Prop := live ∧ a.has permSYS = true; let e := SMap.get (fun _ => 0) s.tri.eprW k; s.issues = true ∧ 7 ≤ k ∧
      k < 0x10 ∧ sys ∧ live ∧ a.has permMASK = true ∧ 1 ≤ k ∧ k ≤ 15 ∧ e ≠ 0xFFF) ∧
    (∃ (s : State) (cb : Fin 16), let a := s.c cb;
      let live : Prop := a.tag = true ∧ s.currentCap a = true ∧ a.sealv = 0 ∧ a.otype ≤ 6; s.issues = true ∧ live ∧ a.has
      permMASK = false ∧ a.has permSYS = false) ∧
    (∃ (s : State) (cb : Fin 16), let a := s.c cb; s.issues = true ∧ a.tag = false) ∧
    (∃ (s : State) (cb : Fin 16) (k : Nat), let a := s.c cb;
      let live : Prop := a.tag = true ∧ s.currentCap a = true ∧ a.sealv = 0 ∧ a.otype ≤ 6;
      let sys : Prop := live ∧ a.has permSYS = true; let e := SMap.get (fun _ => 0) s.tri.eprW k; s.issues = true ∧ sys ∧ 1
      ≤ k ∧ k ≤ 15 ∧ e = 0xFFF) :=
  ⟨⟨State.reset, 7, 0, by decide +kernel⟩,
    ⟨(State.reset.setC 0 (Cap.make 0 8 0 0 0 0 true)), 0, by decide +kernel⟩,
    ⟨State.reset, 7, by decide +kernel⟩,
    ⟨{ State.reset with tri.eprW := [(15, 0xFFF)] }, 0, 15, by decide +kernel⟩⟩

/-- O19. -/
theorem meets_Faults_1 :
    (∃ (s : State) (gi : Nat) (a : Nat) (h : Nat), let sa := s.saveArea (s.tri.stack.length + 1); ((∀ g, sa / 8 ≤ g → g ≤
      (sa + 239) / 8 → s.sound g)) ∧ s.ready = true ∧ s.tri.mlUsed = 0 ∧ s.escalated = false ∧ s.tri.stack.length ≤ 30 ∧
      s.validEntry 2 = some (gi, a, h)) ∧
    (∃ (s : State), s.ready = true ∧ s.escalated = true) ∧
    (∃ (s : State), s.ready = true ∧ 32 ≤ s.tri.stack.length) ∧
    (∃ (s : State) (gi : Nat) (a : Nat) (h : Nat), s.ready = true ∧ s.escalated = false ∧ s.tri.stack.length ≤ 31 ∧
      s.tri.mlUsed ≠ 0 ∧ s.validEntry 1 = some (gi, a, h)) ∧
    (∃ (s : State) (gi : Nat) (a : Nat) (h : Nat), s.ready = true ∧ s.escalated = false ∧ s.tri.stack.length = 31 ∧
      s.tri.mlUsed = 0 ∧ s.validEntry 1 = some (gi, a, h)) ∧
    (∃ (s : State) (gi : Nat) (a : Nat) (h : Nat), s.ready = true ∧ s.escalated = false ∧ s.tri.stack.length ≤ 30 ∧
      s.tri.mlUsed = 0 ∧ s.validEntry 2 = none ∧ s.validEntry 1 = some (gi, a, h)) :=
  ⟨⟨(wStack .gate 30 (wEntry 2 0x8000000010000000 State.reset)), 0, 0x10000000, 0,
      fun g _ _ => clean_sound (by decide +kernel) g, by decide +kernel⟩,
    ⟨(wStack .escalation 1 State.reset), by decide +kernel⟩,
    ⟨(wStack .gate 32 State.reset), by decide +kernel⟩,
    ⟨{ (wEntry 1 0x8000000010000000 (wStack .gate 31 State.reset)) with tri.mlUsed := 1 }, 0, 0x10000000, 0,
      by decide +kernel⟩,
    ⟨(wStack .gate 31 (wEntry 1 0x8000000010000000 State.reset)), 0, 0x10000000, 0, by decide +kernel⟩,
    ⟨(wEntry 1 0x8000000010000000 State.reset), 0, 0x10000000, 0, by decide +kernel⟩⟩

/-- O19. -/
theorem meets_Faults_2 :
    ∃ (s : State), s.ready = true ∧ s.escalated = false ∧ s.tri.stack.length ≤ 30 ∧ s.tri.mlUsed = 0 ∧
      s.validEntry 2 = none ∧ s.validEntry 1 = none :=
  ⟨State.reset, by decide +kernel⟩

/-- O21. -/
theorem meets_FetchChecks :
    (∃ (s : State) (i : Instr) (rd : Fin 32) (f : TFault), let c := s.tri.fcap;
      let current := c.tag = true ∧ s.currentCap c = true; i.intDest = some rd ∧ s.fetchFault = some f ∧ s.tri.slot = none ∧
      s.tri.rpt = none ∧ s.tri.wait = none ∧ s.dbg.halting = false ∧ s.triClocked = true ∧ ((∀ w ∈ s.tri.mul, s.clk < w.1))
      ∧ ((∀ e ∈ s.tri.hold, s.clk < e)) ∧ ((∀ x ∈ s.tri.stack, ∀ e ∈ x.hold, s.clk < e)) ∧ (¬current)) ∧
    (∃ (s : State) (i : Instr) (rd : Fin 32) (f : TFault), let c := s.tri.fcap;
      let current := c.tag = true ∧ s.currentCap c = true; i.intDest = some rd ∧ s.fetchFault = some f ∧ s.tri.slot = none ∧
      s.tri.rpt = none ∧ s.tri.wait = none ∧ s.dbg.halting = false ∧ s.triClocked = true ∧ ((∀ w ∈ s.tri.mul, s.clk < w.1))
      ∧ ((∀ e ∈ s.tri.hold, s.clk < e)) ∧ ((∀ x ∈ s.tri.stack, ∀ e ∈ x.hold, s.clk < e)) ∧ current ∧ (¬(c.sealv = 0 ∧
      c.otype = 0))) ∧
    (∃ (s : State) (i : Instr) (rd : Fin 32) (f : TFault), let c := s.tri.fcap;
      let current := c.tag = true ∧ s.currentCap c = true; i.intDest = some rd ∧ s.fetchFault = some f ∧ s.tri.slot = none ∧
      s.tri.rpt = none ∧ s.tri.wait = none ∧ s.dbg.halting = false ∧ s.triClocked = true ∧ ((∀ w ∈ s.tri.mul, s.clk < w.1))
      ∧ ((∀ e ∈ s.tri.hold, s.clk < e)) ∧ ((∀ x ∈ s.tri.stack, ∀ e ∈ x.hold, s.clk < e)) ∧ current ∧ c.sealv = 0 ∧ c.otype =
      0 ∧ c.has permX = false) ∧
    (∃ (s : State) (i : Instr) (rd : Fin 32) (f : TFault), let c := s.tri.fcap;
      let current := c.tag = true ∧ s.currentCap c = true; i.intDest = some rd ∧ s.fetchFault = some f ∧ s.tri.slot = none ∧
      s.tri.rpt = none ∧ s.tri.wait = none ∧ s.dbg.halting = false ∧ s.triClocked = true ∧ ((∀ w ∈ s.tri.mul, s.clk < w.1))
      ∧ ((∀ e ∈ s.tri.hold, s.clk < e)) ∧ ((∀ x ∈ s.tri.stack, ∀ e ∈ x.hold, s.clk < e)) ∧ current ∧ c.sealv = 0 ∧ c.otype =
      0 ∧ c.has permX = true ∧ s.tri.pc.toNat % 4 = 0 ∧ (¬(c.base ≤ s.tri.pc.toNat ∧ s.tri.pc.toNat + 4 ≤ c.base + c.len))) :=
  ⟨⟨{ State.reset with tri.fcap := Cap.null }, (.add 1 2 3), 1, ⟨5, 0, 0, true, false⟩, by decide +kernel⟩,
    ⟨{ State.reset with tri.fcap := rootCap 1 0 4 }, (.add 1 2 3), 1, ⟨8, 0, 0, true, false⟩, by decide +kernel⟩,
    ⟨{ State.reset with tri.fcap := Cap.make 0 4 3 0 0 0 true }, (.add 1 2 3), 1, ⟨7, 0, 0, true, false⟩, by decide +kernel⟩,
    ⟨{ State.reset with tri.fcap := rootCap 0 0 3 }, (.add 1 2 3), 1, ⟨6, 0, 0, true, false⟩, by decide +kernel⟩⟩

/-- O22. -/
theorem meets_Interrupts :
    (∃ (s : State), ((∀ w ∈ s.tri.mul, s.clk < w.1)) ∧ ((∀ e ∈ s.tri.hold, s.clk < e)) ∧ ((∀ x ∈ s.tri.stack, ∀ e ∈ x.hold,
      s.clk < e)) ∧ s.present = none) ∧
    (∃ (s : State) (n : Nat) (p : Nat), ((∀ w ∈ s.tri.mul, s.clk < w.1)) ∧ ((∀ e ∈ s.tri.hold, s.clk < e)) ∧ ((∀ x ∈
      s.tri.stack, ∀ e ∈ x.hold, s.clk < e)) ∧ s.present = some (n, p) ∧ (s.interruptible && s.atBoundary && s.eligible p) =
      false) ∧
    (∃ (s : State) (n : Nat) (p : Nat) (gi : Nat) (a : Nat) (h : Nat), ((∀ w ∈ s.tri.mul, s.clk < w.1)) ∧ ((∀ e ∈
      s.tri.hold, s.clk < e)) ∧ ((∀ x ∈ s.tri.stack, ∀ e ∈ x.hold, s.clk < e)) ∧ s.present = some (n, p) ∧ (s.interruptible
      && s.atBoundary && s.eligible p) = true ∧ s.tri.wait = none ∧ s.validEntry (32 + n) = some (gi, a, h)) ∧
    (∃ (s : State) (e : _), ((∀ w ∈ s.tri.mul, s.clk < w.1)) ∧ ((∀ e ∈ s.tri.hold, s.clk < e)) ∧ ((∀ x ∈ s.tri.stack, ∀ e ∈
      x.hold, s.clk < e)) ∧ s.tri.hold = some e ∧ s.tri.stack = [] ∧ s.rcv.paused = none ∧ s.rd DBG_STAT.FROST = 0 ∧
      s.tri.mul = []) :=
  ⟨⟨State.reset, by decide +kernel⟩,
    ⟨{ ((State.reset.wr (ICU_PEND.PEND 0) 32).wr (ICU_EN.EN 0) 32) with tri.mlUsed := 1 }, 5, 0, by decide +kernel⟩,
    ⟨(wEntry 37 0x8000000010000000 ((State.reset.wr (ICU_PEND.PEND 0) 32).wr (ICU_EN.EN 0) 32)), 5, 0, 0, 0x10000000, 0,
      by decide +kernel⟩,
    ⟨{ State.reset with tri.hold := some 3 }, 3, by decide +kernel⟩⟩

/-- O23. -/
theorem meets_MailboxChannels_1 :
    (∃ (s : State) (cb : Fin 16) (g : Fin 32) (n : Fin 64),
      let asked (need : Nat) : Prop := s.asks cb g 3 (need :: if 32 ≤ n.val then [permSEC] else []) ∧ s.devObj g = n.val;
      asked permUSE ∧ asked permCFG ∧ s.rd (MBX_CFG.SENDER n) = 0 ∧ s.rd (MBX_CFG.RECEIVER n) = 0) ∧
    (∃ (s : State) (cb : Fin 16) (g : Fin 32) (n : Fin 64),
      let asked (need : Nat) : Prop := s.asks cb g 3 (need :: if 32 ≤ n.val then [permSEC] else []) ∧ s.devObj g = n.val;
      asked permUSE ∧ s.rd (MBX_CFG.SENDER n) ≠ 0) ∧
    (∃ (s : State) (cb : Fin 16) (g : Fin 32) (n : Fin 64),
      let asked (need : Nat) : Prop := s.asks cb g 3 (need :: if 32 ≤ n.val then [permSEC] else []) ∧ s.devObj g = n.val;
      asked permUSE ∧ s.rd (MBX_CFG.RECEIVER n) ≠ 0) ∧
    (∃ (s : State) (m : Fin 14) (sec : Bool) (n : Fin 64),
      let may (code : Nat) : Prop := (n.val < 32 ∨ sec = true) ∧ endpointOf m.val = some code; may (s.rd (MBX_CFG.SENDER n))
      ∧ may (s.rd (MBX_CFG.RECEIVER n)) ∧ (n.val < 32 ∨ sec = true) ∧ m.val < 2) ∧
    (∃ (s : State) (m : Fin 14) (sec : Bool) (n : Fin 64),
      let may (code : Nat) : Prop := (n.val < 32 ∨ sec = true) ∧ endpointOf m.val = some code; (¬may (s.rd (MBX_CFG.SENDER
      n))) ∧ 32 ≤ n.val ∧ sec = false) ∧
    (∃ (s : State) (m : Fin 14) (sec : Bool) (n : Fin 64),
      let may (code : Nat) : Prop := (n.val < 32 ∨ sec = true) ∧ endpointOf m.val = some code; (¬may (s.rd (MBX_CFG.RECEIVER
      n)))) :=
  ⟨⟨(State.reset.setGN 1 63), 3, 1, 63, ⟨by unfold State.asks; decide +kernel, by decide +kernel⟩,
      ⟨by unfold State.asks; decide +kernel, by decide +kernel⟩, by decide +kernel⟩,
    ⟨((State.reset.setGN 1 63).wr (MBX_CFG.SENDER 63) (0 + 1)), 3, 1, 63, ⟨by unfold State.asks; decide +kernel,
      by decide +kernel⟩, by decide +kernel⟩,
    ⟨((State.reset.setGN 1 63).wr (MBX_CFG.RECEIVER 63) (0 + 1)), 3, 1, 63, ⟨by unfold State.asks; decide +kernel,
      by decide +kernel⟩, by decide +kernel⟩,
    ⟨State.reset, 1, true, 63, by decide +kernel⟩,
    ⟨State.reset, 1, false, 32, by decide +kernel⟩,
    ⟨State.reset, 1, false, 63, by decide +kernel⟩⟩

/-- O23. -/
theorem meets_MailboxChannels_2 :
    ∃ (s : State) (m : Fin 14) (sec : Bool) (n : Fin 64), (n.val < 32 ∨ sec = true) ∧ 2 ≤ m.val :=
  ⟨State.reset, 2, true, 63, by decide +kernel⟩

/-- O24. -/
theorem meets_DeviceRequestChecks :
    (∃ (s : State) (i : Instr) (cb : Fin 16) (g : Fin 32) (code : Nat), let c := s.c cb;
      let live : Prop := c.tag = true ∧ s.currentCap c = true; i.request = some (cb, g, code) ∧ s.issues = true ∧ (¬live)) ∧
    (∃ (s : State) (i : Instr) (cb : Fin 16) (g : Fin 32) (code : Nat), let c := s.c cb;
      let live : Prop := c.tag = true ∧ s.currentCap c = true; let device : Prop := c.sealv = 0 ∧ 1 ≤ c.otype ∧ c.otype ≤ 5;
      i.request = some (cb, g, code) ∧ s.issues = true ∧ live ∧ (¬device)) ∧
    (∃ (s : State) (i : Instr) (cb : Fin 16) (g : Fin 32) (code : Nat), let c := s.c cb; let obj := s.devObj g;
      let live : Prop := c.tag = true ∧ s.currentCap c = true; let device : Prop := c.sealv = 0 ∧ 1 ≤ c.otype ∧ c.otype ≤ 5;
      let allowed : Prop := c.has (if code < 0x200 then permUSE else permCFG) = true ∧ (c.otype = 2 → code = 0 → c.has permENQ = true) ∧ (c.otype = 2 → code = 1 ∨ code = 2 → c.has permDEQ = true) ∧ (c.otype = 3 → 32 ≤ obj → c.has permSEC = true);
      i.request = some (cb, g, code) ∧ s.issues = true ∧ live ∧ device ∧ (¬allowed)) ∧
    (∃ (s : State) (i : Instr) (cb : Fin 16) (g : Fin 32) (code : Nat), let c := s.c cb; let obj := s.devObj g;
      let live : Prop := c.tag = true ∧ s.currentCap c = true; let device : Prop := c.sealv = 0 ∧ 1 ≤ c.otype ∧ c.otype ≤ 5;
      let allowed : Prop := c.has (if code < 0x200 then permUSE else permCFG) = true ∧ (c.otype = 2 → code = 0 → c.has permENQ = true) ∧ (c.otype = 2 → code = 1 ∨ code = 2 → c.has permDEQ = true) ∧ (c.otype = 3 → 32 ≤ obj → c.has permSEC = true);
      let covered : Prop := c.base ≤ obj ∧ obj < c.base + c.len; i.request = some (cb, g, code) ∧ s.issues = true ∧ live ∧
      device ∧ allowed ∧ (¬covered)) ∧
    (∃ (s : State) (i : Instr) (cb : Fin 16) (g : Fin 32) (code : Nat), let c := s.c cb; let obj := s.devObj g;
      let live : Prop := c.tag = true ∧ s.currentCap c = true; let device : Prop := c.sealv = 0 ∧ 1 ≤ c.otype ∧ c.otype ≤ 5;
      let allowed : Prop := c.has (if code < 0x200 then permUSE else permCFG) = true ∧ (c.otype = 2 → code = 0 → c.has permENQ = true) ∧ (c.otype = 2 → code = 1 ∨ code = 2 → c.has permDEQ = true) ∧ (c.otype = 3 → 32 ≤ obj → c.has permSEC = true);
      let covered : Prop := c.base ≤ obj ∧ obj < c.base + c.len;
      let defined : Prop := match c.otype with | 1 => code = 0 ∨ code = 1 ∨ code = 0x200 | 2 => code < 4 ∨ code = 0x200 ∨ code = 0x201 | 3 => code < 3 ∨ code = 0x200 | _ => code < 2; (¬defined ∨ (c.otype ≠ 3 ∧ c.otype ≠ 5 ∧ c.current s.tri.eprUsed = false)) ∧ i.request = some (cb, g, code) ∧ s.issues = true ∧ live ∧ device ∧ allowed ∧ covered) :=
  ⟨⟨State.reset, (.post 7 1), 7, 1, 0, by decide +kernel⟩,
    ⟨State.reset, (.arm 0 1), 0, 1, 0, by decide +kernel⟩,
    ⟨((State.reset.setGN 1 32).setC 3 (Cap.make 0 64 0x100 3 0 0 true)), (.post 3 1), 3, 1, 0, by decide +kernel⟩,
    ⟨(State.reset.setGN 1 64), (.post 3 1), 3, 1, 0, by decide +kernel⟩,
    ⟨(State.reset.setGN 1 4095), (.setcfg 5 1), 5, 1, 0x200, .inl (id (by decide : ¬512 < 2)), by decide +kernel⟩⟩

/-- O25. -/
theorem meets_SoftEntries_1 :
    (∃ (s : State) (list : Fin 16) (entry : Fin 64), let e := 64 * list.val + entry.val;
      let free : Prop := entryQueue (s.softEntry e) ∈ s.que.attached → s.isOn QUE_CTL.EN = true → s.queCached (entryQueue (s.softEntry e)) = true ∧ ∃ d, s.queueAt (entryQueue (s.softEntry e)) d;
      let quiet : Prop := ∀ r ∈ s.rib.runs, r.entry = some e → r.holds = false ∨ r.phase = .stopping; free ∧ s.schActive =
      true ∧ quiet) ∧
    (∃ (s : State) (cb : Fin 16) (g : Fin 32) (list : Fin 16) (entry : Fin 64), let e := 64 * list.val + entry.val; s.asks
      cb g 5 [permUSE] ∧ s.schActive = false ∧ s.live = true ∧ e ∉ s.que.answers) ∧
    (∃ (s : State) (list : Fin 16) (entry : Fin 64), let e := 64 * list.val + entry.val;
      let free : Prop := entryQueue (s.softEntry e) ∈ s.que.attached → s.isOn QUE_CTL.EN = true → s.queCached (entryQueue (s.softEntry e)) = true ∧ ∃ d, s.queueAt (entryQueue (s.softEntry e)) d;
      s.schIssues (schInstr 10 (2 * 2 ^ 50 + entry.val * 2 ^ 12 + list.val * 2 ^ 8)) ∧ free) ∧
    (∃ (s : State) (list : Fin 16) (entry : Fin 64), let e := 64 * list.val + entry.val;
      let quiet : Prop := ∀ r ∈ s.rib.runs, r.entry = some e → r.holds = false ∨ r.phase = .stopping; s.schIssues (schInstr
      10 (3 * 2 ^ 50 + entry.val * 2 ^ 12 + list.val * 2 ^ 8)) ∧ quiet) ∧
    (∃ (s : State) (list : Fin 16) (entry : Fin 64) (cb : Fin 16) (g : Fin 32), let e := 64 * list.val + entry.val;
      let free : Prop := entryQueue (s.softEntry e) ∈ s.que.attached → s.isOn QUE_CTL.EN = true → s.queCached (entryQueue (s.softEntry e)) = true ∧ ∃ d, s.queueAt (entryQueue (s.softEntry e)) d;
      let named : Prop := bits (s.devArg g) 9 0 = e;
      let fits : Prop := entryKind (s.softEntry e) ≠ 0 ∧ entryChain (s.softEntry e) = s.devObj g;
      let quiet : Prop := ∀ r ∈ s.rib.runs, r.entry = some e → r.holds = false ∨ r.phase = .stopping; s.asks cb g 5
      [permUSE] ∧ free ∧ named ∧ s.schActive = true ∧ fits ∧ quiet) ∧
    (∃ (s : State) (list : Fin 16) (entry : Fin 64) (cb : Fin 16) (g : Fin 32), let e := 64 * list.val + entry.val;
      let named : Prop := bits (s.devArg g) 9 0 = e;
      let fits : Prop := entryKind (s.softEntry e) ≠ 0 ∧ entryChain (s.softEntry e) = s.devObj g; s.asks cb g 5 [permUSE] ∧
      named ∧ s.schActive = true ∧ (¬fits)) :=
  ⟨⟨{ State.reset.wr SCH_STAT.STATE 3 with sch.plen := 1, sch.ended := false }, 1, 6,
      fun h => absurd h (by decide +kernel), by decide +kernel⟩,
    ⟨State.reset, 5, 1, 1, 6, by unfold State.asks; decide +kernel, by decide +kernel⟩,
    ⟨(wProg (schInstr 10 (2 * 2 ^ 50 + 6 * 2 ^ 12 + 1 * 2 ^ 8)) State.reset), 1, 6, sch_issues (by decide +kernel),
      fun h => absurd h (by decide +kernel)⟩,
    ⟨(wProg (schInstr 10 (3 * 2 ^ 50 + 6 * 2 ^ 12 + 1 * 2 ^ 8)) State.reset), 1, 6, sch_issues (by decide +kernel),
      by decide +kernel⟩,
    ⟨(wEnt 70 (7 + 0x3000) ({ State.reset.wr SCH_STAT.STATE 3 with sch.plen := 1, sch.ended := false }.setGN 1 (7 + 70 * 2 ^
      32))), 1, 6, 5, 1, by unfold State.asks; decide +kernel, fun h => absurd h (by decide +kernel), by decide +kernel⟩,
    ⟨({ State.reset.wr SCH_STAT.STATE 3 with sch.plen := 1, sch.ended := false }.setGN 1 (7 + 70 * 2 ^ 32)), 1, 6, 5, 1,
      by unfold State.asks; decide +kernel, by decide +kernel⟩⟩

/-- O25. -/
theorem meets_SoftEntries_2 :
    (∃ (s : State) (list : Fin 16) (entry : Fin 64), let e := 64 * list.val + entry.val; s.live = true ∧ e ∈ s.que.answers ∧
      s.softState e = softArmed) ∧
    (∃ (s : State) (list : Fin 16) (entry : Fin 64), let e := 64 * list.val + entry.val; s.live = true ∧ e ∈ s.que.answers ∧
      s.softState e ≠ softArmed) :=
  ⟨⟨({ State.reset with que.answers := [70] }.softPut 70 1), 1, 6, by decide +kernel⟩,
    ⟨{ State.reset with que.answers := [70] }, 1, 6, by decide +kernel⟩⟩

/-- O26. -/
theorem meets_Queues_1 :
    (∃ (s : State) (cb : Fin 16) (g : Fin 32) (d : QDesc), let q := s.devObj g; let a := s.queDescAddr q;
      let quiet : Prop := s.bulk.redir = [] ∧ s.bulk.ueGran = [] ∧ (∀ y, bulkBase / 8 ≤ y → y < bulkEnd / 8 → s.sound y) ∧ s.que.cache.length ≤ 4096;
      s.asks cb g 2 [permUSE, permENQ] ∧ s.queueAt q d ∧ s.asks cb g 2 [permUSE] ∧ s.asks cb g 2 [permCFG] ∧ quiet ∧ d.depth
      < d.n ∧ s.isOn QUE_CTL.EN = true ∧ inBulk a 32 = true ∧ qdescOf (s.bytes a 32) = d ∧ d.ok = true ∧ d.age = 0) ∧
    (∃ (s : State) (cb : Fin 16) (g : Fin 32) (d : QDesc), let q := s.devObj g; s.asks cb g 2 [permUSE, permENQ] ∧ s.queueAt
      q d ∧ d.depth = d.n) ∧
    (∃ (s : State) (cb : Fin 16) (g : Fin 32) (d : QDesc), let q := s.devObj g; s.asks cb g 2 [permUSE, permDEQ] ∧ s.queueAt
      q d ∧ 0 < d.depth) ∧
    (∃ (s : State) (cb : Fin 16) (g : Fin 32) (d : QDesc), let q := s.devObj g; s.asks cb g 2 [permUSE, permDEQ] ∧ s.queueAt
      q d ∧ d.depth = 0) ∧
    (∃ (s : State) (cb : Fin 16) (g : Fin 32) (n : BitVec 20) (f : Fin 3), let q := s.devObj g; s.asks cb g 2 [permUSE,
      permENQ] ∧ s.asks cb g 2 [permUSE, permDEQ] ∧ s.asks cb g 2 [permUSE] ∧ s.asks cb g 2 [permCFG] ∧ (s.isOn QUE_CTL.EN =
      false ∨ q ∉ s.que.attached) ∧ s.isOn QUE_CTL.EN = false ∧ s.live = true ∧ n.toNat ∉ s.que.pinned ∧ s.que.stalls = [] ∧
      ((∀ y ∈ s.que.notes, y.1 ≠ f.val))) ∧
    (∃ (s : State) (cb : Fin 16) (g : Fin 32) (d : QDesc), let q := s.devObj g; let a := s.queDescAddr q;
      let quiet : Prop := s.bulk.redir = [] ∧ s.bulk.ueGran = [] ∧ (∀ y, bulkBase / 8 ≤ y → y < bulkEnd / 8 → s.sound y) ∧ s.que.cache.length ≤ 4096;
      s.asks cb g 2 [permCFG] ∧ quiet ∧ s.isOn QUE_CTL.EN = true ∧ inBulk a 32 = true ∧ qdescOf (s.bytes a 32) = d ∧ d.ok =
      false) :=
  ⟨⟨(wQueue 1 15 (State.reset.setGN 1 1)), 2, 1, (wDesc 15), by unfold State.asks; decide +kernel, clean_queue
      (by decide +kernel), by unfold State.asks; decide +kernel, by unfold State.asks; decide +kernel, ⟨by decide +kernel,
      by decide +kernel, fun _ _ _ => clean_sound (by decide +kernel) _, by decide +kernel⟩, by decide +kernel⟩,
    ⟨(wQueue 1 16 (State.reset.setGN 1 1)), 2, 1, (wDesc 16), by unfold State.asks; decide +kernel, clean_queue
      (by decide +kernel), by decide +kernel⟩,
    ⟨(wQueue 1 1 (State.reset.setGN 1 1)), 2, 1, (wDesc 1), by unfold State.asks; decide +kernel, clean_queue
      (by decide +kernel), by decide +kernel⟩,
    ⟨(wQueue 1 0 (State.reset.setGN 1 1)), 2, 1, (wDesc 0), by unfold State.asks; decide +kernel, clean_queue
      (by decide +kernel), by decide +kernel⟩,
    ⟨State.reset, 2, 1, 1, 1, by unfold State.asks; decide +kernel, by unfold State.asks; decide +kernel,
      by unfold State.asks; decide +kernel, by unfold State.asks; decide +kernel, by decide +kernel⟩,
    ⟨(wQueue 1 15 State.reset), 2, 1, ⟨0, 0, 0, 0⟩, by unfold State.asks; decide +kernel, ⟨by decide +kernel,
      by decide +kernel, fun _ _ _ => clean_sound (by decide +kernel) _, by decide +kernel⟩, by decide +kernel⟩⟩

/-- O26. -/
theorem meets_Queues_2 :
    (∃ (s : State) (d : QDesc) (n : BitVec 20), let may : Prop := d.stalled = false ∧ d.age ≠ 0;
      let due : Prop := may ∧ d.dw3 + 1000 * d.age + 6 < s.now; s.queueAt n.toNat d ∧ s.live = true ∧ n.toNat ∈ s.que.pinned
      ∧ s.frozen 4 = false ∧ s.queCached n.toNat = true ∧ due) ∧
    (∃ (s : State) (d : QDesc) (n : BitVec 20), let may : Prop := d.stalled = false ∧ d.age ≠ 0; s.queueAt n.toNat d ∧
      s.live = true ∧ n.toNat ∈ s.que.pinned ∧ s.frozen 4 = false ∧ s.queCached n.toNat = true ∧ (¬may ∨ s.now < d.dw3 +
      1000 * d.age + 2)) ∧
    (∃ (s : State) (x : _) (rest : _), s.que.stalls = x :: rest) ∧
    (∃ (s : State) (f : Fin 3) (l : _) (x : _) (rest : _), s.que.notes = l ++ (f.val, x) :: rest ∧ ((∀ y ∈ l, y.1 ≠ f.val))) :=
  ⟨⟨({ (wQueue 1 1 { State.reset with time := 16112 }).setNum 0x800000030 8 (2 ^ 32) with que.pinned := [1], que.cache := [(1, ⟨0x1000 + 4 * 2 ^ 32 + 2 ^ 42, 2 ^ 16, 2 ^ 32, 0⟩)] }
      : State), ⟨0x1000 + 4 * 2 ^ 32 + 2 ^ 42, 2 ^ 16, 2 ^ 32, 0⟩, 1, clean_queue (by decide +kernel), by decide +kernel⟩,
    ⟨{ wQueue 1 1 State.reset with que.pinned := [1] }, (wDesc 1), 1, clean_queue (by decide +kernel), by decide +kernel⟩,
    ⟨{ State.reset with que.stalls := [7, 8] }, 7, [8], by decide +kernel⟩,
    ⟨{ State.reset with que.notes := [(0, 9), (1, 7), (2, 8)] }, 1, [(0, 9)], 7, [(2, 8)], by decide +kernel⟩⟩

/-- O27. -/
theorem meets_FieldRequests :
    (∃ (s : State) (cb : Fin 16) (g : Fin 32) (b : Fin 64) (k : Fin 16), s.asks cb g 1 [permUSE] ∧ s.devObj g = 16 * b.val +
      k.val ∧ (s.role b k = roleDrive ∨ s.role b k = roleHub)) ∧
    (∃ (s : State) (cb : Fin 16) (g : Fin 32) (b : Fin 64) (k : Fin 16), let v := s.devArg g % 2 ^ 17; s.asks cb g 1
      [permUSE] ∧ s.asks cb g 1 [permCFG] ∧ s.devObj g = 16 * b.val + k.val ∧ s.role b k ≠ roleDrive ∧ s.role b k ≠ roleHub
      ∧ s.pcfgOk b k v = true) ∧
    (∃ (s : State) (cb : Fin 16) (g : Fin 32) (b : Fin 64) (k : Fin 16), let v := s.devArg g % 2 ^ 17; s.asks cb g 1
      [permCFG] ∧ s.devObj g = 16 * b.val + k.val ∧ s.pcfgOk b k v = false) :=
  ⟨⟨{ (State.reset.setGN 1 1023) with fld.eff := [((FLD_PCFG_A.ROLE 63 15).addr, 1)] }, 1, 1, 63, 15,
      by unfold State.asks; decide +kernel, by decide +kernel⟩,
    ⟨(State.reset.setGN 1 1023), 1, 1, 63, 15, by unfold State.asks; decide +kernel, by unfold State.asks; decide +kernel,
      by decide +kernel⟩,
    ⟨(State.reset.setGN 1 (1023 + 9 * 2 ^ 32)), 1, 1, 63, 15, by unfold State.asks; decide +kernel, by decide +kernel⟩⟩

/-- O28. -/
theorem meets_Movers_1 :
    (∃ (s : State) (cb : Fin 16) (g : Fin 32) (n : Fin 8), let asked : Prop := s.asks cb g 4 [permUSE] ∧ s.devObj g = n.val;
      asked ∧ s.rd (MV_STAT.BUSY n) = 1) ∧
    (∃ (s : State) (cb : Fin 16) (g : Fin 32) (n : Fin 8), let dn := s.devArg g % 256; let ds := (upto 4).map (s.mvDw dn);
      let asked : Prop := s.asks cb g 4 [permUSE] ∧ s.devObj g = n.val;
      let idle : Prop := s.rd (MV_STAT.BUSY n) = 0 ∧ s.mvRun n = none; asked ∧ idle ∧ mvDescOk ds = true ∧ s.mvCap ds false
      = none ∧ s.mvCap ds true = none) ∧
    (∃ (s : State) (cb : Fin 16) (g : Fin 32) (n : Fin 8), let dn := s.devArg g % 256; let ds := (upto 4).map (s.mvDw dn);
      let asked : Prop := s.asks cb g 4 [permUSE] ∧ s.devObj g = n.val;
      let idle : Prop := s.rd (MV_STAT.BUSY n) = 0 ∧ s.mvRun n = none; asked ∧ idle ∧ mvDescOk ds = false ∧ s.mvRun n =
      none) ∧
    (∃ (s : State) (cb : Fin 16) (g : Fin 32) (n : Fin 8) (c : _), let dn := s.devArg g % 256;
      let ds := (upto 4).map (s.mvDw dn); let asked : Prop := s.asks cb g 4 [permUSE] ∧ s.devObj g = n.val;
      let idle : Prop := s.rd (MV_STAT.BUSY n) = 0 ∧ s.mvRun n = none; asked ∧ idle ∧ mvDescOk ds = true ∧ (s.mvCap ds false
      = some c ∨ (s.mvCap ds false = none ∧ s.mvCap ds true = some c))) ∧
    (∃ (s : State) (cb : Fin 16) (g : Fin 32) (n : Fin 8) (r : _),
      let asked : Prop := s.asks cb g 4 [permUSE] ∧ s.devObj g = n.val; asked ∧ s.mvRun n = some r ∧ 64 ≤ mvRowLen r.desc ∧
      1 ≤ mvRows r.desc) ∧
    (∃ (s : State) (n : Fin 8), s.live = true ∧ s.mvRun n = none) :=
  ⟨⟨((State.reset.setGN 1 (7 + 5 * 2 ^ 32)).wr (MV_STAT.BUSY 7) 1), 4, 1, 7, ⟨by unfold State.asks; decide +kernel,
      by decide +kernel⟩, by decide +kernel⟩,
    ⟨(wMv 5 0x800000000 0x800000040 (64 + 2 ^ 24 + 2 ^ 40)
      { (State.reset.setGN 1 (7 + 5 * 2 ^ 32)) with rib.cct0 := [(0, rootMem)] }), 4, 1, 7,
      ⟨by unfold State.asks; decide +kernel, by decide +kernel⟩, by decide +kernel⟩,
    ⟨(State.reset.setGN 1 (7 + 5 * 2 ^ 32)), 4, 1, 7, ⟨by unfold State.asks; decide +kernel, by decide +kernel⟩,
      by decide +kernel⟩,
    ⟨(wMv 5 0x800000000 0x800000040 (64 + 2 ^ 24 + 2 ^ 40) (State.reset.setGN 1 (7 + 5 * 2 ^ 32))), 4, 1, 7, 1,
      ⟨by unfold State.asks; decide +kernel, by decide +kernel⟩, by decide +kernel⟩,
    ⟨{ (State.reset.setGN 1 (7 + 5 * 2 ^ 32)) with mv.runs := [⟨7, [0x800000000, 0x800000040, 64 + 2 ^ 24 + 2 ^ 40, 0], true, 0⟩] },
      4, 1, 7, ⟨7, [0x800000000, 0x800000040, 64 + 2 ^ 24 + 2 ^ 40, 0], true, 0⟩, ⟨by unfold State.asks; decide +kernel,
      by decide +kernel⟩, by decide +kernel⟩,
    ⟨State.reset, 7, by decide +kernel⟩⟩

/-- O28. -/
theorem meets_Movers_2 :
    ∃ (s : State) (n : Fin 8) (r : _), ((∀ y, bulkBase / 8 ≤ y → y < bulkEnd / 8 → s.sound y)) ∧ s.live = true ∧
      s.mvRun n = some r ∧ mvRows r.desc = 1 ∧ mvRowLen r.desc = 64 ∧ mvSrc r.desc % 64 = 0 ∧ mvDst r.desc % 64 = 0 ∧
      inBulk (mvSrc r.desc) 64 = true ∧ inBulk (mvDst r.desc) 64 = true ∧ s.bulk.redir = [] ∧ s.bulk.ueGran = [] ∧ (r.byMove
      = true ∨ s.frozen 3 = false) :=
  ⟨{ State.reset with mv.runs := [⟨7, [0x800000000, 0x800000040, 64 + 2 ^ 24 + 2 ^ 40, 0], true, 0⟩] }, 7, ⟨7, [0x800000000,
    0x800000040, 64 + 2 ^ 24 + 2 ^ 40, 0], true, 0⟩, fun g _ _ => clean_sound (by decide +kernel) g, by decide +kernel⟩

/-- O29. -/
theorem meets_InterruptSources :
    (∃ (s : State) (n : Fin 512), let runs : Prop := s.live = true ∧ s.pwr.asserted = 0;
      let mark : Prop := 80 ≤ n.val ∧ n.val < 96; runs ∧ s.sourceLine n = true ∧ sourceOk n = true ∧ (bitb s.icu.seen n =
      false ∨ mark)) ∧
    (∃ (s : State) (n : Fin 512) (slot : Fin 32), let runs : Prop := s.live = true ∧ s.pwr.asserted = 0;
      let mark : Prop := 80 ≤ n.val ∧ n.val < 96; let src := s.rd (AOW_SEL.SOURCE slot); runs ∧ (¬mark) ∧ (s.sourceLine n =
      false ∨ bitb s.icu.seen n = true) ∧ (s.pwr.state ≠ .idle ∨ s.isOn (AOW_SEL.EN slot) = false ∨ s.sourceLine src = false
      ∨ bitb s.icu.seen src = true)) ∧
    (∃ (s : State), let runs : Prop := s.live = true ∧ s.pwr.asserted = 0; (¬runs)) ∧
    (∃ (s : State) (slot : Fin 32), let src := s.rd (AOW_SEL.SOURCE slot); s.pwr.state = .idle ∧ s.isOn (AOW_SEL.EN slot) =
      true ∧ s.sourceLine src = true ∧ bitb s.icu.seen src = false) :=
  ⟨⟨{ State.reset with icu.marks := 1 }, 80, by decide +kernel⟩,
    ⟨State.reset, 0, 1, by decide +kernel⟩,
    ⟨(State.reset.wr DBG_STAT.FROST 1), by decide +kernel⟩,
    ⟨{ (State.reset.wr (AOW_SEL.EN 31) 1).wr (AOW_SEL.SOURCE 31) 80 with pwr.state := .idle, icu.marks := 1 }, 31,
      by decide +kernel⟩⟩

/-- O30. -/
theorem meets_SequencerInstructions_1 :
    (∃ (s : State), let is (op : Nat) (fields : Nat) : Prop := s.schIssues (schInstr op fields); is 1 0) ∧
    (∃ (s : State) (cyc : BitVec 21), let t := s.atIssue; let rc := t.time / 10 * 10;
      let is (op : Nat) (fields : Nat) : Prop := s.schIssues (schInstr op fields);
      let at_ := s.sch.progStart + 10 * cyc.toNat; is 2 cyc.toNat ∧ rc ≤ at_) ∧
    (∃ (s : State) (cyc : BitVec 21), let t := s.atIssue; let rc := t.time / 10 * 10;
      let is (op : Nat) (fields : Nat) : Prop := s.schIssues (schInstr op fields);
      let at_ := s.sch.progStart + 10 * cyc.toNat; is 2 cyc.toNat ∧ at_ < rc) ∧
    (∃ (s : State) (cyc : BitVec 21), let is (op : Nat) (fields : Nat) : Prop := s.schIssues (schInstr op fields); is 5
      cyc.toNat) ∧
    (∃ (s : State) (table : Fin 4), let is (op : Nat) (fields : Nat) : Prop := s.schIssues (schInstr op fields); is 8
      table.val) ∧
    (∃ (s : State) (n : Fin 16) (irq : _), let is (op : Nat) (fields : Nat) : Prop := s.schIssues (schInstr op fields); is 9
      (b2n irq * 2 ^ 4 + n.val)) :=
  ⟨⟨(wProg (schInstr 1 0) State.reset), sch_issues (by decide +kernel)⟩,
    ⟨(wProg (schInstr 2 1) State.reset), 1, sch_issues (by decide +kernel), by decide +kernel⟩,
    ⟨{ (wProg (schInstr 2 1) State.reset) with time := 40 }, 1, sch_issues (by decide +kernel), by decide +kernel⟩,
    ⟨(wProg (schInstr 5 1) State.reset), 1, sch_issues (by decide +kernel)⟩,
    ⟨(wProg (schInstr 8 1) State.reset), 1, sch_issues (by decide +kernel)⟩,
    ⟨(wProg (schInstr 9 (1 * 2 ^ 4 + 1)) State.reset), 1, true, sch_issues (by decide +kernel)⟩⟩

/-- O30. -/
theorem meets_SequencerInstructions_2 :
    (∃ (s : State) (n : Fin 16) (irq : _), let is (op : Nat) (fields : Nat) : Prop := s.schIssues (schInstr op fields); is 9
      (2 ^ 5 + b2n irq * 2 ^ 4 + n.val) ∧ ((∀ b, b < 64 → s.isOn (FLD_CTL.EN b) = false))) ∧
    (∃ (s : State) (bells : BitVec 32) (chan : Fin 64),
      let is (op : Nat) (fields : Nat) : Prop := s.schIssues (schInstr op fields); is 10 (bells.toNat * 2 ^ 18 + chan.val)) ∧
    (∃ (s : State), let is (op : Nat) (fields : Nat) : Prop := s.schIssues (schInstr op fields); is 10 (2 ^ 50) ∧ s.tri.wait
      = none) ∧
    (∃ (s : State), s.schAt (schInstr 10 (2 ^ 50)) = false ∧ (s.sends 1 = true ∨ s.sends 2 = true) ∧ s.tri.wait = none) ∧
    (∃ (s : State) (w : _), s.schIssues w ∧ w ≠ schInstr 10 (2 ^ 50) ∧ s.sends 1 = false ∧ s.sends 2 = false) ∧
    (∃ (s : State) (skip : BitVec 12) (m : BitVec 15) (k : BitVec 4),
      let is (op : Nat) (fields : Nat) : Prop := s.schIssues (schInstr op fields);
      let skips : Prop := is 11 (skip.toNat * 2 ^ 19 + m.toNat * 2 ^ 4 + k.toNat); skips ∧ s.roundNo % 2 ^ k.toNat =
      m.toNat) :=
  ⟨⟨(wProg (schInstr 9 (2 ^ 5 + 1 * 2 ^ 4 + 1)) State.reset), 1, true, sch_issues (by decide +kernel), by decide +kernel⟩,
    ⟨(wProg (schInstr 10 (1 * 2 ^ 18 + 1)) State.reset), 1, 1, sch_issues (by decide +kernel)⟩,
    ⟨(wProg (schInstr 10 (2 ^ 50)) State.reset), sch_issues (by decide +kernel), by decide +kernel⟩,
    ⟨State.reset, by decide +kernel⟩,
    ⟨(wProg (schInstr 12 0) (State.reset.wr CHN_STAT.CC_RESTART 1)), (schInstr 12 0), sch_issues (by decide +kernel),
      by decide +kernel⟩,
    ⟨(wProg (schInstr 11 (1 * 2 ^ 19 + 0 * 2 ^ 4 + 1)) State.reset), 1, 0, 1, sch_issues (by decide +kernel),
      by decide +kernel⟩⟩

/-- O30. -/
theorem meets_SequencerInstructions_3 :
    (∃ (s : State) (skip : BitVec 12) (m : BitVec 15) (k : BitVec 4),
      let is (op : Nat) (fields : Nat) : Prop := s.schIssues (schInstr op fields);
      let skips : Prop := is 11 (skip.toNat * 2 ^ 19 + m.toNat * 2 ^ 4 + k.toNat); skips ∧ s.roundNo % 2 ^ k.toNat ≠
      m.toNat) ∧
    (∃ (s : State) (w : _), let is (op : Nat) (fields : Nat) : Prop := s.schIssues (schInstr op fields); is 12 0 ∧
      s.schIssues w ∧ w ≠ schInstr 1 0) :=
  ⟨⟨(wProg (schInstr 11 (1 * 2 ^ 19 + 1 * 2 ^ 4 + 1)) State.reset), 1, 1, 1, sch_issues (by decide +kernel),
      by decide +kernel⟩,
    ⟨(wProg (schInstr 12 0) State.reset), (schInstr 12 0), sch_issues (by decide +kernel), sch_issues (by decide +kernel),
      by decide +kernel⟩⟩

/-- O31. -/
theorem meets_SequencerStarts_1 :
    (∃ (s : State) (strands : BitVec 3) (chain : BitVec 12),
      let is (op : Nat) (fields : Nat) : Prop := s.schIssues (schInstr op fields); let m := strands.toNat;
      let launches : Prop := is 3 (strands.toNat * 2 ^ 12 + chain.toNat) ∧ s.retired = 0; launches ∧ Nat.land m
      s.heldStrands ≠ 0) ∧
    (∃ (s : State) (strands : BitVec 3) (chain : BitVec 12),
      let is (op : Nat) (fields : Nat) : Prop := s.schIssues (schInstr op fields); let m := strands.toNat;
      let c := chain.toNat; let launches : Prop := is 3 (strands.toNat * 2 ^ 12 + chain.toNat) ∧ s.retired = 0; launches ∧
      Nat.land m s.heldStrands = 0 ∧ ((∀ r ∈ s.rib.runs, r.chain ≠ c))) ∧
    (∃ (s : State) (strands : BitVec 3) (chain : BitVec 12),
      let is (op : Nat) (fields : Nat) : Prop := s.schIssues (schInstr op fields); let m := strands.toNat;
      let c := chain.toNat; let launches : Prop := is 3 (strands.toNat * 2 ^ 12 + chain.toNat) ∧ s.retired = 0; launches ∧
      Nat.land m s.heldStrands = 0 ∧ ((∃ r ∈ s.rib.runs, r.chain = c))) ∧
    (∃ (s : State) (strands : BitVec 3) (lead : BitVec 10) (list : Fin 16) (cyc : BitVec 21), let t := s.atIssue;
      let rc := t.time / 10 * 10; let is (op : Nat) (fields : Nat) : Prop := s.schIssues (schInstr op fields);
      let slots : Prop := is 4 (lead.toNat * 2 ^ 28 + list.val * 2 ^ 24 + strands.toNat * 2 ^ 21 + cyc.toNat) ∧ ∀ o ∈ s.sch.slots, Nat.land o.strands strands.toNat = 0 ∧ o.strands ≠ 0;
      let at_ := s.sch.progStart + 10 * cyc.toNat; slots ∧ at_ ≤ rc) ∧
    (∃ (s : State) (strands : BitVec 3) (lead : BitVec 10) (list : Fin 16) (cyc : BitVec 21), let t := s.atIssue;
      let rc := t.time / 10 * 10; let is (op : Nat) (fields : Nat) : Prop := s.schIssues (schInstr op fields);
      let slots : Prop := is 4 (lead.toNat * 2 ^ 28 + list.val * 2 ^ 24 + strands.toNat * 2 ^ 21 + cyc.toNat) ∧ ∀ o ∈ s.sch.slots, Nat.land o.strands strands.toNat = 0 ∧ o.strands ≠ 0;
      let at_ := s.sch.progStart + 10 * cyc.toNat; slots ∧ rc < at_) ∧
    (∃ (s : State) (dr : BitVec 2) (cyc : BitVec 21) (b : Fin 64),
      let is (op : Nat) (fields : Nat) : Prop := s.schIssues (schInstr op fields);
      let exch (count : Nat) : Prop := is 6 (cyc.toNat * 2 ^ 16 + dr.toNat * 2 ^ 13 + count * 2 ^ 6 + b.val);
      let powered : Prop := bitb (s.rd PWR_DOWN.FGRP) (b.val / 8) = false; exch 1 ∧ powered ∧ s.isOn (FLD_CTL.EN b) = true ∧
      s.fldX b = none) :=
  ⟨⟨(wRun 6 1 (wProg (schInstr 3 (1 * 2 ^ 12 + 5)) State.reset)), 1, 5, ⟨sch_issues (by decide +kernel),
      by decide +kernel⟩, by decide +kernel⟩,
    ⟨(wProg (schInstr 3 (1 * 2 ^ 12 + 5)) State.reset), 1, 5, ⟨sch_issues (by decide +kernel), by decide +kernel⟩,
      by decide +kernel⟩,
    ⟨(wRun 5 2 (wProg (schInstr 3 (1 * 2 ^ 12 + 5)) State.reset)), 1, 5, ⟨sch_issues (by decide +kernel),
      by decide +kernel⟩, by decide +kernel⟩,
    ⟨{ (wProg (schInstr 4 (1 * 2 ^ 28 + 1 * 2 ^ 24 + 1 * 2 ^ 21 + 1)) State.reset) with time := 40 }, 1, 1, 1, 1,
      ⟨sch_issues (by decide +kernel), by decide +kernel⟩, by decide +kernel⟩,
    ⟨(wProg (schInstr 4 (1 * 2 ^ 28 + 1 * 2 ^ 24 + 1 * 2 ^ 21 + 9)) State.reset), 1, 1, 1, 9, ⟨sch_issues
      (by decide +kernel), by decide +kernel⟩, by decide +kernel⟩,
    ⟨((wProg (schInstr 6 (9 * 2 ^ 16 + 3 * 2 ^ 13 + 1 * 2 ^ 6 + 63)) State.reset).wr (FLD_CTL.EN 63) 1), 3, 9, 63,
      sch_issues (by decide +kernel), by decide +kernel⟩⟩

/-- O31. -/
theorem meets_SequencerStarts_2 :
    (∃ (s : State) (dr : BitVec 2) (cyc : BitVec 21) (b : Fin 64),
      let is (op : Nat) (fields : Nat) : Prop := s.schIssues (schInstr op fields);
      let exch (count : Nat) : Prop := is 6 (cyc.toNat * 2 ^ 16 + dr.toNat * 2 ^ 13 + count * 2 ^ 6 + b.val);
      let powered : Prop := bitb (s.rd PWR_DOWN.FGRP) (b.val / 8) = false; exch 1 ∧ powered ∧ s.isOn (FLD_CTL.EN b) = true ∧
      s.fldX b ≠ none) ∧
    (∃ (s : State) (dr : BitVec 2) (cyc : BitVec 21) (b : Fin 64),
      let is (op : Nat) (fields : Nat) : Prop := s.schIssues (schInstr op fields);
      let exch (count : Nat) : Prop := is 6 (cyc.toNat * 2 ^ 16 + dr.toNat * 2 ^ 13 + count * 2 ^ 6 + b.val);
      let powered : Prop := bitb (s.rd PWR_DOWN.FGRP) (b.val / 8) = false; exch 1 ∧ (¬powered)) ∧
    (∃ (s : State) (dr : BitVec 2) (cyc : BitVec 21) (b : Fin 64) (cnt : BitVec 7),
      let is (op : Nat) (fields : Nat) : Prop := s.schIssues (schInstr op fields);
      let exch (count : Nat) : Prop := is 6 (cyc.toNat * 2 ^ 16 + dr.toNat * 2 ^ 13 + count * 2 ^ 6 + b.val); exch cnt.toNat
      ∧ ((∀ i, b.val ≤ i → i < min 64 (b.val + cnt.toNat) → bitb (s.rd PWR_DOWN.FGRP) (i / 8) = false ∧ s.isOn (FLD_CTL.EN
      i) = false))) ∧
    (∃ (s : State) (d : BitVec 8) (n : Fin 8), let is (op : Nat) (fields : Nat) : Prop := s.schIssues (schInstr op fields);
      let moves : Prop := is 7 (d.toNat * 2 ^ 4 + n.val); moves ∧ s.rd (MV_STAT.BUSY n) = 1) ∧
    (∃ (s : State) (d : BitVec 8) (n : Fin 8), let is (op : Nat) (fields : Nat) : Prop := s.schIssues (schInstr op fields);
      let moves : Prop := is 7 (d.toNat * 2 ^ 4 + n.val); let ds := (upto 4).map (s.mvDw d.toNat); moves ∧ s.rd
      (MV_STAT.BUSY n) = 0 ∧ mvDescOk ds = true ∧ s.mvCap ds false = none ∧ s.mvCap ds true = none) :=
  ⟨⟨{ ((wProg (schInstr 6 (9 * 2 ^ 16 + 3 * 2 ^ 13 + 1 * 2 ^ 6 + 63)) State.reset).wr (FLD_CTL.EN 63) 1) with fld.xfers := [⟨63, 0, false, false, .inbound, false, []⟩] },
      3, 9, 63, sch_issues (by decide +kernel), by decide +kernel⟩,
    ⟨((wProg (schInstr 6 (9 * 2 ^ 16 + 3 * 2 ^ 13 + 1 * 2 ^ 6 + 63)) State.reset).wr PWR_DOWN.FGRP 128), 3, 9, 63,
      sch_issues (by decide +kernel), by decide +kernel⟩,
    ⟨(wProg (schInstr 6 (9 * 2 ^ 16 + 3 * 2 ^ 13 + 1 * 2 ^ 6 + 63)) State.reset), 3, 9, 63, 1, sch_issues
      (by decide +kernel), bounded (by decide +kernel)⟩,
    ⟨((wProg (schInstr 7 (5 * 2 ^ 4 + 7)) State.reset).wr (MV_STAT.BUSY 7) 1), 5, 7, sch_issues (by decide +kernel),
      by decide +kernel⟩,
    ⟨(wMv 5 0x800000000 0x800000040 (64 + 2 ^ 24 + 2 ^ 40)
      { (wProg (schInstr 7 (5 * 2 ^ 4 + 7)) State.reset) with rib.cct0 := [(0, rootMem)] }), 5, 7, sch_issues
      (by decide +kernel), by decide +kernel⟩⟩

/-- O32. -/
theorem meets_SequencerRuns :
    (∃ (s : State), let st := s.rd SCH_STAT.STATE; let noSwap : Prop := s.sch.swap = none; st = schStopped ∧ (st =
      schStopped ∨ st = schStopping) ∧ noSwap ∧ s.live = true ∧ st ≠ schCheck ∧ (st ≠ schStopping ∨ s.sch.closing = false ∨
      s.rib.runs ≠ [])) ∧
    (∃ (s : State), let st := s.rd SCH_STAT.STATE; let noSwap : Prop := s.sch.swap = none; st ≠ schStopped ∧ st = schRunning
      ∧ noSwap) ∧
    (∃ (s : State) (k : _) (c : _), let st := s.rd SCH_STAT.STATE; let noSwap : Prop := s.sch.swap = none;
      let buf := s.rd SCH_STAT.ACT; let rl := s.headRl buf; let plen := s.headPlen buf; (st = schCheck ∨ st = schStart) ∧
      noSwap ∧ s.live = true ∧ st = schCheck ∧ s.checkFrom buf rl plen (1032 + plen) 0 = some (k, c)) ∧
    (∃ (s : State) (w : _), let st := s.rd SCH_STAT.STATE; s.sch.swap = some w ∧ st = schRunning) ∧
    (∃ (s : State), let buf := s.rd SCH_STAT.ACT; let rl := s.headRl buf; let plen := s.headPlen buf;
      let st := s.rd SCH_STAT.STATE; s.live = true ∧ st = schCheck ∧ s.checkFrom buf rl plen (1032 + plen) 0 = none ∧ ((∀ e,
      e < 1024 → entryArmInit (s.softEntry e) = false))) ∧
    (∃ (s : State), let st := s.rd SCH_STAT.STATE; let noSwap : Prop := s.sch.swap = none; s.live = true ∧ st = schStopping
      ∧ s.sch.closing = true ∧ s.rib.runs = [] ∧ noSwap) :=
  ⟨⟨State.reset, by decide +kernel⟩,
    ⟨(State.reset.wr SCH_STAT.STATE schRunning), by decide +kernel⟩,
    ⟨(State.reset.wr SCH_STAT.STATE schCheck), 0, 1, by decide +kernel⟩,
    ⟨(({ State.reset with sch.swap := some ⟨2, 500000, true, false, false⟩ } : State).wr SCH_STAT.STATE schRunning), ⟨2,
      500000, true, false, false⟩, by decide +kernel⟩,
    ⟨(wSched 0 (State.reset.wr SCH_STAT.STATE schCheck)), by decide +kernel⟩,
    ⟨{ (State.reset.wr SCH_STAT.STATE schStopping) with sch.closing := true }, by decide +kernel⟩⟩

/-- O33. -/
theorem meets_RoundsAndSwaps_1 :
    (∃ (s : State) (fw : Bool), let base := s.rd SCH_FW_BASE_LO.ADDR_LO * 4096 + s.rd SCH_FW_BASE_HI.ADDR_HI * 2 ^ 32;
      let len := s.rd SCH_FW_LEN.LEN; s.live = true ∧ s.sch.swap = none ∧ s.sch.held = none ∧ ((∀ r ∈ s.mv.runs, r.mover <
      8)) ∧ s.rd SCH_SWAP_STAT.PEND = 0 ∧ (fw = false ∨ (inBulk base len = true ∧ len ≤ 0x200000)) ∧ s.swapDue
      s.nextBoundary = false) ∧
    (∃ (s : State), s.rd SCH_SWAP_STAT.PEND = 1) ∧
    (∃ (s : State) (fw : Bool), let base := s.rd SCH_FW_BASE_LO.ADDR_LO * 4096 + s.rd SCH_FW_BASE_HI.ADDR_HI * 2 ^ 32;
      let len := s.rd SCH_FW_LEN.LEN; s.rd SCH_SWAP_STAT.PEND = 0 ∧ fw = true ∧ (inBulk base len = false ∨ 0x200000 < len)) ∧
    (∃ (s : State) (w : _), s.sch.swap = some w ∧ w.stage < 3 ∧ s.live = true ∧ w.stage = 2 ∧ 16 * w.t ≤ s.sch.roundStart +
      s.roundLen ∧ w.cct = false) ∧
    (∃ (s : State) (w : _), s.sch.swap = some w ∧ 3 ≤ w.stage) ∧
    (∃ (s : State) (w : _), let at_ := s.rd2 SCH_SWAP_AT_LO.AT SCH_SWAP_AT_HI.AT; s.live = true ∧ s.sch.swap = some w ∧
      w.stage = 1 ∧ w.sched = false ∧ at_ = 0) :=
  ⟨⟨State.reset, false, by decide +kernel⟩,
    ⟨(State.reset.wr SCH_SWAP_STAT.PEND 1), by decide +kernel⟩,
    ⟨State.reset, true, by decide +kernel⟩,
    ⟨{ State.reset with sch.swap := some ⟨2, 31250, true, false, false⟩ }, ⟨2, 31250, true, false, false⟩,
      by decide +kernel⟩,
    ⟨{ State.reset with sch.swap := some ⟨3, 31250, true, false, false⟩ }, ⟨3, 31250, true, false, false⟩,
      by decide +kernel⟩,
    ⟨{ State.reset with sch.swap := some ⟨1, 31250, false, false, false⟩ }, ⟨1, 31250, false, false, false⟩,
      by decide +kernel⟩⟩

/-- O33. -/
theorem meets_RoundsAndSwaps_2 :
    (∃ (s : State) (w : _), let cur := s.roundLen / 16; let at_ := s.rd2 SCH_SWAP_AT_LO.AT SCH_SWAP_AT_HI.AT; s.live = true
      ∧ s.sch.swap = some w ∧ w.stage = 1 ∧ w.sched = false ∧ at_ ≠ 0 ∧ at_ % cur = 0 ∧ s.time < 16 * at_) ∧
    (∃ (s : State) (w : _), let cur := s.roundLen / 16; let at_ := s.rd2 SCH_SWAP_AT_LO.AT SCH_SWAP_AT_HI.AT; s.live = true
      ∧ s.sch.swap = some w ∧ w.stage = 1 ∧ w.sched = false ∧ at_ ≠ 0 ∧ (at_ % cur ≠ 0 ∨ 16 * at_ ≤ s.time)) ∧
    (∃ (s : State) (w : _), let idle := 1 - s.rd SCH_STAT.ACT; let cur := s.roundLen / 16;
      let at_ := s.rd2 SCH_SWAP_AT_LO.AT SCH_SWAP_AT_HI.AT; s.live = true ∧ s.sch.swap = some w ∧ w.stage = 1 ∧ w.sched =
      true ∧ s.checkFrom idle (s.headRl idle) (s.headPlen idle) (1032 + s.headPlen idle) 0 = none ∧ at_ ≠ 0 ∧ at_ % cur = 0
      ∧ at_ % (125 * s.headRl idle) = 0 ∧ s.time + 10 * (1032 + s.headPlen idle) < 16 * at_) ∧
    (∃ (s : State) (w : _), s.live = true ∧ s.sch.swap = some w ∧ w.stage = 2 ∧ 16 * w.t ≤ s.sch.roundStart + s.roundLen ∧
      w.cct = true ∧ s.rd RIB_CCT_CTL.BUSY = 0 ∧ s.rib.loaded = true) ∧
    (∃ (s : State) (w : _), s.live = true ∧ s.sch.swap = some w ∧ w.stage = 2 ∧ 16 * w.t ≤ s.sch.roundStart + s.roundLen ∧
      w.cct = true ∧ (s.rd RIB_CCT_CTL.BUSY = 1 ∨ s.rib.loaded = false)) ∧
    (∃ (s : State) (w : _), let idle := 1 - s.rd SCH_STAT.ACT; let st := s.rd SCH_STAT.STATE; s.live = true ∧ (st =
      schStopped ∨ (st = schRunning ∧ s.sch.ended = true)) ∧ s.sch.swap = some w ∧ 2 ≤ w.stage ∧ 16 * w.t ≤ s.nextBoundary ∧
      w.cct = false ∧ w.fw = false ∧ s.sch.held = none ∧ ((∀ r ∈ s.mv.runs, r.mover < 8)) ∧ (w.sched = false ∨
      s.nextBoundary % (2000 * s.headRl idle) = 0)) :=
  ⟨⟨({ State.reset with sch.swap := some ⟨1, 31250, false, false, false⟩ }.wr SCH_SWAP_AT_LO.AT 31250), ⟨1, 31250, false,
      false, false⟩, by decide +kernel⟩,
    ⟨({ State.reset with sch.swap := some ⟨1, 31250, false, false, false⟩ }.wr SCH_SWAP_AT_LO.AT 31251), ⟨1, 31250, false,
      false, false⟩, by decide +kernel⟩,
    ⟨(wSched 1 (({ State.reset with sch.swap := some ⟨1, 31250, true, false, false⟩ }.wr SCH_SWAP_AT_LO.AT 10000).wr
      SCH_STAT.RL 80)), ⟨1, 31250, true, false, false⟩, by decide +kernel⟩,
    ⟨{ { State.reset with sch.swap := some ⟨2, 31250, true, true, false⟩ } with rib.loaded := true }, ⟨2, 31250, true, true,
      false⟩, by decide +kernel⟩,
    ⟨{ State.reset with sch.swap := some ⟨2, 31250, true, true, false⟩ }, ⟨2, 31250, true, true, false⟩, by decide +kernel⟩,
    ⟨{ State.reset with sch.swap := some ⟨2, 31250, false, false, false⟩ }, ⟨2, 31250, false, false, false⟩,
      by decide +kernel⟩⟩

/-- O34. -/
theorem meets_SoftSlots_1 :
    (∃ (s : State) (list : Fin 16), s.live = true ∧ s.sch.held = none ∧ ((∀ o ∈ s.sch.slots, o.list ≠ list.val)) ∧
      (s.sch.retryq = [] ∨ (∀ x ∈ s.sch.reserves, x.2 ≤ s.time)) ∧ s.sch.reserves = [] ∧ s.sch.exch = []) ∧
    (∃ (s : State) (list : Fin 16) (o : _),
      let only (o : SoftSlot) : Prop := s.sch.slots.filter (fun x => x.list == list.val) = [o];
      let decided (o : SoftSlot) : State := (s.until o.openAt).pass 10;
      let open_ (o : SoftSlot) : Prop := (decided o).time + 10 * o.lead < o.endAt; s.live = true ∧ s.sch.held = none ∧ only
      o ∧ (¬open_ o)) ∧
    (∃ (s : State) (list : Fin 16) (o : _), let e (i : Nat) := 64 * list.val + i;
      let chain (i : Nat) := entryChain (s.softEntry (e i));
      let free (o : SoftSlot) := o.strands - Nat.land o.strands (Nat.lor s.heldStrands s.retired);
      let fits (o : SoftSlot) (i : Nat) : Prop := s.softState (e i) = softReady ∧ (∀ r ∈ s.rib.runs, r.chain ≠ chain i) ∧ s.softStrands (s.peekDesc (chain i)) (free o) ≠ none;
      let only (o : SoftSlot) : Prop := s.sch.slots.filter (fun x => x.list == list.val) = [o];
      let decided (o : SoftSlot) : State := (s.until o.openAt).pass 10;
      let open_ (o : SoftSlot) : Prop := (decided o).time + 10 * o.lead < o.endAt;
      let on (o : SoftSlot) (r : RibRun) : Bool := r.soft && r.holds && Nat.land r.strands o.strands != 0; s.live = true ∧
      s.sch.held = none ∧ only o ∧ open_ o ∧ ((∀ i, i < 64 → ¬fits o i)) ∧ (s.rib.runs.map (·.chain)).Nodup ∧ ((∀ r ∈
      s.rib.runs, on o r = true → r.phase ≠ .running)) ∧ ((∀ r ∈ s.rib.runs, on o r = false))) ∧
    (∃ (s : State) (list : Fin 16) (o : _) (i : _) (m : _), let e (i : Nat) := 64 * list.val + i;
      let chain (i : Nat) := entryChain (s.softEntry (e i));
      let free (o : SoftSlot) := o.strands - Nat.land o.strands (Nat.lor s.heldStrands s.retired);
      let fits (o : SoftSlot) (i : Nat) : Prop := s.softState (e i) = softReady ∧ (∀ r ∈ s.rib.runs, r.chain ≠ chain i) ∧ s.softStrands (s.peekDesc (chain i)) (free o) ≠ none;
      let only (o : SoftSlot) : Prop := s.sch.slots.filter (fun x => x.list == list.val) = [o];
      let decided (o : SoftSlot) : State := (s.until o.openAt).pass 10;
      let open_ (o : SoftSlot) : Prop := (decided o).time + 10 * o.lead < o.endAt; s.live = true ∧ s.sch.held = none ∧ only
      o ∧ open_ o ∧ i < 64 ∧ fits o i ∧ ((∀ j, j < i → ¬fits o j)) ∧ s.softStrands (s.peekDesc (chain i)) (free o) = some m
      ∧ m ≠ 0) ∧
    (∃ (s : State) (list : Fin 16) (o : _) (i : _), let e (i : Nat) := 64 * list.val + i;
      let chain (i : Nat) := entryChain (s.softEntry (e i));
      let free (o : SoftSlot) := o.strands - Nat.land o.strands (Nat.lor s.heldStrands s.retired);
      let fits (o : SoftSlot) (i : Nat) : Prop := s.softState (e i) = softReady ∧ (∀ r ∈ s.rib.runs, r.chain ≠ chain i) ∧ s.softStrands (s.peekDesc (chain i)) (free o) ≠ none;
      let only (o : SoftSlot) : Prop := s.sch.slots.filter (fun x => x.list == list.val) = [o];
      let decided (o : SoftSlot) : State := (s.until o.openAt).pass 10;
      let open_ (o : SoftSlot) : Prop := (decided o).time + 10 * o.lead < o.endAt; s.live = true ∧ s.sch.held = none ∧ only
      o ∧ open_ o ∧ i < 64 ∧ fits o i ∧ ((∀ j, j < i → ¬fits o j)) ∧ s.softStrands (s.peekDesc (chain i)) (free o) = some 0) ∧
    (∃ (s : State) (list : Fin 16) (o : _) (r : _) (x : _),
      let on (o : SoftSlot) (r : RibRun) : Bool := r.soft && r.holds && Nat.land r.strands o.strands != 0;
      let only (o : SoftSlot) : Prop := s.sch.slots.filter (fun x => x.list == list.val) = [o]; s.live = true ∧ s.sch.held =
      none ∧ only o ∧ s.rib.runs = [r] ∧ on o r = true ∧ r.phase = .launched ∧ r.entry = some x ∧ x ∉ s.sch.cancels) :=
  ⟨⟨State.reset, 1, by decide +kernel⟩,
    ⟨{ State.reset with sch.slots := [⟨1, 7, 0, 10, 0⟩] }, 1, ⟨1, 7, 0, 10, 0⟩, by decide +kernel⟩,
    ⟨{ State.reset with sch.slots := [⟨1, 7, 0, 11, 0⟩] }, 1, ⟨1, 7, 0, 11, 0⟩, by decide +kernel⟩,
    ⟨{ State.reset with sch.slots := [⟨1, 7, 0, 11, 0⟩], sch.soft := [(70, softReady)] }, 1, ⟨1, 7, 0, 11, 0⟩, 6, 1,
      by decide +kernel⟩,
    ⟨(((wEnt 70 (5 + 0x3000) { State.reset with sch.slots := [⟨1, 7, 0, 11, 0⟩], sch.soft := [(70, softReady)] }).setNum (8
      * (wEnt 70 (5 + 0x3000) { State.reset with sch.slots := [⟨1, 7, 0, 11, 0⟩], sch.soft := [(70, softReady)] }).wordGran
      40 0) 32 8).wr RIB_STAT.RETIRED 1), 1, ⟨1, 7, 0, 11, 0⟩, 6, by decide +kernel⟩,
    ⟨{ State.reset with sch.slots := [⟨1, 7, 0, 11, 0⟩], rib.runs := [RibRun.launch 5 1 true (some 70) false] }, 1, ⟨1, 7,
      0, 11, 0⟩, (RibRun.launch 5 1 true (some 70) false), 70, by decide +kernel⟩⟩

/-- O34. -/
theorem meets_SoftSlots_2 :
    (∃ (s : State) (from_ : _) (t : _) (c : _) (k : _) (m : _) (rest : _) (w : _), s.live = true ∧ s.sch.held = none ∧
      s.sch.reserves = [(from_, t)] ∧ s.sch.retryq = (c, k) :: rest ∧ s.time < t ∧ ((∀ r ∈ s.rib.runs, r.chain ≠ c ∧
      (r.retry && !r.soft && r.holds) = false)) ∧ s.hardStrands c k = some m ∧ m ≠ 0 ∧ Nat.land m s.heldStrands = 0 ∧
      s.sch.reserves = [w] ∧ s.sch.retryq ≠ []) ∧
    (∃ (s : State) (w : _), s.live = true ∧ s.sch.held = none ∧ s.sch.reserves = [w] ∧ s.sch.retryq = []) ∧
    (∃ (s : State) (t : _) (l : _), s.live = true ∧ s.sch.held = none ∧ s.sch.exch = [(t, l)] ∧ ((∀ p ∈ l, ∀ x, s.fldX p.1 =
      some x → x.start ≠ p.2))) ∧
    (∃ (s : State) (t : _) (p : _) (x : _), s.live = true ∧ s.sch.held = none ∧ s.sch.exch = [(t, [p])] ∧ s.fldX p.1 = some
      x ∧ x.start = p.2) :=
  ⟨⟨{ State.reset with sch.reserves := [(0, 100)], sch.retryq := [(5, 1)] }, 0, 100, 5, 1, 1, [], (0, 100),
      by decide +kernel⟩,
    ⟨{ State.reset with sch.reserves := [(0, 100)] }, (0, 100), by decide +kernel⟩,
    ⟨{ State.reset with sch.exch := [(100, [(63, 0)])] }, 100, [(63, 0)], by decide +kernel⟩,
    ⟨{ State.reset with sch.exch := [(100, [(63, 0)])], fld.xfers := [⟨63, 0, false, false, .inbound, false, []⟩] }, 100,
      (63, 0), ⟨63, 0, false, false, .inbound, false, []⟩, by decide +kernel⟩⟩

/-- O35. -/
theorem meets_FieldFrames_1 :
    (∃ (s : State) (b : Fin 64) (k : Fin 16) (delay : BitVec 12),
      let awaits (role : Nat) : Prop := s.portAwaits b k role delay.toNat = true; let p := s.port1 b k; s.live = true ∧
      s.memWf = true ∧ s.rd LAT_SPARE_COPY.ACTIVE = 0 ∧ s.fldX b = none ∧ s.portDue b k roleDrive = false ∧ s.portDue b k
      roleHub = false ∧ (¬awaits roleDrive) ∧ (¬awaits roleHub) ∧ p.waiting = false) ∧
    (∃ (s : State) (b : Fin 64) (x : _), let staged (x : FldX) (st : FldStage) : Prop := s.fldX b = some x ∧ x.stage = st;
      s.live = true ∧ s.memWf = true ∧ s.rd LAT_SPARE_COPY.ACTIVE = 0 ∧ staged x .outbound ∧ x.entries false = ([], false)) ∧
    (∃ (s : State) (b : Fin 64) (x : _), let staged (x : FldX) (st : FldStage) : Prop := s.fldX b = some x ∧ x.stage = st;
      s.live = true ∧ s.memWf = true ∧ s.rd LAT_SPARE_COPY.ACTIVE = 0 ∧ staged x .inbound ∧ ((∀ k, k < 16 → s.role b k ≠
      roleCapture ∧ s.role b k ≠ roleUart)) ∧ x.entries true = ([], false)) ∧
    (∃ (s : State) (b : Fin 64) (x : _), let staged (x : FldX) (st : FldStage) : Prop := s.fldX b = some x ∧ x.stage = st;
      s.live = true ∧ s.memWf = true ∧ s.rd LAT_SPARE_COPY.ACTIVE = 0 ∧ staged x .moved) ∧
    (∃ (s : State) (b : Fin 64) (x : _) (m : _),
      let staged (x : FldX) (st : FldStage) : Prop := s.fldX b = some x ∧ x.stage = st; s.soundWord (bits m.2 21 0) ∧ s.live
      = true ∧ s.memWf = true ∧ s.rd LAT_SPARE_COPY.ACTIVE = 0 ∧ staged x .inbound ∧ ((∀ k, k < 16 → s.role b k ≠
      roleCapture ∧ s.role b k ≠ roleUart)) ∧ x.entries true = ([m], false) ∧ bits m.1 15 8 = 1) ∧
    (∃ (s : State) (b : Fin 64) (x : _) (m : _),
      let staged (x : FldX) (st : FldStage) : Prop := s.fldX b = some x ∧ x.stage = st; s.soundWord (bits m.2 21 0) ∧ s.live
      = true ∧ s.memWf = true ∧ s.rd LAT_SPARE_COPY.ACTIVE = 0 ∧ staged x .outbound ∧ x.entries false = ([m], false) ∧ bits
      m.1 15 8 = 1) :=
  ⟨⟨State.reset, 63, 15, 2500, by decide +kernel⟩,
    ⟨{ State.reset with fld.xfers := [⟨63, 0, false, true, .outbound, false, []⟩] }, 63, ⟨63, 0, false, true, .outbound,
      false, []⟩, by decide +kernel⟩,
    ⟨{ State.reset with fld.xfers := [⟨63, 0, false, true, .inbound, false, []⟩] }, 63, ⟨63, 0, false, true, .inbound,
      false, []⟩, by decide +kernel⟩,
    ⟨{ State.reset with fld.xfers := [⟨63, 0, false, true, .moved, false, []⟩] }, 63, ⟨63, 0, false, true, .moved, false,
      []⟩, by decide +kernel⟩,
    ⟨{ State.reset with fld.xfers := [⟨63, 0, false, true, .inbound, false, [(true, 2 ^ 31 + 256 + 127, 0x2FFFFF)]⟩] }, 63,
      ⟨63, 0, false, true, .inbound, false, [(true, 2 ^ 31 + 256 + 127, 0x2FFFFF)]⟩, (2 ^ 31 + 256 + 127, 0x2FFFFF),
      by unfold State.soundWord State.sound; decide +kernel, by decide +kernel⟩,
    ⟨{ State.reset with fld.xfers := [⟨63, 0, false, true, .outbound, false, [(false, 2 ^ 31 + 256 + 127, 0x2FFFFF)]⟩] },
      63, ⟨63, 0, false, true, .outbound, false, [(false, 2 ^ 31 + 256 + 127, 0x2FFFFF)]⟩, (2 ^ 31 + 256 + 127, 0x2FFFFF),
      by unfold State.soundWord State.sound; decide +kernel, by decide +kernel⟩⟩

/-- O35. -/
theorem meets_FieldFrames_2 :
    (∃ (s : State) (b : Fin 64) (x : _) (m : _),
      let staged (x : FldX) (st : FldStage) : Prop := s.fldX b = some x ∧ x.stage = st; s.live = true ∧ s.memWf = true ∧
      s.rd LAT_SPARE_COPY.ACTIVE = 0 ∧ staged x .outbound ∧ x.entries false = ([m], false) ∧ bits m.1 15 8 = 1 ∧ (s.latPeek
      (bits m.2 21 0) 0).2.1 ≠ 0) ∧
    (∃ (s : State) (b : Fin 64) (k : Fin 16), let p := s.port1 b k; s.live = true ∧ s.portDue b k roleDrive = true ∧ p.ident
      = false) ∧
    (∃ (s : State) (b : Fin 64) (k : Fin 16), let p := s.port1 b k; s.live = true ∧ s.portDue b k roleDrive = true ∧ p.ident
      = true) ∧
    (∃ (s : State) (b : Fin 64) (k : Fin 16), let p := s.port1 b k; s.live = true ∧ s.portDue b k roleHub = true ∧ p.ident =
      false) ∧
    (∃ (s : State) (b : Fin 64) (k : Fin 16), let p := s.port1 b k; s.live = true ∧ s.portDue b k roleHub = true ∧ p.ident =
      true) ∧
    (∃ (s : State) (b : Fin 64) (k : Fin 16) (frame : List Byte) (codeErr : Bool) (delay : BitVec 12) (pl : _),
      let awaits (role : Nat) : Prop := s.portAwaits b k role delay.toNat = true; let p := s.port1 b k; s.live = true ∧
      awaits roleDrive ∧ xagParse frame codeErr = some (2, pl) ∧ pl.length = 28 ∧ p.waiting = true) :=
  ⟨⟨{ State.reset with fld.xfers := [⟨63, 0, false, true, .outbound, false, [(false, 2 ^ 31 + 256 + 127, 0x2FFFFF)]⟩], syn := [(State.reset.wordGran 0x2FFFFF 0, 3)] },
      63, ⟨63, 0, false, true, .outbound, false, [(false, 2 ^ 31 + 256 + 127, 0x2FFFFF)]⟩, (2 ^ 31 + 256 + 127, 0x2FFFFF),
      by decide +kernel⟩,
    ⟨(wPort 1 0 { PortS.idle with due := true } State.reset), 63, 15, by decide +kernel⟩,
    ⟨(wPort 1 0 { PortS.idle with due := true, ident := true } State.reset), 63, 15, by decide +kernel⟩,
    ⟨(wPort 3 0 { PortS.idle with due := true } State.reset), 63, 15, by decide +kernel⟩,
    ⟨(wPort 3 0 { PortS.idle with due := true, ident := true } State.reset), 63, 15, by decide +kernel⟩,
    ⟨(wPort 1 0 { PortS.idle with waiting := true } State.reset), 63, 15, (xagFrame 2 0 (List.replicate 28 7)), false, 100,
      (List.replicate 28 7), by decide +kernel⟩⟩

/-- O35. -/
theorem meets_FieldFrames_3 :
    (∃ (s : State) (b : Fin 64) (k : Fin 16) (frame : List Byte) (codeErr : Bool) (delay : BitVec 12),
      let awaits (role : Nat) : Prop := s.portAwaits b k role delay.toNat = true; ((∀ pl, xagParse frame codeErr = some (2,
      pl) → pl.length ≠ 28)) ∧ s.live = true ∧ awaits roleDrive) ∧
    (∃ (s : State) (b : Fin 64) (k : Fin 16) (frame : List Byte) (codeErr : Bool) (delay : BitVec 12) (pl : _),
      let awaits (role : Nat) : Prop := s.portAwaits b k role delay.toNat = true; s.live = true ∧ awaits roleHub ∧ xagParse
      frame codeErr = some (4, pl) ∧ pl.length = 24) ∧
    (∃ (s : State) (b : Fin 64) (k : Fin 16) (frame : List Byte) (codeErr : Bool) (delay : BitVec 12),
      let awaits (role : Nat) : Prop := s.portAwaits b k role delay.toNat = true; ((∀ pl, xagParse frame codeErr = some (4,
      pl) → pl.length ≠ 24)) ∧ s.live = true ∧ awaits roleHub) ∧
    (∃ (s : State) (b : Fin 64) (k : Fin 16) (frame : List Byte) (codeErr : Bool) (delay : BitVec 12) (pl : _),
      let awaits (role : Nat) : Prop := s.portAwaits b k role delay.toNat = true; s.live = true ∧ (awaits roleDrive ∨ awaits
      roleHub) ∧ xagParse frame codeErr = some (6, pl) ∧ pl.length = 16) ∧
    (∃ (s : State) (b : Fin 64) (k : Fin 16) (frame : List Byte) (codeErr : Bool) (delay : BitVec 12),
      let awaits (role : Nat) : Prop := s.portAwaits b k role delay.toNat = true; ((∀ pl, xagParse frame codeErr = some (6,
      pl) → pl.length ≠ 16)) ∧ s.live = true ∧ (awaits roleDrive ∨ awaits roleHub)) :=
  ⟨⟨(wPort 1 0 { PortS.idle with waiting := true } State.reset), 63, 15, (xagFrame 2 0 (List.replicate 27 7)), false, 100,
      parsed_length (by decide +kernel), by decide +kernel⟩,
    ⟨(wPort 3 0 { PortS.idle with waiting := true } State.reset), 63, 15, (xagFrame 4 0 (List.replicate 24 7)), false, 100,
      (List.replicate 24 7), by decide +kernel⟩,
    ⟨(wPort 3 0 { PortS.idle with waiting := true } State.reset), 63, 15, (xagFrame 4 0 (List.replicate 25 7)), false, 100,
      parsed_length (by decide +kernel), by decide +kernel⟩,
    ⟨(wPort 1 0 { PortS.idle with waiting := true } State.reset), 63, 15, (xagFrame 6 0 (List.replicate 16 7)), false, 100,
      (List.replicate 16 7), by decide +kernel⟩,
    ⟨(wPort 3 0 { PortS.idle with waiting := true } State.reset), 63, 15, (xagFrame 6 0 (List.replicate 15 7)), false, 100,
      parsed_length (by decide +kernel), by decide +kernel⟩⟩

/-- O36. -/
theorem meets_FieldRoles_1 :
    (∃ (s : State) (b : Fin 64) (k : Fin 16), let pulse : Prop := s.isOn (FLD_CTL.EN b) = true ∧ s.role b k = rolePulse;
      let p := s.port1 b k; let uart : Prop := s.isOn (FLD_CTL.EN b) = true ∧ s.role b k = roleUart; s.live = true ∧
      s.portDue b k roleSsi = false ∧ (s.isOn (FLD_CTL.EN b) = false ∨ s.role b k ≠ roleCapture) ∧ (¬pulse) ∧ s.portDue b k
      roleUart = false ∧ (¬uart ∨ s.now < p.busyUntil)) ∧
    (∃ (s : State) (b : Fin 64) (k : Fin 16), let nb := s.opt b k % 128; let p := s.port1 b k;
      let enabled (role : Nat) : Prop := s.isOn (FLD_CTL.EN b) = true ∧ s.role b k = role;
      let due (role : Nat) : Prop := enabled role ∧ p.due = true; s.live = true ∧ s.portDue b k roleSsi = true ∧ 1 ≤ nb ∧ nb
      ≤ 64 ∧ due roleSsi) ∧
    (∃ (s : State) (b : Fin 64) (k : Fin 16) (rising : Bool), s.live = true ∧ s.isOn (FLD_CTL.EN b) = true ∧ s.role b k =
      roleCapture ∧ bitb (s.opt b k) (if rising then 0 else 1) = false) ∧
    (∃ (s : State) (b : Fin 64) (k : Fin 16) (rising : Bool), s.live = true ∧ s.isOn (FLD_CTL.EN b) = true ∧ s.role b k =
      roleCapture ∧ bitb (s.opt b k) (if rising then 0 else 1) = true) ∧
    (∃ (s : State) (b : Fin 64) (k : Fin 16), let p := s.port1 b k;
      let pulse : Prop := s.isOn (FLD_CTL.EN b) = true ∧ s.role b k = rolePulse; s.live = true ∧ pulse ∧ (bitb (s.opt b k) 1
      = true ∨ p.entries = []) ∧ (bitb (s.opt b k) 1 = false ∨ p.stamps = [])) ∧
    (∃ (s : State) (b : Fin 64) (k : Fin 16) (l : _) (t : _) (rest : _), let p := s.port1 b k;
      let pulse : Prop := s.isOn (FLD_CTL.EN b) = true ∧ s.role b k = rolePulse;
      let enabled (role : Nat) : Prop := s.isOn (FLD_CTL.EN b) = true ∧ s.role b k = role; s.live = true ∧ pulse ∧ bitb
      (s.opt b k) 1 = false ∧ p.entries = (l, t) :: rest ∧ enabled rolePulse) :=
  ⟨⟨State.reset, 63, 15, by decide +kernel⟩,
    ⟨(wPort 2 64 { PortS.idle with due := true } State.reset), 63, 15, by decide +kernel⟩,
    ⟨(wPort 4 0 { PortS.idle with due := true } State.reset), 63, 15, true, by decide +kernel⟩,
    ⟨(wPort 4 3 { PortS.idle with edges := 24 } State.reset), 63, 15, true, by decide +kernel⟩,
    ⟨(wPort 5 0 { PortS.idle with due := true } State.reset), 63, 15, by decide +kernel⟩,
    ⟨(wPort 5 0 { PortS.idle with entries := [(true, 5)] } State.reset), 63, 15, true, 5, [], by decide +kernel⟩⟩

/-- O36. -/
theorem meets_FieldRoles_2 :
    (∃ (s : State) (b : Fin 64) (k : Fin 16) (t : _) (rest : _), let p := s.port1 b k;
      let pulse : Prop := s.isOn (FLD_CTL.EN b) = true ∧ s.role b k = rolePulse;
      let enabled (role : Nat) : Prop := s.isOn (FLD_CTL.EN b) = true ∧ s.role b k = role; s.live = true ∧ pulse ∧ bitb
      (s.opt b k) 1 = true ∧ p.stamps = t :: rest ∧ enabled rolePulse) ∧
    (∃ (s : State) (b : Fin 64) (k : Fin 16), let p := s.port1 b k;
      let enabled (role : Nat) : Prop := s.isOn (FLD_CTL.EN b) = true ∧ s.role b k = role;
      let due (role : Nat) : Prop := enabled role ∧ p.due = true; s.live = true ∧ s.portDue b k roleUart = true ∧
      p.busyUntil ≤ p.bound ∧ s.eff (FLD_PCFG_A.RATE b k) < 8 ∧ due roleUart) ∧
    (∃ (s : State) (b : Fin 64) (k : Fin 16) (bad : Bool), let p := s.port1 b k;
      let uart : Prop := s.isOn (FLD_CTL.EN b) = true ∧ s.role b k = roleUart; s.live = true ∧ uart ∧ p.busyUntil ≤ s.now ∧
      (bad = true ∨ 190 ≤ p.rx)) ∧
    (∃ (s : State) (b : Fin 64) (k : Fin 16) (bad : Bool), let p := s.port1 b k;
      let uart : Prop := s.isOn (FLD_CTL.EN b) = true ∧ s.role b k = roleUart;
      let enabled (role : Nat) : Prop := s.isOn (FLD_CTL.EN b) = true ∧ s.role b k = role; s.live = true ∧ uart ∧
      p.busyUntil ≤ s.now ∧ bad = false ∧ p.rx < 190 ∧ enabled roleUart) ∧
    (∃ (s : State) (b : Fin 64) (x : FldX), let staged (st : FldStage) : Prop := s.fldX b = some x ∧ x.stage = st;
      let ins := (x.entries true).1.flatMap mapWords; let whole : Prop := s.memWf = true ∧ s.rd LAT_SPARE_COPY.ACTIVE = 0;
      ((∀ y ∈ ins, s.soundWord y.2)) ∧ s.live = true ∧ staged .inbound ∧ whole ∧ ins.Pairwise (fun a c => a.2 ≠ c.2)) ∧
    (∃ (s : State) (b : Fin 64) (x : FldX), let staged (st : FldStage) : Prop := s.fldX b = some x ∧ x.stage = st;
      let outs := (x.entries false).1.flatMap mapWords; let whole : Prop := s.memWf = true ∧ s.rd LAT_SPARE_COPY.ACTIVE = 0;
      ((∀ y ∈ outs, s.soundWord y.2)) ∧ s.live = true ∧ staged .outbound ∧ whole ∧ outs.Pairwise (fun a c => a.1 ≠ c.1)) :=
  ⟨⟨(wPort 5 2 { PortS.idle with stamps := [5] } State.reset), 63, 15, 5, [], by decide +kernel⟩,
    ⟨(wPort 6 0 { PortS.idle with due := true } State.reset), 63, 15, by decide +kernel⟩,
    ⟨(wPort 6 0 { PortS.idle with rx := 190 } State.reset), 63, 15, false, by decide +kernel⟩,
    ⟨(wPort 6 0 { PortS.idle with rx := 189 } State.reset), 63, 15, false, by decide +kernel⟩,
    ⟨{ State.reset with fld.xfers := [⟨63, 0, false, true, .inbound, false, [(true, 2 ^ 31 + 256 + 127, 0x2FFFFF)]⟩] }, 63,
      ⟨63, 0, false, true, .inbound, false, [(true, 2 ^ 31 + 256 + 127, 0x2FFFFF)]⟩,
      by unfold State.soundWord State.sound; decide +kernel, by decide +kernel⟩,
    ⟨{ State.reset with fld.xfers := [⟨63, 0, false, true, .outbound, false, [(false, 2 ^ 31 + 256 + 127, 0x2FFFFF)]⟩] },
      63, ⟨63, 0, false, true, .outbound, false, [(false, 2 ^ 31 + 256 + 127, 0x2FFFFF)]⟩,
      by unfold State.soundWord State.sound; decide +kernel, by decide +kernel⟩⟩

/-- O36. -/
theorem meets_FieldRoles_3 :
    (∃ (s : State) (b : Fin 64) (x : FldX), let staged (st : FldStage) : Prop := s.fldX b = some x ∧ x.stage = st; s.live =
      true ∧ staged .moved) ∧
    (∃ (s : State) (b : Fin 64) (k : Fin 16), let p := s.port1 b k;
      let enabled (role : Nat) : Prop := s.isOn (FLD_CTL.EN b) = true ∧ s.role b k = role;
      let due (role : Nat) : Prop := enabled role ∧ p.due = true; s.live = true ∧ due roleDrive) ∧
    (∃ (s : State) (b : Fin 64) (k : Fin 16), let p := s.port1 b k;
      let enabled (role : Nat) : Prop := s.isOn (FLD_CTL.EN b) = true ∧ s.role b k = role;
      let due (role : Nat) : Prop := enabled role ∧ p.due = true; s.live = true ∧ due roleHub) ∧
    (∃ (s : State) (b : Fin 64) (k : Fin 16) (frame : List Byte) (codeErr : Bool) (delay : BitVec 12) (pl : List Byte),
      let p := s.port1 b k; let enabled (role : Nat) : Prop := s.isOn (FLD_CTL.EN b) = true ∧ s.role b k = role;
      let awaits (role : Nat) : Prop := enabled role ∧ p.waiting = true ∧ delay.toNat ≤ 2500; s.live = true ∧ awaits
      roleDrive ∧ xagParse frame codeErr = some (2, pl) ∧ pl.length = 28 ∧ p.waiting = true) ∧
    (∃ (s : State) (b : Fin 64) (k : Fin 16) (frame : List Byte) (codeErr : Bool) (delay : BitVec 12) (pl : List Byte),
      let p := s.port1 b k; let enabled (role : Nat) : Prop := s.isOn (FLD_CTL.EN b) = true ∧ s.role b k = role;
      let awaits (role : Nat) : Prop := enabled role ∧ p.waiting = true ∧ delay.toNat ≤ 2500; s.live = true ∧ awaits roleHub
      ∧ xagParse frame codeErr = some (4, pl) ∧ pl.length = 24) ∧
    (∃ (s : State) (b : Fin 64) (k : Fin 16) (frame : List Byte) (codeErr : Bool) (delay : BitVec 12) (pl : List Byte),
      let p := s.port1 b k; let enabled (role : Nat) : Prop := s.isOn (FLD_CTL.EN b) = true ∧ s.role b k = role;
      let awaits (role : Nat) : Prop := enabled role ∧ p.waiting = true ∧ delay.toNat ≤ 2500; s.live = true ∧ (awaits
      roleDrive ∨ awaits roleHub) ∧ xagParse frame codeErr = some (6, pl) ∧ pl.length = 16) :=
  ⟨⟨{ State.reset with fld.xfers := [⟨63, 0, false, true, .moved, false, []⟩] }, 63, ⟨63, 0, false, true, .moved, false,
      []⟩, by decide +kernel⟩,
    ⟨(wPort 1 0 { PortS.idle with due := true } State.reset), 63, 15, by decide +kernel⟩,
    ⟨(wPort 3 0 { PortS.idle with due := true } State.reset), 63, 15, by decide +kernel⟩,
    ⟨(wPort 1 0 { PortS.idle with waiting := true } State.reset), 63, 15, (xagFrame 2 0 (List.replicate 28 7)), false, 100,
      (List.replicate 28 7), by decide +kernel⟩,
    ⟨(wPort 3 0 { PortS.idle with waiting := true } State.reset), 63, 15, (xagFrame 4 0 (List.replicate 24 7)), false, 100,
      (List.replicate 24 7), by decide +kernel⟩,
    ⟨(wPort 1 0 { PortS.idle with waiting := true } State.reset), 63, 15, (xagFrame 6 0 (List.replicate 16 7)), false, 100,
      (List.replicate 16 7), by decide +kernel⟩⟩

/-- O36. -/
theorem meets_FieldRoles_4 :
    ∃ (s : State) (b : Fin 64) (k : Fin 16) (rising : Bool),
      let enabled (role : Nat) : Prop := s.isOn (FLD_CTL.EN b) = true ∧ s.role b k = role; s.live = true ∧
      enabled roleCapture ∧ bitb (s.opt b k) (if rising then 0 else 1) = true :=
  ⟨(wPort 4 3 { PortS.idle with edges := 23 } State.reset), 63, 15, true, by decide +kernel⟩

/-- O37. -/
theorem meets_Cameras_1 :
    (∃ (s : State) (n : Fin 8) (st : _) (speed : Fin 8), let c := s.cam1 n; let busy : Prop := s.rd (CAM_CCMD.BUSY n) = 1;
      s.live = true ∧ (s.camOn n = false ∨ (c.frame ≠ none ∧ st = true)) ∧ c.frame = none ∧ c.fifo = [] ∧ c.trig = [] ∧
      (¬busy) ∧ (speed.val = 0 ∨ s.rd PWR_DOWN.CAM = 1)) ∧
    (∃ (s : State) (n : Fin 8) (k : _) (st : _) (w : _) (t : _), let c := s.cam1 n; s.live = true ∧ s.camOn n = true ∧
      c.frame = some (k, st, w) ∧ c.frame = some (k, t, w)) ∧
    (∃ (s : State) (n : Fin 8) (fmt : CamFmt) (v : BitVec 32) (speed : Fin 8), let c := s.cam1 n;
      let starts : Prop := s.camOn n = true ∧ c.frame = none; s.live = true ∧ starts ∧ camWide fmt = none ∧ s.rd
      (CAM_CCMD.BUSY n) = 0 ∧ bitb v.toNat 31 = true ∧ speed.val ≠ 0 ∧ s.rd PWR_DOWN.CAM = 0) ∧
    (∃ (s : State) (n : Fin 8) (fmt : CamFmt), let c := s.cam1 n; let starts : Prop := s.camOn n = true ∧ c.frame = none;
      s.live = true ∧ starts ∧ camWide fmt ≠ none ∧ s.camFree n = none) ∧
    (∃ (s : State) (n : Fin 8) (fmt : CamFmt) (w : _) (k : _), let c := s.cam1 n;
      let starts : Prop := s.camOn n = true ∧ c.frame = none; s.live = true ∧ starts ∧ camWide fmt = some w ∧ s.camFree n =
      some k ∧ s.rd (CAM_CTL.EN n) = 1 ∧ s.rd (CAM_STAT.LINK n) = 1 ∧ s.rd PWR_DOWN.CAM = 0 ∧ c.frame = none) ∧
    (∃ (s : State) (n : Fin 8) (k : _) (st : _) (w : _), let c := s.cam1 n; let size := s.rd (CAM_SLOTSZ.SIZE n) * 32;
      let base := s.rd (CAM_RBASE.BASE n) * 32 + k * size; ((∀ x, base / 32 ≤ x → x ≤ (base + size) / 32 → s.soundWord x)) ∧
      s.live = true ∧ c.frame = some (k, st, w) ∧ base + size ≤ latWords * 32 ∧ s.rd LAT_SPARE_COPY.ACTIVE = 0 ∧
      s.lat.halves = []) :=
  ⟨⟨State.reset, 7, (true : Bool), 0, by decide +kernel⟩,
    ⟨(wCam { CamPort.idle with frame := some (0, 5, false) } State.reset), 7, 0, 5, false, 5, by decide +kernel⟩,
    ⟨(wCam CamPort.idle State.reset), 7, .other, 2147483648, 7, by decide +kernel⟩,
    ⟨(wCam { CamPort.idle with held := 1 } State.reset), 7, .mono8, by decide +kernel⟩,
    ⟨(wCam CamPort.idle State.reset), 7, .mono8, false, 0, by decide +kernel⟩,
    ⟨{ wCam { CamPort.idle with frame := some (0, 5, false) } State.reset with lat.halves := [] }, 7, 0, 5, false,
      fun x _ _ => clean_word (by decide +kernel) x, by decide +kernel⟩⟩

/-- O37. -/
theorem meets_Cameras_2 :
    (∃ (s : State) (n : Fin 8) (e : _) (rest : _), let c := s.cam1 n; s.live = true ∧ c.fifo = e :: rest) ∧
    (∃ (s : State) (n : Fin 8) (t : _) (rest : _), let c := s.cam1 n; s.live = true ∧ takeLeast c.trig = some (t, rest) ∧
      c.trig ≠ []) ∧
    (∃ (s : State) (n : Fin 8), let busy : Prop := s.rd (CAM_CCMD.BUSY n) = 1; s.live = true ∧ busy) ∧
    (∃ (s : State) (speed : Fin 8), s.live = true ∧ speed.val ≠ 0 ∧ s.rd PWR_DOWN.CAM = 0) ∧
    (∃ (s : State) (n : Fin 8), s.live = true ∧ s.rd (CAM_CCMD.BUSY n) = 1) :=
  ⟨⟨(wCam { CamPort.idle with fifo := [⟨false, true, 0, 1, 2, 3, 4⟩] } State.reset), 7, ⟨false, true, 0, 1, 2, 3, 4⟩, [],
      by decide +kernel⟩,
    ⟨(wCam { CamPort.idle with trig := [5] } State.reset), 7, 5, [], by decide +kernel⟩,
    ⟨(State.reset.wr (CAM_CCMD.BUSY 7) 1), 7, by decide +kernel⟩,
    ⟨State.reset, 7, by decide +kernel⟩,
    ⟨((wCam CamPort.idle State.reset).wr (CAM_CCMD.BUSY 7) 1), 7, by decide +kernel⟩⟩

/-- O38. -/
theorem meets_BusAccesses_1 :
    (∃ (s : State) (w : Bool) (addr : BitVec 40) (len : Fin 65) (data : List Byte), let a := addr.toNat;
      let n := if w then data.length else len.val; transactionOk a n = false) ∧
    (∃ (s : State) (w : Bool) (addr : BitVec 40) (len : Fin 65) (data : List Byte), let a := addr.toNat;
      let n := if w then data.length else len.val; bulkSpareBase ≤ a ∧ a < bulkEnd ∧ transactionOk a n = true) ∧
    (∃ (s : State) (w : Bool) (addr : BitVec 40) (len : Fin 65) (data : List Byte), let a := addr.toNat;
      let n := if w then data.length else len.val; let plain : Prop := inBulk a n = true ∧ transactionOk a n = true ∧ s.pwr.asserted ≤ 1 ∧ (∀ r ∈ s.bulk.redir, r.1 ≠ (a - bulkBase) / 4096); let sound : Prop := ∀ g, a / 8 ≤ g → g ≤ (a + n - 1) / 8 → s.sound g; sound ∧ plain ∧ w = false ∧ s.live = true ∧ s.bulkAt a / 8 ∉ s.bulk.reread) ∧
    (∃ (s : State) (w : Bool) (addr : BitVec 40) (len : Fin 65) (data : List Byte), let a := addr.toNat;
      let n := if w then data.length else len.val; let plain : Prop := inBulk a n = true ∧ transactionOk a n = true ∧ s.pwr.asserted ≤ 1 ∧ (∀ r ∈ s.bulk.redir, r.1 ≠ (a - bulkBase) / 4096); let sound : Prop := ∀ g, a / 8 ≤ g → g ≤ (a + n - 1) / 8 → s.sound g; sound ∧ plain ∧ w = true ∧ s.bulk.ueGran = []) ∧
    (∃ (s : State) (w : Bool) (addr : BitVec 40) (len : Fin 65) (data : List Byte), let a := addr.toNat;
      let n := if w then data.length else len.val; let plain : Prop := inBulk a n = true ∧ transactionOk a n = true ∧ s.pwr.asserted ≤ 1 ∧ (∀ r ∈ s.bulk.redir, r.1 ≠ (a - bulkBase) / 4096); plain ∧ w = false ∧ n = 8 ∧ a % 8 = 0 ∧ eccClass (s.gran (a / 8)).2 = .corrected ∧ SMap.get (fun _ => (0 : BitVec 72)) s.stuck (a / 8) = 0) ∧
    (∃ (s : State) (w : Bool) (addr : BitVec 40) (len : Fin 65) (data : List Byte), let a := addr.toNat;
      let n := if w then data.length else len.val; let plain : Prop := inBulk a n = true ∧ transactionOk a n = true ∧ s.pwr.asserted ≤ 1 ∧ (∀ r ∈ s.bulk.redir, r.1 ≠ (a - bulkBase) / 4096); plain ∧ w = false ∧ n = 8 ∧ a % 8 = 0 ∧ eccClass (s.gran (a / 8)).2 = .uncorrectable) :=
  ⟨⟨State.reset, false, 0x800000001, 64, [], by decide +kernel⟩,
    ⟨State.reset, false, (BitVec.ofNat 40 bulkSpareBase), 8, [], by decide +kernel⟩,
    ⟨State.reset, false, 0x800000000, 8, [], fun g _ _ => clean_sound (by decide +kernel) g, by decide +kernel⟩,
    ⟨State.reset, true, 0x800000000, 8, (List.replicate 8 7),
      fun g _ _ => clean_sound (by decide +kernel) g, by decide +kernel⟩,
    ⟨{ State.reset with syn := [(State.reset.bulkAt 0x800000000 / 8, 1)] }, false, 0x800000000, 8, [], by decide +kernel⟩,
    ⟨{ State.reset with syn := [(State.reset.bulkAt 0x800000000 / 8, 3)] }, false, 0x800000000, 8, [], by decide +kernel⟩⟩

/-- O38. -/
theorem meets_BusAccesses_2 :
    (∃ (s : State) (addr : BitVec 40), let a := addr.toNat; s.sound (s.bulkAt a / 8) ∧ s.live = true ∧ s.bulkAt a / 8 ∈
      s.bulk.reread) ∧
    (∃ (s : State) (addr : BitVec 40), let a := addr.toNat; s.live = true ∧ s.bulkAt a / 8 ∈ s.bulk.reread ∧ (s.gran
      (s.bulkAt a / 8)).2 ≠ 0 ∧ s.bulk.nextFree < 512) ∧
    (∃ (s : State) (addr : BitVec 40), let a := addr.toNat; s.live = true ∧ s.bulkAt a / 8 ∈ s.bulk.reread ∧ (s.gran
      (s.bulkAt a / 8)).2 ≠ 0 ∧ 512 ≤ s.bulk.nextFree) ∧
    (∃ (s : State) (addr : BitVec 40), let a := addr.toNat; let powered : Prop := s.pwr.state = .run ∨ s.pwr.state = .idle;
      (¬powered ∨ transactionOk a 4 = false)) ∧
    (∃ (s : State) (sec : Bool) (addr : BitVec 40) (r : _), let a := addr.toNat;
      let powered : Prop := s.pwr.state = .run ∨ s.pwr.state = .idle; let served : Prop := powered ∧ s.pwr.asserted = 0;
      let page : Prop := a / 0x10000 = 0x4002 ∨ a / 0x10000 = 0x4004 ∨ a / 0x10000 = 0x4007; served ∧ page ∧ a % 4 = 0 ∧
      specAt a = some r ∧ (r.secure = false ∨ sec = true) ∧ a ≠ XW_DERR_INFO.addr ∧ a ≠ XW_DERR_CNT.COUNT.addr ∧ a ≠
      XW_BERR_CNT.COUNT.addr) ∧
    (∃ (s : State) (addr : BitVec 40), let a := addr.toNat; let powered : Prop := s.pwr.state = .run ∨ s.pwr.state = .idle;
      let served : Prop := powered ∧ s.pwr.asserted = 0; served ∧ a = XW_DERR_INFO.addr ∧ s.xw.tc ≠ s.now) :=
  ⟨⟨{ State.reset with bulk.reread := [State.reset.bulkAt 0x800000000 / 8] }, 0x800000000,
      by unfold State.sound; decide +kernel, by decide +kernel⟩,
    ⟨{ { State.reset with bulk.reread := [State.reset.bulkAt 0x800000000 / 8] } with syn := [({ State.reset with bulk.reread := [State.reset.bulkAt 0x800000000 / 8] }.bulkAt 0x800000000 / 8, 1)] },
      0x800000000, by decide +kernel⟩,
    ⟨{ { { State.reset with bulk.reread := [State.reset.bulkAt 0x800000000 / 8] } with syn := [({ State.reset with bulk.reread := [State.reset.bulkAt 0x800000000 / 8] }.bulkAt 0x800000000 / 8, 1)] } with bulk.nextFree := 512 },
      0x800000000, by decide +kernel⟩,
    ⟨{ State.reset with pwr.state := .off }, 0x800000000, by decide +kernel⟩,
    ⟨State.reset, false, 0x40020000, ⟨0x40020000, 1, 0, 1, 0, false, [⟨4, 4, .ro, 0, .none⟩, ⟨3, 0, .ro, 0, .none⟩]⟩,
      by decide +kernel⟩,
    ⟨{ State.reset with time := 16 }, (BitVec.ofNat 40 XW_DERR_INFO.addr), by decide +kernel⟩⟩

/-- O38. -/
theorem meets_BusAccesses_3 :
    (∃ (s : State) (addr : BitVec 40), let a := addr.toNat; let powered : Prop := s.pwr.state = .run ∨ s.pwr.state = .idle;
      let served : Prop := powered ∧ s.pwr.asserted = 0; served ∧ a = XW_DERR_CNT.COUNT.addr) ∧
    (∃ (s : State) (addr : BitVec 40), let a := addr.toNat; let powered : Prop := s.pwr.state = .run ∨ s.pwr.state = .idle;
      let served : Prop := powered ∧ s.pwr.asserted = 0; served ∧ a = XW_BERR_CNT.COUNT.addr) ∧
    (∃ (s : State) (addr : BitVec 40), let a := addr.toNat; let powered : Prop := s.pwr.state = .run ∨ s.pwr.state = .idle;
      let served : Prop := powered ∧ s.pwr.asserted = 0;
      let page : Prop := a / 0x10000 = 0x4002 ∨ a / 0x10000 = 0x4004 ∨ a / 0x10000 = 0x4007; served ∧ page ∧ a % 4 = 0 ∧
      specAt a = none ∧ s.xw.tc ≠ s.now) ∧
    (∃ (s : State) (sec : Bool) (addr : BitVec 40) (r : _), let a := addr.toNat;
      let powered : Prop := s.pwr.state = .run ∨ s.pwr.state = .idle; powered ∧ a / 0x10000 = 0x4000 ∧ a % 4 = 0 ∧ specAt a
      = some r ∧ r.secure = true ∧ sec = false) ∧
    (∃ (s : State) (addr : BitVec 40), let a := addr.toNat; let powered : Prop := s.pwr.state = .run ∨ s.pwr.state = .idle;
      let page : Prop := a / 0x10000 = 0x4002 ∨ a / 0x10000 = 0x4004 ∨ a / 0x10000 = 0x4007; powered ∧ page ∧ a % 4 ≠ 0 ∧ a
      % 64 + 4 ≤ 64) ∧
    (∃ (s : State) (addr : BitVec 40), let a := addr.toNat; let powered : Prop := s.pwr.state = .run ∨ s.pwr.state = .idle;
      let page : Prop := a / 0x10000 = 0x4002 ∨ a / 0x10000 = 0x4004 ∨ a / 0x10000 = 0x4007; powered ∧ page ∧ 3 ≤
      s.pwr.asserted ∧ a % 64 + 4 ≤ 64) :=
  ⟨⟨State.reset, (BitVec.ofNat 40 XW_DERR_CNT.COUNT.addr), by decide +kernel⟩,
    ⟨State.reset, (BitVec.ofNat 40 XW_BERR_CNT.COUNT.addr), by decide +kernel⟩,
    ⟨{ State.reset with time := 16 }, 0x4002FF00, by decide +kernel⟩,
    ⟨State.reset, false, 0x40000010, ⟨0x40000010, 1, 0, 1, 0, true, [⟨31, 28, .wo, 0, .none⟩]⟩, by decide +kernel⟩,
    ⟨State.reset, 0x40020001, by decide +kernel⟩,
    ⟨{ State.reset with pwr.asserted := 3 }, 0x40020000, by decide +kernel⟩⟩

/-- O39. -/
theorem meets_Lattice_1 :
    (∃ (s : State) (r : LatReq) (bank : BitVec 8) (p : Fin 264) (b : BitVec 8) (k : Fin 8) (st : BitVec 2),
      let idle : Prop := s.lat.waiting = [] ∧ s.lat.halves = [] ∧ s.lat.busy = [];
      let legal (r : LatReq) : Prop := r.word.toNat < latWords ∧ reqClassOk r.req.toNat r.cls.val r.master.val = true;
      let issues (r : LatReq) : Prop := mayIssue s.phaseKind r.cls.val r.req.toNat = true;
      let copying : Prop := s.rd LAT_SPARE_COPY.ACTIVE = 1;
      let pend := s.pendBanks.filter (fun b => s.lat.copyHold != some b); let row := s.rd LAT_SPARE_COPY.ROW;
      let isFree (k : Nat) : Prop := s.rd (LAT_SPARE.STATE k) = 0; s.live = true ∧ s.rd LAT_SPARE_COPY.ACTIVE = 0 ∧ idle ∧
      legal r ∧ (¬issues r) ∧ ((∀ h ∈ s.lat.halves, h.bank ≠ bank.toNat)) ∧ s.lat.inflight = [] ∧ ((∀ f ∈ s.lat.fixes,
      f.pbank = p.val → f.written = true)) ∧ ((∀ f ∈ s.lat.fixes, f.pbank = p.val → f.written = false)) ∧ s.lat.ptabSel =
      none ∧ s.copyOf b.toNat = none ∧ (copying ∨ pend = []) ∧ (¬copying ∨ 12288 ≤ row) ∧ (¬copying ∨ row < 12288) ∧ s.rd
      SCH_STAT.STATE = schStopped ∧ (¬copying) ∧ isFree k ∧ st = 2#2 ∧ s.spareOf b.toNat = none) ∧
    (∃ (s : State) (r : LatReq) (k : Fin 8) (st : BitVec 2), let w := r.word.toNat;
      let idle : Prop := s.lat.waiting = [] ∧ s.lat.halves = [] ∧ s.lat.busy = [];
      let legal (r : LatReq) : Prop := r.word.toNat < latWords ∧ reqClassOk r.req.toNat r.cls.val r.master.val = true;
      let issues (r : LatReq) : Prop := mayIssue s.phaseKind r.cls.val r.req.toNat = true;
      let copying : Prop := s.rd LAT_SPARE_COPY.ACTIVE = 1; let isFree (k : Nat) : Prop := s.rd (LAT_SPARE.STATE k) = 0;
      s.soundWord w ∧ s.live = true ∧ s.rd LAT_SPARE_COPY.ACTIVE = 0 ∧ idle ∧ legal r ∧ issues r ∧ r.write = false ∧ s.rd
      SCH_STAT.STATE = schStopped ∧ (¬copying) ∧ isFree k ∧ st = 3#2) ∧
    (∃ (s : State) (r : LatReq), let w := r.word.toNat;
      let idle : Prop := s.lat.waiting = [] ∧ s.lat.halves = [] ∧ s.lat.busy = [];
      let legal (r : LatReq) : Prop := r.word.toNat < latWords ∧ reqClassOk r.req.toNat r.cls.val r.master.val = true;
      let issues (r : LatReq) : Prop := mayIssue s.phaseKind r.cls.val r.req.toNat = true; s.soundWord w ∧ s.live = true ∧
      s.rd LAT_SPARE_COPY.ACTIVE = 0 ∧ idle ∧ legal r ∧ issues r ∧ r.write = true ∧ r.mask.toNat = 2 ^ 256 - 1) ∧
    (∃ (s : State) (r : LatReq), let w := r.word.toNat;
      let idle : Prop := s.lat.waiting = [] ∧ s.lat.halves = [] ∧ s.lat.busy = [];
      let legal (r : LatReq) : Prop := r.word.toNat < latWords ∧ reqClassOk r.req.toNat r.cls.val r.master.val = true;
      let issues (r : LatReq) : Prop := mayIssue s.phaseKind r.cls.val r.req.toNat = true; s.soundWord w ∧ s.live = true ∧
      s.rd LAT_SPARE_COPY.ACTIVE = 0 ∧ idle ∧ legal r ∧ issues r ∧ latRmw r = true ∧ ((r.cls.val = 1 ∨ r.cls.val = 2))) ∧
    (∃ (s : State) (r : LatReq), let w := r.word.toNat;
      let idle : Prop := s.lat.waiting = [] ∧ s.lat.halves = [] ∧ s.lat.busy = [];
      let legal (r : LatReq) : Prop := r.word.toNat < latWords ∧ reqClassOk r.req.toNat r.cls.val r.master.val = true;
      let issues (r : LatReq) : Prop := mayIssue s.phaseKind r.cls.val r.req.toNat = true; s.soundWord w ∧ s.live = true ∧
      s.rd LAT_SPARE_COPY.ACTIVE = 0 ∧ idle ∧ legal r ∧ issues r ∧ latRmw r = true ∧ 4 ≤ r.cls.val) ∧
    (∃ (s : State) (r : LatReq) (x : LatReq), let w := r.word.toNat;
      let idle : Prop := s.lat.waiting = [] ∧ s.lat.halves = [] ∧ s.lat.busy = [];
      let legal (r : LatReq) : Prop := r.word.toNat < latWords ∧ reqClassOk r.req.toNat r.cls.val r.master.val = true;
      let issues (r : LatReq) : Prop := mayIssue s.phaseKind r.cls.val r.req.toNat = true; s.soundWord w ∧ s.soundWord
      x.word.toNat ∧ s.live = true ∧ s.rd LAT_SPARE_COPY.ACTIVE = 0 ∧ idle ∧ legal r ∧ legal x ∧ issues r ∧ issues x ∧
      r.write = false ∧ x.write = false ∧ latBank w = latBank x.word.toNat ∧ ((r.cls.val = 1 ∨ r.cls.val = 2)) ∧ ((x.cls.val
      = 1 ∨ x.cls.val = 2)) ∧ r.req ≠ x.req ∧ (r.grp = 0 ∨ r.grp ≠ x.grp)) :=
  ⟨⟨State.reset, ⟨4, 1, 0, 0, 0x2FFFFF, false, 0, 0, 0⟩, 255, 255, 255, 7, 2, by decide +kernel⟩,
    ⟨State.reset, ⟨0xF0, 0, 0, 0, 0x2FFFFF, false, 0, 0, 0⟩, 7, 3, by unfold State.soundWord State.sound; decide +kernel,
      by decide +kernel⟩,
    ⟨State.reset, ⟨0x30, 5, 0, 0, 0x2FFFFF, true, 0 - 1, 5, 0⟩, by unfold State.soundWord State.sound; decide +kernel,
      by decide +kernel⟩,
    ⟨(State.reset.wr (LAT_PTAB_LO.PHASES 0) 0), ⟨4, 1, 0, 0, 0x2FFFFF, true, 255, 5, 0⟩,
      by unfold State.soundWord State.sound; decide +kernel, by decide +kernel⟩,
    ⟨State.reset, ⟨0x30, 5, 0, 0, 0x2FFFFF, true, 255, 5, 0⟩, by unfold State.soundWord State.sound; decide +kernel,
      by decide +kernel⟩,
    ⟨(State.reset.wr (LAT_PTAB_LO.PHASES 0) 0), ⟨4, 1, 0, 0, 0x2FFFFF, false, 0, 0, 0⟩, ⟨12, 1, 0, 7, 0x2FFFFF, false, 0, 0,
      0⟩, by unfold State.soundWord State.sound; decide +kernel, by unfold State.soundWord State.sound; decide +kernel,
      by decide +kernel⟩⟩

/-- O39. -/
theorem meets_Lattice_2 :
    (∃ (s : State) (bank : BitVec 8) (h : _), s.soundWord h.r.word.toNat ∧ s.live = true ∧ s.rd LAT_SPARE_COPY.ACTIVE = 0 ∧
      s.lat.halves = [h] ∧ h.bank = bank.toNat ∧ s.lat.waiting = [] ∧ h.ue = 0 ∧ h.r.word.toNat < latWords) ∧
    (∃ (s : State) (d : _) (t : _), s.live = true ∧ s.rd LAT_SPARE_COPY.ACTIVE = 0 ∧ s.lat.inflight = d :: t) ∧
    (∃ (s : State) (p : Fin 264) (f : _), let at_ (f : LatFix) := latGran f.pbank f.row f.gran; s.sound (at_ f) ∧ s.live =
      true ∧ s.lat.fixes = [f] ∧ f.pbank = p.val ∧ f.written = false) ∧
    (∃ (s : State) (p : Fin 264) (f : _), let at_ (f : LatFix) := latGran f.pbank f.row f.gran; s.sound (at_ f) ∧ s.live =
      true ∧ s.lat.fixes = [f] ∧ f.pbank = p.val ∧ f.written = true) ∧
    (∃ (s : State) (p : Fin 264) (f : _), let at_ (f : LatFix) := latGran f.pbank f.row f.gran; s.live = true ∧ s.lat.fixes
      = [f] ∧ f.pbank = p.val ∧ f.written = true ∧ (s.gran (at_ f)).2 ≠ 0 ∧ p.val < 256 ∧ s.logBank p.val = some p.val ∧
      s.copyOf p.val = none) ∧
    (∃ (s : State), s.live = true ∧ s.rd LAT_CTL.SCRUB_EN = 0) :=
  ⟨⟨{ State.reset with lat.halves := [⟨latBank 0x2FFFFF, ⟨0x30, 5, 0, 0, 0x2FFFFF, true, 255, 9, 0⟩, 7, 0⟩] },
      (BitVec.ofNat 8 (latBank 0x2FFFFF)), ⟨latBank 0x2FFFFF, ⟨0x30, 5, 0, 0, 0x2FFFFF, true, 255, 9, 0⟩, 7, 0⟩,
      by unfold State.soundWord State.sound; decide +kernel, by decide +kernel⟩,
    ⟨{ State.reset with lat.inflight := [⟨40, 5, 3, 77, 0⟩] }, ⟨40, 5, 3, 77, 0⟩, [], by decide +kernel⟩,
    ⟨{ State.reset with lat.fixes := [⟨255, 12287, 3, 0, 7, false, false⟩] }, 255, ⟨255, 12287, 3, 0, 7, false, false⟩,
      by unfold State.sound; decide +kernel, by decide +kernel⟩,
    ⟨{ State.reset with lat.fixes := [⟨255, 12287, 3, 0, 7, false, true⟩] }, 255, ⟨255, 12287, 3, 0, 7, false, true⟩,
      by unfold State.sound; decide +kernel, by decide +kernel⟩,
    ⟨{ { State.reset with lat.fixes := [⟨255, 12287, 3, 0, 7, false, true⟩] } with syn := [(latGran 255 12287 3, 3)] }, 255,
      ⟨255, 12287, 3, 0, 7, false, true⟩, by decide +kernel⟩,
    ⟨(State.reset.wr LAT_CTL.SCRUB_EN 0), by decide +kernel⟩⟩

/-- O39. -/
theorem meets_Lattice_3 :
    (∃ (s : State), s.live = true ∧ s.rd LAT_CTL.SCRUB_EN = 1 ∧ s.untilOpen s.lat.scrubAt = none) ∧
    (∃ (s : State) (v : _), s.soundWord (s.rd LAT_SCRUB_PTR.PTR) ∧ s.live = true ∧ s.rd LAT_CTL.SCRUB_EN = 1 ∧ s.untilOpen
      s.lat.scrubAt = some v ∧ s.rd LAT_SCRUB_PTR.PTR + 1 < latWords) ∧
    (∃ (s : State) (t : _) (since : _) (v : _), s.live = true ∧ t < 4 ∧ s.lat.ptabSel = some (t, since) ∧ s.untilRc
      (fun d => s.phaseIn d == 0 && decide (since < s.sch.roundStart + 10 * (s.rcr + d))) = some v) ∧
    (∃ (s : State) (b : BitVec 8), let copying : Prop := s.rd LAT_SPARE_COPY.ACTIVE = 1; s.live = true ∧ s.copyOf b.toNat ≠
      none ∧ (s.rd SCH_STAT.STATE ≠ schStopped ∨ copying)) ∧
    (∃ (s : State) (b : BitVec 8) (k : Fin 8) (x : _) (rest : _), let copying : Prop := s.rd LAT_SPARE_COPY.ACTIVE = 1;
      let isFree (k : Nat) : Prop := s.rd (LAT_SPARE.STATE k) = 0;
      let pend := s.pendBanks.filter (fun b => s.lat.copyHold != some b); s.live = true ∧ (¬copying) ∧ pend = x :: rest ∧
      isFree k ∧ ((∀ j, j < k.val → ¬isFree j))) ∧
    (∃ (s : State) (k : Fin 8) (x : _), let copying : Prop := s.rd LAT_SPARE_COPY.ACTIVE = 1;
      let isFree (k : Nat) : Prop := s.rd (LAT_SPARE.STATE k) = 0; s.live = true ∧ (¬copying) ∧ s.lat.copyHold ≠ some x ∧
      s.pendBanks = [x] ∧ ((∀ j, j < 8 → ¬isFree j)) ∧ x ∉ s.lat.exhReported) :=
  ⟨⟨(((State.reset.wr LAT_CTL.SCRUB_EN 1).wr (LAT_PTAB_LO.PHASES 0) 0).wr (LAT_PTAB_HI.PHASES 0) 0), by decide +kernel⟩,
    ⟨(State.reset.wr LAT_CTL.SCRUB_EN 1), (State.reset.wr LAT_CTL.SCRUB_EN 1),
      by unfold State.soundWord State.sound; decide +kernel, by decide +kernel⟩,
    ⟨{ State.reset with lat.ptabSel := some (3, 0), time := 160 }, 3, 0,
      ({ State.reset with lat.ptabSel := some (3, 0), time := 160 }), by decide +kernel⟩,
    ⟨(State.reset.wr LAT_SPARE_COPY.ACTIVE 1), 0, by decide +kernel⟩,
    ⟨(State.reset.wr (LAT_SPARE_PEND.PEND 7) (2 ^ 31)), 255, 0, 255, [], by decide +kernel⟩,
    ⟨(((((((((State.reset.wr (LAT_SPARE_PEND.PEND 7) (2 ^ 31)).wr (LAT_SPARE.STATE 0) 3).wr (LAT_SPARE.STATE 1) 3).wr
      (LAT_SPARE.STATE 2) 3).wr (LAT_SPARE.STATE 3) 3).wr (LAT_SPARE.STATE 4) 3).wr (LAT_SPARE.STATE 5) 3).wr
      (LAT_SPARE.STATE 6) 3).wr (LAT_SPARE.STATE 7) 3), 7, 255, by decide +kernel⟩⟩

/-- O39. -/
theorem meets_Lattice_4 :
    (∃ (s : State), let copying : Prop := s.rd LAT_SPARE_COPY.ACTIVE = 1; let row := s.rd LAT_SPARE_COPY.ROW; s.live = true
      ∧ copying ∧ row < 12288 ∧ s.untilOpen s.lat.copyAt = none) ∧
    (∃ (s : State) (v : _), let copying : Prop := s.rd LAT_SPARE_COPY.ACTIVE = 1; let lb := s.rd LAT_SPARE_COPY.LBANK;
      let row := s.rd LAT_SPARE_COPY.ROW; let spare := s.rd LAT_SPARE_COPY.SPARE; ((∀ g, g < 4 → s.sound (latGran
      (s.physBank lb) row g) ∧ s.sound (latGran (256 + spare) row g))) ∧ s.live = true ∧ copying ∧ row < 12288 ∧ s.untilOpen
      s.lat.copyAt = some v ∧ s.physBank lb ≠ 256 + spare) ∧
    (∃ (s : State), let copying : Prop := s.rd LAT_SPARE_COPY.ACTIVE = 1; let lb := s.rd LAT_SPARE_COPY.LBANK;
      let row := s.rd LAT_SPARE_COPY.ROW; s.live = true ∧ copying ∧ 12288 ≤ row ∧ s.spareOf lb = none) ∧
    (∃ (s : State) (k : Fin 8) (st : BitVec 2), let copying : Prop := s.rd LAT_SPARE_COPY.ACTIVE = 1; s.live = true ∧ s.rd
      SCH_STAT.STATE = schStopped ∧ (¬copying) ∧ s.rd (LAT_SPARE.STATE k) = 3 ∧ st = 0#2) :=
  ⟨⟨((((State.reset.wr LAT_SPARE_COPY.ACTIVE 1).wr LAT_SPARE_COPY.SPARE 7).wr (LAT_PTAB_LO.PHASES 0) 0).wr
      (LAT_PTAB_HI.PHASES 0) 0), by decide +kernel⟩,
    ⟨((State.reset.wr LAT_SPARE_COPY.ACTIVE 1).wr LAT_SPARE_COPY.SPARE 7), ((State.reset.wr LAT_SPARE_COPY.ACTIVE 1).wr
      LAT_SPARE_COPY.SPARE 7), by unfold State.sound; decide +kernel, by decide +kernel⟩,
    ⟨((State.reset.wr LAT_SPARE_COPY.ACTIVE 1).wr LAT_SPARE_COPY.ROW 12288), by decide +kernel⟩,
    ⟨(State.reset.wr (LAT_SPARE.STATE 7) 3), 7, 0, by decide +kernel⟩⟩

/-- O40. -/
theorem meets_RibbonRuns_1 :
    (∃ (s : State) (chain : BitVec 12) (r : RibRun) (w : Fin 2) (diff : List StrandDiff), let n := chain.toNat;
      let is (ph : RunPhase) : Prop := s.rib.runs = [r] ∧ r.chain = n ∧ r.phase = ph ∧ strandList r.strands ≠ [];
      let none_ (ph : RunPhase) : Prop := ∀ x ∈ s.rib.runs, x.chain = n → x.phase ≠ ph;
      let write := exec (.streamWrite chain w diff) s;
      let never (write : Bool) : Prop := s.untilPhase (fun k => mayIssue k (r.cls write) 0) = none;
      let mine (x : Nat × Nat × Nat × List Byte) : Bool := x.2.1 == 2 * n + w.val; s.live = true ∧ s.sch.held = none ∧ s.rd
      LAT_SPARE_COPY.ACTIVE = 0 ∧ (none_ .launched ∨ (is .launched ∧ never false)) ∧ (none_ .table ∨ (is .table ∧ never
      false)) ∧ none_ .running ∧ ((∀ x ∈ s.que.inbuf, mine x = false)) ∧ (none_ .stopping ∨ (is .stopping ∧ ∀ m ∈ r.qlast,
      m.1 ≠ w.val))) ∧
    (∃ (s : State) (v : State) (chain : BitVec 12) (r : RibRun) (w : Fin 2) (diff : List StrandDiff) (dec : List StrandDec),
      let n := chain.toNat;
      let is (ph : RunPhase) : Prop := s.rib.runs = [r] ∧ r.chain = n ∧ r.phase = ph ∧ strandList r.strands ≠ [];
      let d := s.peekDesc n; let desc : Prop := ∀ i, i < 8 → s.soundWord (8 * n + i);
      let write := exec (.streamWrite chain w diff) s;
      let turn (write : Bool) : Prop := s.untilPhase (fun k => mayIssue k (r.cls write) 0) = some v; desc ∧ s.live = true ∧
      s.sch.held = none ∧ s.rd LAT_SPARE_COPY.ACTIVE = 0 ∧ is .launched ∧ turn false ∧ r.entry = none ∧ dec = [] ∧ descOk d
      r.soft = false) ∧
    (∃ (s : State) (v : State) (chain : BitVec 12) (r : RibRun) (w : Fin 2) (diff : List StrandDiff) (dec : List StrandDec)
      (x : _), let n := chain.toNat;
      let is (ph : RunPhase) : Prop := s.rib.runs = [r] ∧ r.chain = n ∧ r.phase = ph ∧ strandList r.strands ≠ [];
      let desc : Prop := ∀ i, i < 8 → s.soundWord (8 * n + i); let write := exec (.streamWrite chain w diff) s;
      let turn (write : Bool) : Prop := s.untilPhase (fun k => mayIssue k (r.cls write) 0) = some v; desc ∧ s.live = true ∧
      s.sch.held = none ∧ s.rd LAT_SPARE_COPY.ACTIVE = 0 ∧ is .launched ∧ turn false ∧ r.entry = none ∧ dec = [x] ∧ x.bad =
      true ∧ bitb r.strands x.strand = true ∧ x.word < 8) ∧
    (∃ (s : State) (v : State) (chain : BitVec 12) (r : RibRun) (port : Fin 4) (w : Fin 2) (diff : List StrandDiff) (dec :
      List StrandDec), let n := chain.toNat;
      let is (ph : RunPhase) : Prop := s.rib.runs = [r] ∧ r.chain = n ∧ r.phase = ph ∧ strandList r.strands ≠ [];
      let d := s.peekDesc n; let desc : Prop := ∀ i, i < 8 → s.soundWord (8 * n + i); let p := port.val;
      let caps := (upto 6).map (fun p => s.cctEntry (16 * dCwin d + slCidx d p));
      let checks (p : Nat) : Prop := slMode d p = modeOff ∨ s.streamCheck d p (caps.getD p Cap.null) = none;
      let write := exec (.streamWrite chain w diff) s;
      let turn (write : Bool) : Prop := s.untilPhase (fun k => mayIssue k (r.cls write) 0) = some v; desc ∧ s.live = true ∧
      s.sch.held = none ∧ s.rd LAT_SPARE_COPY.ACTIVE = 0 ∧ is .launched ∧ turn false ∧ dec = [] ∧ descOk d r.soft = true ∧
      ((∀ q, q < 6 → checks q)) ∧ dRidx d ≠ dLength d) ∧
    (∃ (s : State) (v : State) (chain : BitVec 12) (r : RibRun) (port : Fin 4) (w : Fin 2) (diff : List StrandDiff) (dec :
      List StrandDec) (q : _) (c : _), let n := chain.toNat;
      let is (ph : RunPhase) : Prop := s.rib.runs = [r] ∧ r.chain = n ∧ r.phase = ph ∧ strandList r.strands ≠ [];
      let d := s.peekDesc n; let desc : Prop := ∀ i, i < 8 → s.soundWord (8 * n + i); let p := port.val;
      let caps := (upto 6).map (fun p => s.cctEntry (16 * dCwin d + slCidx d p));
      let checks (p : Nat) : Prop := slMode d p = modeOff ∨ s.streamCheck d p (caps.getD p Cap.null) = none;
      let write := exec (.streamWrite chain w diff) s;
      let turn (write : Bool) : Prop := s.untilPhase (fun k => mayIssue k (r.cls write) 0) = some v; desc ∧ s.live = true ∧
      s.sch.held = none ∧ s.rd LAT_SPARE_COPY.ACTIVE = 0 ∧ is .launched ∧ turn false ∧ dec = [] ∧ descOk d r.soft = true ∧ q
      < 6 ∧ slMode d q ≠ modeOff ∧ s.streamCheck d q (caps.getD q Cap.null) = some c ∧ ((∀ j, j < q → checks j))) ∧
    (∃ (s : State) (v : State) (chain : BitVec 12) (r : RibRun) (w : Fin 2) (diff : List StrandDiff) (dec : List StrandDec),
      let n := chain.toNat;
      let is (ph : RunPhase) : Prop := s.rib.runs = [r] ∧ r.chain = n ∧ r.phase = ph ∧ strandList r.strands ≠ [];
      let write := exec (.streamWrite chain w diff) s;
      let turn (write : Bool) : Prop := s.untilPhase (fun k => mayIssue k (r.cls write) 0) = some v; s.live = true ∧
      s.sch.held = none ∧ s.rd LAT_SPARE_COPY.ACTIVE = 0 ∧ is .table ∧ turn false ∧ slCols r.desc 3 = 0 ∧ dec = []) :=
  ⟨⟨State.reset, 4095, (RibRun.launch 4095 1 true none false), 0, [], by decide +kernel⟩,
    ⟨(wRib (wDescr 0 0 1 0 1) [RibRun.launch 4095 1 true none false] State.reset), (wRib (wDescr 0 0 1 0 1) [RibRun.launch
      4095 1 true none false] State.reset), 4095, (RibRun.launch 4095 1 true none false), 0, [], [],
      fun _ _ => clean_word (by decide +kernel) _, by decide +kernel⟩,
    ⟨(wRib (wDescr 1 0 1 0 1) [RibRun.launch 4095 1 true none false] State.reset), (wRib (wDescr 1 0 1 0 1) [RibRun.launch
      4095 1 true none false] State.reset), 4095, (RibRun.launch 4095 1 true none false), 0, [], [⟨0, 7, 3, true⟩], ⟨0, 7,
      3, true⟩, fun _ _ => clean_word (by decide +kernel) _, by decide +kernel⟩,
    ⟨(wRib (wDescr 1 0 1 0 1) [RibRun.launch 4095 1 true none false] State.reset), (wRib (wDescr 1 0 1 0 1) [RibRun.launch
      4095 1 true none false] State.reset), 4095, (RibRun.launch 4095 1 true none false), 0, 0, [], [],
      fun _ _ => clean_word (by decide +kernel) _, by decide +kernel⟩,
    ⟨{ wRib (wDescr 1 0 1 0 1) [RibRun.launch 4095 1 true none false] State.reset with rib.cct0 := [] },
      ({ wRib (wDescr 1 0 1 0 1) [RibRun.launch 4095 1 true none false] State.reset with rib.cct0 := [] }), 4095,
      (RibRun.launch 4095 1 true none false), 0, 0, [], [], 0, 1,
      fun _ _ => clean_word (by decide +kernel) _, by decide +kernel⟩,
    ⟨(wRib (wDescr 1 0 1 0 1) [{ wRunning (wDescr 1 0 1 0 1) 1 false with phase := .table }] State.reset), (wRib (wDescr 1 0
      1 0 1) [{ wRunning (wDescr 1 0 1 0 1) 1 false with phase := .table }] State.reset), 4095,
      ({ wRunning (wDescr 1 0 1 0 1) 1 false with phase := .table }), 0, [], [], by decide +kernel⟩⟩

/-- O40. -/
theorem meets_RibbonRuns_2 :
    (∃ (s : State) (chain : BitVec 12) (r : RibRun) (port : Fin 4) (w : Fin 2) (diff : List StrandDiff),
      let n := chain.toNat;
      let is (ph : RunPhase) : Prop := s.rib.runs = [r] ∧ r.chain = n ∧ r.phase = ph ∧ strandList r.strands ≠ [];
      let p := port.val; let write := exec (.streamWrite chain w diff) s;
      let never (write : Bool) : Prop := s.untilPhase (fun k => mayIssue k (r.cls write) 0) = none; s.live = true ∧
      s.sch.held = none ∧ s.rd LAT_SPARE_COPY.ACTIVE = 0 ∧ is .running ∧ (r.mayPresent p = false ∨ r.waitsFor p = true ∨
      never false)) ∧
    (∃ (s : State) (v : State) (chain : BitVec 12) (r : RibRun) (port : Fin 4) (w : Fin 2) (diff : List StrandDiff) (dec :
      List StrandDec), let n := chain.toNat;
      let is (ph : RunPhase) : Prop := s.rib.runs = [r] ∧ r.chain = n ∧ r.phase = ph ∧ strandList r.strands ≠ [];
      let p := port.val; let e := slEt r.desc p; let at_ (k : Nat) : Nat := r.beatPos (r.nextUnit p).1 + k;
      let a (k : Nat) : Int := slAddr r.desc p (at_ k);
      let inside (k : Nat) : Prop := dRidx r.desc ≤ at_ k ∧ at_ k < dLength r.desc;
      let write := exec (.streamWrite chain w diff) s;
      let turn (write : Bool) : Prop := s.untilPhase (fun k => mayIssue k (r.cls write) 0) = some v;
      let still : Prop := r.preempt = false ∧ (dLength r.desc ≤ r.beatPos r.beat ∨ ∃ q, q < 4 ∧ r.needs q = true); ((∀ k, k
      < dN r.desc → inside k → elemOk (r.caps.getD p Cap.null) (a k) (elemSz e) = true ∧ s.soundWord ((a k).toNat / 32))) ∧
      s.live = true ∧ s.sch.held = none ∧ s.rd LAT_SPARE_COPY.ACTIVE = 0 ∧ is .running ∧ still ∧ turn false ∧ r.mayPresent p
      = true ∧ r.waitsFor p = false ∧ r.beats = [] ∧ r.beatPos r.done.beat < dLength r.desc ∧ ((∃ q, q < 4 ∧ q ≠ p ∧ r.needs
      q = true)) ∧ slMode r.desc p = modeLinear ∧ etMask e = false ∧ dWire r.desc 15 = 0 ∧ dec = []) ∧
    (∃ (s : State) (chain : BitVec 12) (r : RibRun) (w : Fin 2) (diff : List StrandDiff), let n := chain.toNat;
      let is (ph : RunPhase) : Prop := s.rib.runs = [r] ∧ r.chain = n ∧ r.phase = ph ∧ strandList r.strands ≠ [];
      let write := exec (.streamWrite chain w diff) s;
      let never (write : Bool) : Prop := s.untilPhase (fun k => mayIssue k (r.cls write) 0) = none; s.live = true ∧
      s.sch.held = none ∧ s.rd LAT_SPARE_COPY.ACTIVE = 0 ∧ is .running ∧ ((∀ b ∈ r.beats, w.val ∉ b.left) ∨ never true)) ∧
    (∃ (s : State) (v : State) (chain : BitVec 12) (r : RibRun) (w : Fin 2) (diff : List StrandDiff) (b : _),
      let n := chain.toNat;
      let is (ph : RunPhase) : Prop := s.rib.runs = [r] ∧ r.chain = n ∧ r.phase = ph ∧ strandList r.strands ≠ [];
      let write := exec (.streamWrite chain w diff) s;
      let turn (write : Bool) : Prop := s.untilPhase (fun k => mayIssue k (r.cls write) 0) = some v;
      let still : Prop := r.preempt = false ∧ (dLength r.desc ≤ r.beatPos r.beat ∨ ∃ q, q < 4 ∧ r.needs q = true); s.live =
      true ∧ s.sch.held = none ∧ s.rd LAT_SPARE_COPY.ACTIVE = 0 ∧ is .running ∧ turn true ∧ still ∧ r.beats = [b] ∧ w.val ∈
      b.left ∧ b.left.erase w.val ≠ []) ∧
    (∃ (s : State) (v : State) (chain : BitVec 12) (r : RibRun) (w : Fin 2) (diff : List StrandDiff) (b : _) (i : _) (j : _)
      (x : _), let n := chain.toNat;
      let is (ph : RunPhase) : Prop := s.rib.runs = [r] ∧ r.chain = n ∧ r.phase = ph ∧ strandList r.strands ≠ [];
      let sl := 4 + w.val; let et := slEt r.desc sl; let write := exec (.streamWrite chain w diff) s;
      let turn (write : Bool) : Prop := s.untilPhase (fun k => mayIssue k (r.cls write) 0) = some v;
      let still : Prop := r.preempt = false ∧ (dLength r.desc ≤ r.beatPos r.beat ∨ ∃ q, q < 4 ∧ r.needs q = true);
      let writes (b : RibBeat) : Prop := is .running ∧ turn true ∧ still ∧ r.beats = [b] ∧ b.left = [w.val] ∧ b.decs = [] ∧ slMode r.desc (5 - w.val) = modeOff;
      let dst := (slAddr r.desc sl i).toNat; s.soundWord (dst / 32) ∧ s.live = true ∧ s.sch.held = none ∧ s.rd
      LAT_SPARE_COPY.ACTIVE = 0 ∧ writes b ∧ diff = [] ∧ b.items.getD w.val [] = [(i, j, x)] ∧ slMode r.desc sl ≠ modeOff ∧
      slMode r.desc sl ≠ modeQsink ∧ etMask et = false ∧ s.lat.halves = [] ∧ dst % 32 + elemSz et ≤ 32 ∧ dst + elemSz et ≤
      0x6000000) ∧
    (∃ (s : State) (v : State) (chain : BitVec 12) (r : RibRun) (w : Fin 2) (diff : List StrandDiff) (b : _) (x : _) (rest :
      _), let n := chain.toNat;
      let is (ph : RunPhase) : Prop := s.rib.runs = [r] ∧ r.chain = n ∧ r.phase = ph ∧ strandList r.strands ≠ [];
      let write := exec (.streamWrite chain w diff) s;
      let turn (write : Bool) : Prop := s.untilPhase (fun k => mayIssue k (r.cls write) 0) = some v;
      let still : Prop := r.preempt = false ∧ (dLength r.desc ≤ r.beatPos r.beat ∨ ∃ q, q < 4 ∧ r.needs q = true);
      let writes (b : RibBeat) : Prop := is .running ∧ turn true ∧ still ∧ r.beats = [b] ∧ b.left = [w.val] ∧ b.decs = [] ∧ slMode r.desc (5 - w.val) = modeOff;
      let pair : Prop := strandList r.strands = [0, 1]; s.live = true ∧ s.sch.held = none ∧ s.rd LAT_SPARE_COPY.ACTIVE = 0 ∧
      writes b ∧ pair ∧ b.diffs.length = 2 ∧ r.proposals b w.val = x :: rest ∧ proposalOf x diff 0 0 ≠ proposalOf x diff 1 0
      ∧ r.mmSent = 0 ∧ r.retry = false) :=
  ⟨⟨(wRib (wDescr 1 0 1 0 1) [(wRunning (wDescr 1 0 1 0 1) 1 true)] State.reset), 4095, (wRunning (wDescr 1 0 1 0 1) 1
      true), 0, 0, [], by decide +kernel⟩,
    ⟨(wRib (wDescr 1 1 64 0 1) [(wRunning (wDescr 1 1 64 0 1) 1 false)] State.reset), (wRib (wDescr 1 1 64 0 1) [(wRunning
      (wDescr 1 1 64 0 1) 1 false)] State.reset), 4095, (wRunning (wDescr 1 1 64 0 1) 1 false), 0, 0, [], [],
      by unfold State.soundWord State.sound; decide +kernel, by decide +kernel⟩,
    ⟨(wRib (wDescr 1 0 1 0 1) [(wRunning (wDescr 1 0 1 0 1) 1 false)] State.reset), 4095, (wRunning (wDescr 1 0 1 0 1) 1
      false), 0, [], by decide +kernel⟩,
    ⟨(wRib (wDescr 1 0 1 0 2)
      [{ wRunning (wDescr 1 0 1 0 2) 1 false with beat := 1, beats := [⟨0, [], false, 0, 0, 0, [0, 1], [[(0, 0, 7)], []], [[], []]⟩] }]
      State.reset), (wRib (wDescr 1 0 1 0 2)
      [{ wRunning (wDescr 1 0 1 0 2) 1 false with beat := 1, beats := [⟨0, [], false, 0, 0, 0, [0, 1], [[(0, 0, 7)], []], [[], []]⟩] }]
      State.reset), 4095,
      ({ wRunning (wDescr 1 0 1 0 2) 1 false with beat := 1, beats := [⟨0, [], false, 0, 0, 0, [0, 1], [[(0, 0, 7)], []], [[], []]⟩] }),
      0, [], ⟨0, [], false, 0, 0, 0, [0, 1], [[(0, 0, 7)], []], [[], []]⟩, by decide +kernel⟩,
    ⟨(wRib (wDescr 1 0 1 0 1)
      [{ wRunning (wDescr 1 0 1 0 1) 1 false with beat := 1, beats := [⟨0, [], false, 0, 0, 0, [0], [[(0, 0, 7)], []], [[], []]⟩] }]
      State.reset), (wRib (wDescr 1 0 1 0 1)
      [{ wRunning (wDescr 1 0 1 0 1) 1 false with beat := 1, beats := [⟨0, [], false, 0, 0, 0, [0], [[(0, 0, 7)], []], [[], []]⟩] }]
      State.reset), 4095,
      ({ wRunning (wDescr 1 0 1 0 1) 1 false with beat := 1, beats := [⟨0, [], false, 0, 0, 0, [0], [[(0, 0, 7)], []], [[], []]⟩] }),
      0, [], ⟨0, [], false, 0, 0, 0, [0], [[(0, 0, 7)], []], [[], []]⟩, 0, 0, 7,
      by unfold State.soundWord State.sound; decide +kernel, by decide +kernel⟩,
    ⟨(wRib (wDescr 1 0 1 0 1)
      [{ wRunning (wDescr 1 0 1 0 1) 3 false with beat := 1, beats := [⟨0, [], false, 0, 0, 0, [0], [[(0, 0, 7)], []], [[], []]⟩] }]
      State.reset), (wRib (wDescr 1 0 1 0 1)
      [{ wRunning (wDescr 1 0 1 0 1) 3 false with beat := 1, beats := [⟨0, [], false, 0, 0, 0, [0], [[(0, 0, 7)], []], [[], []]⟩] }]
      State.reset), 4095,
      ({ wRunning (wDescr 1 0 1 0 1) 3 false with beat := 1, beats := [⟨0, [], false, 0, 0, 0, [0], [[(0, 0, 7)], []], [[], []]⟩] }),
      0, [⟨0, 0, 0, 0, 1⟩], ⟨0, [], false, 0, 0, 0, [0], [[(0, 0, 7)], []], [[], []]⟩, ⟨65536, 65535, 7⟩, [],
      by decide +kernel⟩⟩

/-- O40. -/
theorem meets_RibbonRuns_3 :
    (∃ (s : State) (v : State) (chain : BitVec 12) (r : RibRun) (w : Fin 2) (diff : List StrandDiff) (b : _),
      let n := chain.toNat;
      let is (ph : RunPhase) : Prop := s.rib.runs = [r] ∧ r.chain = n ∧ r.phase = ph ∧ strandList r.strands ≠ [];
      let sl := 4 + w.val; let et := slEt r.desc sl; let write := exec (.streamWrite chain w diff) s;
      let turn (write : Bool) : Prop := s.untilPhase (fun k => mayIssue k (r.cls write) 0) = some v;
      let still : Prop := r.preempt = false ∧ (dLength r.desc ≤ r.beatPos r.beat ∨ ∃ q, q < 4 ∧ r.needs q = true);
      let writes (b : RibBeat) : Prop := is .running ∧ turn true ∧ still ∧ r.beats = [b] ∧ b.left = [w.val] ∧ b.decs = [] ∧ slMode r.desc (5 - w.val) = modeOff;
      s.live = true ∧ s.sch.held = none ∧ s.rd LAT_SPARE_COPY.ACTIVE = 0 ∧ writes b ∧ diff = [] ∧ slMode r.desc sl =
      modeQsink ∧ etMask et = false ∧ s.bufRoom r.lane (r.packs b w.val).1.length = true) ∧
    (∃ (s : State) (chain : BitVec 12) (r : RibRun) (w : Fin 2) (diff : List StrandDiff), let n := chain.toNat;
      let is (ph : RunPhase) : Prop := s.rib.runs = [r] ∧ r.chain = n ∧ r.phase = ph ∧ strandList r.strands ≠ [];
      let none_ (ph : RunPhase) : Prop := ∀ x ∈ s.rib.runs, x.chain = n → x.phase ≠ ph;
      let write := exec (.streamWrite chain w diff) s;
      let never (write : Bool) : Prop := s.untilPhase (fun k => mayIssue k (r.cls write) 0) = none; s.live = true ∧
      s.sch.held = none ∧ s.rd LAT_SPARE_COPY.ACTIVE = 0 ∧ (none_ .stopping ∨ (is .stopping ∧ (r.qlast ≠ [] ∨ never true)))) ∧
    (∃ (s : State) (v : State) (chain : BitVec 12) (r : RibRun) (w : Fin 2) (diff : List StrandDiff), let n := chain.toNat;
      let is (ph : RunPhase) : Prop := s.rib.runs = [r] ∧ r.chain = n ∧ r.phase = ph ∧ strandList r.strands ≠ [];
      let write := exec (.streamWrite chain w diff) s;
      let turn (write : Bool) : Prop := s.untilPhase (fun k => mayIssue k (r.cls write) 0) = some v;
      let stopped : Prop := is .stopping ∧ turn true ∧ r.qlast = [] ∧ r.entry = none ∧ r.holds = true; s.soundWord (8 * n +
      1) ∧ s.live = true ∧ s.sch.held = none ∧ s.rd LAT_SPARE_COPY.ACTIVE = 0 ∧ stopped ∧ diff = [] ∧ (r.stop.end_ = 1 ∨
      r.stop.end_ = 2)) ∧
    (∃ (s : State) (v : State) (chain : BitVec 12) (r : RibRun) (w : Fin 2) (diff : List StrandDiff), let n := chain.toNat;
      let is (ph : RunPhase) : Prop := s.rib.runs = [r] ∧ r.chain = n ∧ r.phase = ph ∧ strandList r.strands ≠ [];
      let write := exec (.streamWrite chain w diff) s;
      let turn (write : Bool) : Prop := s.untilPhase (fun k => mayIssue k (r.cls write) 0) = some v;
      let pair : Prop := strandList r.strands = [0, 1];
      let stopped : Prop := is .stopping ∧ turn true ∧ r.qlast = [] ∧ r.entry = none ∧ r.holds = true; s.live = true ∧
      s.sch.held = none ∧ s.rd LAT_SPARE_COPY.ACTIVE = 0 ∧ stopped ∧ pair ∧ wbDiff diff 0 ≠ wbDiff diff 1 ∧ r.retry = false
      ∧ r.mmSent = 0) ∧
    (∃ (s : State) (chain : BitVec 12) (w : Fin 2) (x : _), let n := chain.toNat;
      let none_ (ph : RunPhase) : Prop := ∀ x ∈ s.rib.runs, x.chain = n → x.phase ≠ ph;
      let mine (x : Nat × Nat × Nat × List Byte) : Bool := x.2.1 == 2 * n + w.val; let off : Prop := s.rd QUE_CTL.EN = 0;
      s.live = true ∧ s.sch.held = none ∧ s.rd LAT_SPARE_COPY.ACTIVE = 0 ∧ s.que.inbuf.find? mine = some x ∧ none_ .running
      ∧ off) ∧
    (∃ (s : State) (chain : BitVec 12) (r : RibRun) (w : Fin 2) (diff : List StrandDiff) (bs : _), let n := chain.toNat;
      let is (ph : RunPhase) : Prop := s.rib.runs = [r] ∧ r.chain = n ∧ r.phase = ph ∧ strandList r.strands ≠ [];
      let mine (x : Nat × Nat × Nat × List Byte) : Bool := x.2.1 == 2 * n + w.val; let off : Prop := s.rd QUE_CTL.EN = 0;
      s.live = true ∧ s.sch.held = none ∧ s.rd LAT_SPARE_COPY.ACTIVE = 0 ∧ ((∀ x ∈ s.que.inbuf, mine x = false)) ∧ is
      .stopping ∧ r.qlast = [(w.val, bs)] ∧ bs.length = 64 ∧ diff = [] ∧ off) :=
  ⟨⟨(wRib (wDescr 1 0 1 0 1 + 5 * 2 ^ (8 * 0xC0))
      [{ wRunning (wDescr 1 0 1 0 1 + 5 * 2 ^ (8 * 0xC0)) 1 false with beat := 1, beats := [⟨0, [], false, 0, 0, 0, [0], [[(0, 0, 7)], []], [[], []]⟩] }]
      State.reset), (wRib (wDescr 1 0 1 0 1 + 5 * 2 ^ (8 * 0xC0))
      [{ wRunning (wDescr 1 0 1 0 1 + 5 * 2 ^ (8 * 0xC0)) 1 false with beat := 1, beats := [⟨0, [], false, 0, 0, 0, [0], [[(0, 0, 7)], []], [[], []]⟩] }]
      State.reset), 4095,
      ({ wRunning (wDescr 1 0 1 0 1 + 5 * 2 ^ (8 * 0xC0)) 1 false with beat := 1, beats := [⟨0, [], false, 0, 0, 0, [0], [[(0, 0, 7)], []], [[], []]⟩] }),
      0, [], ⟨0, [], false, 0, 0, 0, [0], [[(0, 0, 7)], []], [[], []]⟩, by decide +kernel⟩,
    ⟨(wRib (wDescr 1 0 1 0 1)
      [{ wRunning (wDescr 1 0 1 0 1) 1 true with phase := .stopping, qlast := [(0, List.replicate 64 7)], stop := ⟨1, 1, 2, 3, 4, 0, 5, 1⟩ }]
      State.reset), 4095,
      ({ wRunning (wDescr 1 0 1 0 1) 1 true with phase := .stopping, qlast := [(0, List.replicate 64 7)], stop := ⟨1, 1, 2, 3, 4, 0, 5, 1⟩ }),
      0, [], by decide +kernel⟩,
    ⟨(wRib (wDescr 1 0 1 0 1)
      [{ wRunning (wDescr 1 0 1 0 1) 1 true with phase := .stopping, qlast := [], stop := ⟨2, 1, 2, 3, 4, 0, 5, 1⟩ }]
      State.reset), (wRib (wDescr 1 0 1 0 1)
      [{ wRunning (wDescr 1 0 1 0 1) 1 true with phase := .stopping, qlast := [], stop := ⟨2, 1, 2, 3, 4, 0, 5, 1⟩ }]
      State.reset), 4095,
      ({ wRunning (wDescr 1 0 1 0 1) 1 true with phase := .stopping, qlast := [], stop := ⟨2, 1, 2, 3, 4, 0, 5, 1⟩ }), 0,
      [], by unfold State.soundWord State.sound; decide +kernel, by decide +kernel⟩,
    ⟨(wRib (wDescr 1 0 1 0 1)
      [{ wRunning (wDescr 1 0 1 0 1) 3 true with phase := .stopping, qlast := [], stop := ⟨1, 1, 2, 3, 4, 0, 5, 1⟩ }]
      State.reset), (wRib (wDescr 1 0 1 0 1)
      [{ wRunning (wDescr 1 0 1 0 1) 3 true with phase := .stopping, qlast := [], stop := ⟨1, 1, 2, 3, 4, 0, 5, 1⟩ }]
      State.reset), 4095,
      ({ wRunning (wDescr 1 0 1 0 1) 3 true with phase := .stopping, qlast := [], stop := ⟨1, 1, 2, 3, 4, 0, 5, 1⟩ }), 0,
      [⟨0, 0, 0, 0, 1⟩], by decide +kernel⟩,
    ⟨{ State.reset with que.inbuf := [(0, 8190, 1, List.replicate 64 7)] }, 4095, 0, (0, 8190, 1, List.replicate 64 7),
      by decide +kernel⟩,
    ⟨(wRib (wDescr 1 0 1 0 1 + 5 * 2 ^ (8 * 0xC0))
      [{ wRunning (wDescr 1 0 1 0 1 + 5 * 2 ^ (8 * 0xC0)) 1 true with phase := .stopping, qlast := [(0, List.replicate 64 7)], stop := ⟨1, 1, 2, 3, 4, 0, 5, 1⟩ }]
      State.reset), 4095,
      ({ wRunning (wDescr 1 0 1 0 1 + 5 * 2 ^ (8 * 0xC0)) 1 true with phase := .stopping, qlast := [(0, List.replicate 64 7)], stop := ⟨1, 1, 2, 3, 4, 0, 5, 1⟩ }),
      0, [], (List.replicate 64 7), by decide +kernel⟩⟩

/-- O41. -/
theorem meets_RibbonTables :
    (∃ (s : State), let base := s.cctBase;
      let may : Prop := inBulk base 16384 = true ∧ s.rd RIB_CCT_CTL.BUSY = 0 ∧ s.rd RIB_CCT_CTL.CPEND = 0; may) ∧
    (∃ (s : State) (v : BitVec 32), let base := s.cctBase;
      let may : Prop := inBulk base 16384 = true ∧ s.rd RIB_CCT_CTL.BUSY = 0 ∧ s.rd RIB_CCT_CTL.CPEND = 0;
      let sp (i : Nat) : Nat := bits v.toNat (8 * i + 7) (8 * i);
      let clash : Prop := ∃ i j, i < j ∧ j < 4 ∧ bitb (sp i) 7 = true ∧ bitb (sp j) 7 = true ∧ sp i % 64 = sp j % 64;
      (¬clash) ∧ (¬may) ∧ s.live = true ∧ s.rd RIB_CCT_CTL.BUSY = 0 ∧ s.rd RIB_CCT_CTL.CPEND = 0 ∧ s.rib.done = [] ∧ s.rd
      SCH_STAT.STATE = schStopped) ∧
    (∃ (s : State), let base := s.cctBase; ((∀ g, base / 8 ≤ g → g < base / 8 + 2048 → s.sound g)) ∧ s.live = true ∧ s.rd
      RIB_CCT_CTL.BUSY = 1 ∧ inBulk base 16384 = true ∧ s.bulk.redir = []) ∧
    (∃ (s : State), s.rd RIB_CCT_CTL.CPEND = 1) ∧
    (∃ (s : State) (c : _) (t : _), s.rib.done = c :: t) ∧
    (∃ (s : State) (v : BitVec 32), let sp (i : Nat) : Nat := bits v.toNat (8 * i + 7) (8 * i);
      let clash : Prop := ∃ i j, i < j ∧ j < 4 ∧ bitb (sp i) 7 = true ∧ bitb (sp j) 7 = true ∧ sp i % 64 = sp j % 64; (s.rd
      SCH_STAT.STATE ≠ schStopped ∨ clash)) :=
  ⟨⟨((State.reset.wr RIB_CCT_BASE_HI.ADDR_HI 8)), by decide +kernel⟩,
    ⟨State.reset, 1,
      fun ⟨i, j, x, y, h⟩ => (by decide +kernel : ∀ j, j < 4 → ∀ i, i < j → ¬(bitb (bits (1 : BitVec 32).toNat (8 * i + 7) (8 * i)) 7 = true ∧ bitb (bits (1 : BitVec 32).toNat (8 * j + 7) (8 * j)) 7 = true ∧ bits (1 : BitVec 32).toNat (8 * i + 7) (8 * i) % 64 = bits (1 : BitVec 32).toNat (8 * j + 7) (8 * j) % 64)) j y i x h, by decide +kernel⟩,
    ⟨(((State.reset.wr RIB_CCT_CTL.BUSY 1).wr RIB_CCT_BASE_HI.ADDR_HI 8)),
      fun g _ _ => clean_sound (by decide +kernel) g, by decide +kernel⟩,
    ⟨(State.reset.wr RIB_CCT_CTL.CPEND 1), by decide +kernel⟩,
    ⟨{ State.reset with rib.done := [5, 6] }, 5, [6], by decide +kernel⟩,
    ⟨(State.reset.wr SCH_STAT.STATE (schStopped + 1)), 1, .inl (by decide +kernel)⟩⟩

/-- O42. -/
theorem meets_LockstepAndRecovery_1 :
    (∃ (s : State), let ok : Prop := s.rd RCV_STAT.LOCKSTEP_BROKEN = 0; s.live = true ∧ s.rd RCV_STAT.VRET = 0 ∧ (¬ok) ∧
      s.rd RCV_STAT.LOCKSTEP_BROKEN = 1) ∧
    (∃ (s : State), s.live = true ∧ s.rd RCV_STAT.VRET = 0 ∧ s.rcv.paused ≠ none) ∧
    (∃ (s : State) (c : VCode) (d : VCode) (dist : Bool) (k : Fin 3) (m : BitVec 3),
      let ok : Prop := s.rd RCV_STAT.LOCKSTEP_BROKEN = 0;
      let votes : Prop := ok ∧ s.rcv.paused = none ∧ ∀ v, s.rcv.vtesting ≠ some (v, s.now);
      let duplex : Prop := s.rd RCV_STAT.DUPLEX = 1;
      let few : Prop := (s.rcv.resets.filter (fun t => decide (s.now ≤ t + 10000000000))).length < 3; let st := s.strand k;
      votes ∧ s.live = true ∧ s.rd RCV_STAT.VRET = 0 ∧ (¬duplex) ∧ few ∧ c ≠ d ∧ ((∀ p ∈ s.rcv.voterAt, p.1 ≠ 0 ∨ p.2 +
      10000000000 < s.now)) ∧ (s.rcv.resync = none ∨ s.rcv.paused ≠ none ∨ s.isOn DBG_STAT.HALTED = true) ∧ (s.rcv.resync =
      none ∨ s.rcv.paused = none) ∧ ok ∧ s.rd RCV_CTL.VTEST_EN = 1 ∧ dist = true ∧ s.rcv.mm = [] ∧ st.test = none ∧ m = 0 ∧
      s.pwr.state = .run ∧ s.rd DBG_STAT.FROST = 0 ∧ bitb s.retired k = false ∧ s.rd (RCV_RIB.PEND k) = 0 ∧ (s.strand
      k).test = none) ∧
    (∃ (s : State), let ok : Prop := s.rd RCV_STAT.LOCKSTEP_BROKEN = 0;
      let votes : Prop := ok ∧ s.rcv.paused = none ∧ ∀ v, s.rcv.vtesting ≠ some (v, s.now);
      let duplex : Prop := s.rd RCV_STAT.DUPLEX = 1;
      let few : Prop := (s.rcv.resets.filter (fun t => decide (s.now ≤ t + 10000000000))).length < 3; votes ∧ s.live = true
      ∧ s.rd RCV_STAT.VRET = 0 ∧ few ∧ duplex) ∧
    (∃ (s : State), let ok : Prop := s.rd RCV_STAT.LOCKSTEP_BROKEN = 0;
      let votes : Prop := ok ∧ s.rcv.paused = none ∧ ∀ v, s.rcv.vtesting ≠ some (v, s.now);
      let few : Prop := (s.rcv.resets.filter (fun t => decide (s.now ≤ t + 10000000000))).length < 3; votes ∧ s.live = true
      ∧ s.rd RCV_STAT.VRET = 0 ∧ (¬few)) ∧
    (∃ (s : State) (failed : Fin 3) (q : _), s.live = true ∧ s.rd RCV_STAT.VRET = 0 ∧ s.rcv.resync = some q ∧ s.rcv.paused =
      none ∧ s.isOn DBG_STAT.HALTED = false ∧ failed.val < 2 ∧ s.rd DBG_STAT.HALTED = 0) :=
  ⟨⟨(State.reset.wr RCV_STAT.LOCKSTEP_BROKEN 1), by decide +kernel⟩,
    ⟨{ State.reset with rcv.paused := some ⟨0, 1042, 1, 0⟩ }, by decide +kernel⟩,
    ⟨State.reset, .agree, (.odd 2), true, 2, 0, ⟨by decide +kernel, by decide +kernel, no_test (by decide +kernel)⟩,
      by decide +kernel⟩,
    ⟨(State.reset.wr RCV_STAT.DUPLEX 1), ⟨by decide +kernel, by decide +kernel, no_test (by decide +kernel)⟩,
      by decide +kernel⟩,
    ⟨{ State.reset with rcv.resets := [0, 0, 0] }, ⟨by decide +kernel, by decide +kernel, no_test (by decide +kernel)⟩,
      by decide +kernel⟩,
    ⟨{ State.reset with rcv.resync := some ⟨none, 2⟩ }, 1, ⟨none, 2⟩, by decide +kernel⟩⟩

/-- O42. -/
theorem meets_LockstepAndRecovery_2 :
    (∃ (s : State) (failed : Fin 3),
      let few : Prop := (s.rcv.resets.filter (fun t => decide (s.now ≤ t + 10000000000))).length < 3; s.live = true ∧ s.rd
      RCV_STAT.VRET = 0 ∧ s.rcv.resync ≠ none ∧ s.rcv.paused = none ∧ s.isOn DBG_STAT.HALTED = false ∧ failed.val = 2 ∧ few) ∧
    (∃ (s : State) (odd : _) (start : _) (tc : _) (n : _), s.live = true ∧ s.rd RCV_STAT.VRET = 0 ∧ s.rcv.resync = some
      ⟨none, odd⟩ ∧ s.rcv.paused = some ⟨start, tc, n, 0⟩ ∧ s.tri.wait = none ∧ s.time ≤ start) ∧
    (∃ (s : State) (y : _) (odd : _) (start : _) (tc : _) (n : _) (q : _) (pause : _), s.live = true ∧ s.rd RCV_STAT.VRET =
      0 ∧ y < 3 ∧ s.rcv.resync = some ⟨some y, odd⟩ ∧ s.rcv.paused = some ⟨start, tc, n, 0⟩ ∧ s.tri.wait = none ∧ s.time ≤
      start ∧ s.rcv.resync = some q ∧ s.rcv.paused = some pause ∧ ((∀ y, q.out = some y → y < 3))) ∧
    (∃ (s : State), s.live = true ∧ s.rd RCV_STAT.VRET = 0 ∧ s.rd RCV_CTL.VTEST_EN = 0) ∧
    (∃ (s : State) (dist : Bool) (pass : Bool) (m : BitVec 3) (j : _), let ok : Prop := s.rd RCV_STAT.LOCKSTEP_BROKEN = 0;
      s.live = true ∧ s.rd RCV_STAT.VRET = 0 ∧ ok ∧ s.rd RCV_CTL.VTEST_EN = 1 ∧ dist = false ∧ pass = true ∧ strandList
      m.toNat = [j]) ∧
    (∃ (s : State) (dist : Bool) (pass : Bool) (m : BitVec 3), let ok : Prop := s.rd RCV_STAT.LOCKSTEP_BROKEN = 0; s.live =
      true ∧ s.rd RCV_STAT.VRET = 0 ∧ ok ∧ s.rd RCV_CTL.VTEST_EN = 1 ∧ dist = false ∧ pass = false ∧ 2 ≤ popcount 3 m.toNat) :=
  ⟨⟨{ State.reset with rcv.resync := some ⟨none, 2⟩ }, 2, by decide +kernel⟩,
    ⟨{ State.reset with rcv.resync := some ⟨none, 2⟩, rcv.paused := some ⟨0, 1042, 1, 0⟩ }, 2, 0, 1042, 1,
      by decide +kernel⟩,
    ⟨{ State.reset with rcv.resync := some ⟨some 2, 4⟩, rcv.paused := some ⟨0, 1042, 1, 0⟩ }, 2, 4, 0, 1042, 1, ⟨some 2, 4⟩,
      ⟨0, 1042, 1, 0⟩, by decide +kernel⟩,
    ⟨(State.reset.wr RCV_CTL.VTEST_EN 0), by decide +kernel⟩,
    ⟨State.reset, false, true, 4, 2, by decide +kernel⟩,
    ⟨State.reset, false, false, 7, by decide +kernel⟩⟩

/-- O42. -/
theorem meets_LockstepAndRecovery_3 :
    (∃ (s : State) (k : Fin 3) (e : _) (rest : _), s.live = true ∧ s.rcv.mm = e :: rest ∧ strandList e.strands = [k.val] ∧
      e.retry = false ∧ e.pair = false) ∧
    (∃ (s : State) (k : Fin 3) (t : _), let st := s.strand k; s.live = true ∧ st.test = some t ∧ (t.running = false ∨
      s.phaseKind ≠ 1 ∨ s.hardHolds k = true)) ∧
    (∃ (s : State) (k : Fin 3) (t : _), let st := s.strand k; s.live = true ∧ st.test = some t ∧ t.running = true ∧
      s.phaseKind = 1 ∧ s.hardHolds k = false ∧ t.steps + 1 < 4096) ∧
    (∃ (s : State) (k : Fin 3) (found : LaneFinding) (t : _), let st := s.strand k;
      let lanes (t : LaneTest) : List Nat := match found with | .lanes l => (upto 68).filter (fun p => t.lanes.elem p || l.any (fun (x : Fin 68) => x.val == p)) | _ => t.lanes; let after (t : LaneTest) : LaneTest := { t with steps := t.steps + 1, lanes := lanes t, shared := t.shared || (match found with | .shared => true | _ => false) }; let clean (t : LaneTest) : Prop := (after t).shared = false ∧ (after t).lanes = []; s.live = true ∧ st.test = some t ∧ t.running = true ∧ s.phaseKind = 1 ∧ s.hardHolds k = false ∧ 4096 ≤ t.steps + 1 ∧ clean t) ∧
    (∃ (s : State) (k : Fin 3) (found : LaneFinding) (t : _), let st := s.strand k;
      let lanes (t : LaneTest) : List Nat := match found with | .lanes l => (upto 68).filter (fun p => t.lanes.elem p || l.any (fun (x : Fin 68) => x.val == p)) | _ => t.lanes; let after (t : LaneTest) : LaneTest := { t with steps := t.steps + 1, lanes := lanes t, shared := t.shared || (match found with | .shared => true | _ => false) }; s.live = true ∧ st.test = some t ∧ t.running = true ∧ s.phaseKind = 1 ∧ s.hardHolds k = false ∧ 4096 ≤ t.steps + 1 ∧ (after t).shared = true) ∧
    (∃ (s : State), (s.pwr.state ≠ .run ∨ s.rd DBG_STAT.FROST = 1)) :=
  ⟨⟨{ State.reset with rcv.mm := [⟨5, 4, false, false, 9⟩] }, 2, ⟨5, 4, false, false, 9⟩, [], by decide +kernel⟩,
    ⟨{ State.reset with rcv.strandC := { StrandS.reset with test := some ⟨false, 0, [], false⟩ } }, 2, ⟨false, 0, [],
      false⟩, by decide +kernel⟩,
    ⟨{ State.reset with rcv.strandC := { StrandS.reset with test := some ⟨true, 4094, [], false⟩ } }, 2, ⟨true, 4094, [],
      false⟩, by decide +kernel⟩,
    ⟨{ State.reset with rcv.strandC := { StrandS.reset with test := some ⟨true, 4095, [], false⟩ } }, 2, .none, ⟨true, 4095,
      [], false⟩, by decide +kernel⟩,
    ⟨{ State.reset with rcv.strandC := { StrandS.reset with test := some ⟨true, 4095, [], true⟩ } }, 2, .none, ⟨true, 4095,
      [], true⟩, by decide +kernel⟩,
    ⟨(State.reset.wr DBG_STAT.FROST 1), by decide +kernel⟩⟩

/-- O42. -/
theorem meets_LockstepAndRecovery_4 :
    (∃ (s : State) (k : Fin 3), let st := s.strand k; (bitb s.retired k = true ∨ s.rd (RCV_RIB.PEND k) = 1 ∨ st.test ≠
      none)) ∧
    (∃ (s : State) (x : Fin 3), let ok : Prop := s.live = true ∧ s.rd RCV_STAT.LOCKSTEP_BROKEN = 0;
      let test := match s.rcv.vtestAt with | some x => x.1 | none => max (s.rcv.vtests + 1) ((s.now + 999999999) / 1000000000); ok ∧ s.rcv.paused = none ∧ s.rd RCV_STAT.DUPLEX = 0 ∧ ((∃ v, v < 3 ∧ s.voterOut v = false)) ∧ s.rd RCV_CTL.VTEST_EN = 1 ∧ bitb (s.rd RCV_STAT.VRET) (test % 3) = false) ∧
    (∃ (s : State) (k : Fin 3) (t : _), s.live = true ∧ (s.strand k).test = some t ∧ t.running = true ∧ s.phaseKind = 1 ∧
      s.hardHolds k = false) :=
  ⟨⟨(State.reset.wr (RCV_RIB.PEND 2) 1), 2, by decide +kernel⟩,
    ⟨State.reset, 2, by decide +kernel⟩,
    ⟨{ State.reset with rcv.strandC := { StrandS.reset with test := some ⟨true, 4095, [3], false⟩ } }, 2, ⟨true, 4095, [3],
      false⟩, by decide +kernel⟩⟩

/-- O43. -/
theorem meets_ChainLinks_1 :
    (∃ (s : State) (port : Fin 2) (j : _) (lseq : BitVec 8) (bytes : List Byte), let p := port.val; let c := s.chnPort p;
      let f := frameOf bytes; (s.portUp p = true ∨ (s.pwr.state ≠ .run ∧ s.pwr.state ≠ .idle)) ∧ s.portUp p = true ∧ s.rd
      CHN_CTL.RING = 0 ∧ s.segOf p = some j ∧ c.waiting = [] ∧ ((∀ x ∈ c.unacked, x.lseq ≠ lseq.toNat)) ∧ c.unacked = [] ∧
      c.rxLast ≠ some lseq.toNat ∧ s.frameBad f = true) ∧
    (∃ (s : State) (port : Fin 2) (j : _), let p := port.val; p = 0 ∧ s.portUp 0 = false ∧ s.pwr.state = .run ∧ s.chnAddr ≠
      0 ∧ s.segOf 0 = some j) ∧
    (∃ (s : State) (port : Fin 2), let p := port.val; s.portUp p = false) ∧
    (∃ (s : State), let powered : Prop := s.chnPowered = true; (¬powered)) ∧
    (∃ (s : State) (port : Fin 2) (lseq : BitVec 8) (x : _), let p := port.val; let c := s.chnPort p;
      let powered : Prop := s.chnPowered = true;
      let oldest (x : TxFrame) : Prop := c.unacked.find? (fun y => y.lseq == lseq.toNat) = some x; powered ∧ oldest x ∧
      c.waiting = []) ∧
    (∃ (s : State) (port : Fin 2) (lseq : BitVec 8) (x : _), let p := port.val; let c := s.chnPort p;
      let powered : Prop := s.chnPowered = true;
      let oldest (x : TxFrame) : Prop := c.unacked.find? (fun y => y.lseq == lseq.toNat) = some x; powered ∧ oldest x ∧
      x.retried = false ∧ firstSent c.unacked = some x) :=
  ⟨⟨(wNode 3 0 3 State.reset), 0, 2, 255, [], by decide +kernel⟩,
    ⟨(wNode 3 0 0 State.reset), 0, 2, by decide +kernel⟩,
    ⟨State.reset, 0, by decide +kernel⟩,
    ⟨{ (wNode 3 0 3 State.reset) with pwr.state := .dormant }, by decide +kernel⟩,
    ⟨{ wNode 3 0 3 State.reset with chn.u := { ChnPort.idle with unacked := [⟨255, wFr 5 7 5 2 0 0 [], true, 0⟩] } }, 0,
      255, ⟨255, wFr 5 7 5 2 0 0 [], true, 0⟩, by decide +kernel⟩,
    ⟨{ wNode 3 0 3 State.reset with chn.u := { ChnPort.idle with unacked := [⟨255, wFr 5 7 5 2 0 0 [], false, 0⟩] } }, 0,
      255, ⟨255, wFr 5 7 5 2 0 0 [], false, 0⟩, by decide +kernel⟩⟩

/-- O43. -/
theorem meets_ChainLinks_2 :
    (∃ (s : State) (port : Fin 2) (lseq : BitVec 8) (x : _), let p := port.val; let c := s.chnPort p;
      let powered : Prop := s.chnPowered = true;
      let oldest (x : TxFrame) : Prop := c.unacked.find? (fun y => y.lseq == lseq.toNat) = some x; powered ∧ oldest x ∧
      x.retried = true ∧ c.fails < 2 ∧ c.waiting = [] ∧ firstSent c.unacked = some x) ∧
    (∃ (s : State) (port : Fin 2) (lseq : BitVec 8), let p := port.val; let c := s.chnPort p; s.portUp p = true ∧ c.rxLast =
      some lseq.toNat) ∧
    (∃ (s : State) (port : Fin 2) (lseq : BitVec 8) (bytes : List Byte), let p := port.val; let c := s.chnPort p;
      let f := frameOf bytes; s.portUp p = true ∧ c.rxLast ≠ some lseq.toNat ∧ s.frameBad f = false ∧ f.cls = clsTime ∧
      f.enc = false ∧ f.src = 0) ∧
    (∃ (s : State) (port : Fin 2) (lseq : BitVec 8) (bytes : List Byte), let p := port.val; let c := s.chnPort p;
      let f := frameOf bytes; s.portUp p = true ∧ c.rxLast ≠ some lseq.toNat ∧ s.frameBad f = false ∧ f.hopLocal = false ∧
      s.chnAddr ≠ 0 ∧ f.dst = s.chnAddr ∧ f.cls = clsSnap ∧ f.enc = false ∧ s.rd CHN_STAT.CC_RESTART = 0 ∧ s.rd
      DBG_STAT.FROST = 0) ∧
    (∃ (s : State) (port : Fin 2) (lseq : BitVec 8) (bytes : List Byte) (q : _), let p := port.val; let c := s.chnPort p;
      let f := frameOf bytes; s.idlePort q ∧ s.portUp p = true ∧ c.rxLast ≠ some lseq.toNat ∧ s.frameBad f = false ∧
      f.hopLocal = false ∧ s.chnAddr ≠ 0 ∧ f.dst ≠ s.chnAddr ∧ f.dst ≠ 255 ∧ s.routeTo f.dst = some q ∧ q ≠ p) ∧
    (∃ (s : State) (port : Fin 2) (lseq : BitVec 8) (bytes : List Byte), let p := port.val; let c := s.chnPort p;
      let f := frameOf bytes; s.portUp p = true ∧ c.rxLast ≠ some lseq.toNat ∧ s.frameBad f = false ∧ f.hopLocal = false ∧
      s.chnAddr ≠ 0 ∧ f.dst ≠ s.chnAddr ∧ f.dst ≠ 255 ∧ s.routeTo f.dst = none) :=
  ⟨⟨{ wNode 3 0 3 State.reset with chn.u := { ChnPort.idle with unacked := [⟨255, wFr 5 7 5 2 0 0 [], true, 0⟩], fails := 1 } },
      0, 255, ⟨255, wFr 5 7 5 2 0 0 [], true, 0⟩, by decide +kernel⟩,
    ⟨{ wNode 3 0 3 State.reset with chn.u := { ChnPort.idle with rxLast := some 255 } }, 0, 255, by decide +kernel⟩,
    ⟨(wNode 3 0 3 State.reset), 0, 255, ((wFr 1 0 0 0 0 0 (List.replicate 8 0)).bytes), by decide +kernel⟩,
    ⟨(wNode 3 0 3 State.reset), 0, 255, ((wFr 3 0 3 2 0 0 []).bytes), by decide +kernel⟩,
    ⟨(wNode 3 0 3 State.reset), 0, 255, ((wFr 5 7 5 2 0 0 []).bytes), 1, by unfold State.idlePort; decide +kernel,
      by decide +kernel⟩,
    ⟨(wNode 3 0 1 State.reset), 0, 255, ((wFr 5 7 5 2 0 0 []).bytes), by decide +kernel⟩⟩

/-- O44. -/
theorem meets_ChainTime_1 :
    (∃ (s : State) (port : Fin 2), let p := port.val;
      let pd (r : RxFrame) : Bool := r.port == p && r.frame.cls == clsTime && r.frame.sub == 1;
      let sy (r : RxFrame) : Bool := r.port == p && r.frame.cls == clsTime && r.frame.sub == 0; s.portUp p = false ∧ ((∀ r ∈
      s.chn.rx, pd r = false)) ∧ s.isHead = false ∧ ((∀ r ∈ s.chn.rx, sy r = false)) ∧ s.chn.listen = none ∧ (s.isHead =
      false ∨ s.rd SCH_STAT.STATE ≠ schStopped)) ∧
    (∃ (s : State) (port : Fin 2), let p := port.val; s.portUp p = true) ∧
    (∃ (s : State) (port : Fin 2), let p := port.val; s.idlePort p) ∧
    (∃ (s : State) (port : Fin 2) (r : _), let p := port.val;
      let pd (r : RxFrame) : Bool := r.port == p && r.frame.cls == clsTime && r.frame.sub == 1; s.chn.rx.find? pd = some r) ∧
    (∃ (s : State) (port : Fin 2) (j : _), let p := port.val; s.idlePort 1 ∧ s.isHead = true ∧ s.portUp 0 = false ∧ s.segOf
      1 = some j ∧ s.segOpen j = true ∧ p = 1) ∧
    (∃ (s : State) (port : Fin 2) (r : _), let p := port.val;
      let sy (r : RxFrame) : Bool := r.port == p && r.frame.cls == clsTime && r.frame.sub == 0; s.chn.rx.find? sy = some r ∧
      s.timePort ≠ some p) :=
  ⟨⟨State.reset, 0, by decide +kernel⟩,
    ⟨(State.reset.wr CHN_STAT.UP_U 1), 0, by decide +kernel⟩,
    ⟨(wNode 3 0 3 State.reset), 0, by unfold State.idlePort; decide +kernel⟩,
    ⟨{ wNode 3 0 3 State.reset with chn.rx := [⟨0, wFr 1 1 0 0 0 0 (List.replicate 8 0), List.replicate 8 0, none, 0⟩] }, 0,
      ⟨0, wFr 1 1 0 0 0 0 (List.replicate 8 0), List.replicate 8 0, none, 0⟩, by decide +kernel⟩,
    ⟨(wNode 1 1 2 State.reset), 1, 1, by unfold State.idlePort; decide +kernel, by decide +kernel⟩,
    ⟨{ State.reset with chn.rx := [⟨0, wFr 1 0 0 0 0 0 (List.replicate 8 0), List.replicate 8 0, none, 0⟩] }, 0, ⟨0, wFr 1 0
      0 0 0 0 (List.replicate 8 0), List.replicate 8 0, none, 0⟩, by decide +kernel⟩⟩

/-- O44. -/
theorem meets_ChainTime_2 :
    (∃ (s : State) (port : Fin 2) (stamp : BitVec 64) (r : _), let p := port.val;
      let sy (r : RxFrame) : Bool := r.port == p && r.frame.cls == clsTime && r.frame.sub == 0;
      let off (r : RxFrame) : Int := stamp.toNat - (16 * (r.frame.h2 : Int) + asInt (ofBytes (r.text.take 8)) 64 + s.linkDelay p);
      s.chn.rx.find? sy = some r ∧ s.timePort = some p ∧ s.portUp (1 - p) = false ∧ s.rd SCH_STAT.STATE = schStopped ∧ 16000
      < (off r).natAbs) ∧
    (∃ (s : State) (port : Fin 2) (stamp : BitVec 64) (r : _), let p := port.val;
      let sy (r : RxFrame) : Bool := r.port == p && r.frame.cls == clsTime && r.frame.sub == 0;
      let off (r : RxFrame) : Int := stamp.toNat - (16 * (r.frame.h2 : Int) + asInt (ofBytes (r.text.take 8)) 64 + s.linkDelay p);
      s.chn.rx.find? sy = some r ∧ s.timePort = some p ∧ s.portUp (1 - p) = false ∧ (off r).natAbs ≤ 64) ∧
    (∃ (s : State), s.isHead = true ∧ s.rd SCH_STAT.STATE = schStopped) ∧
    (∃ (s : State) (e : _), s.chn.listen = some (e, none)) ∧
    (∃ (s : State) (e : _) (o : _), s.chn.listen = some (e, some o) ∧ s.rd SCH_STAT.STATE = schStopped) ∧
    (∃ (s : State) (e : _) (o : _), s.chn.listen = some (e, some o) ∧ s.rd SCH_STAT.STATE ≠ schStopped) :=
  ⟨⟨{ wNode 3 0 1 State.reset with chn.rx := [⟨0, wFr 1 0 0 0 0 0 (List.replicate 8 0), List.replicate 8 0, none, 0⟩] }, 0,
      16001, ⟨0, wFr 1 0 0 0 0 0 (List.replicate 8 0), List.replicate 8 0, none, 0⟩, by decide +kernel⟩,
    ⟨{ wNode 3 0 1 State.reset with chn.rx := [⟨0, wFr 1 0 0 0 0 0 (List.replicate 8 0), List.replicate 8 0, none, 0⟩] }, 0,
      64, ⟨0, wFr 1 0 0 0 0 0 (List.replicate 8 0), List.replicate 8 0, none, 0⟩, by decide +kernel⟩,
    ⟨((State.reset.wr CHN_ADDR.ADDR 1).wr CHN_CTL.HEAD 1), by decide +kernel⟩,
    ⟨{ State.reset with chn.listen := some (100, none) }, 100, by decide +kernel⟩,
    ⟨{ State.reset with chn.listen := some (100, some (-5)) }, 100, (-5), by decide +kernel⟩,
    ⟨(({ State.reset with chn.listen := some (100, some (-5)) } : State).wr SCH_STAT.STATE 3), 100, (-5), by decide +kernel⟩⟩

/-- O45. -/
theorem meets_ChainManagement_1 :
    (∃ (s : State), let none_ (k : Nat) : Prop := ∀ r ∈ s.chn.rx, r.frame.mgmt k = false; s.rd DBG_STAT.FROST = 0 ∧ s.rd
      CHN_STAT.CC_RESTART = 0 ∧ s.isHead = false ∧ none_ 0 ∧ none_ 1 ∧ none_ 2 ∧ none_ 3 ∧ none_ 4 ∧ none_ 5 ∧ none_ 6 ∧
      none_ 7 ∧ none_ 8 ∧ s.chn.rst = none) ∧
    (∃ (s : State), s.chnAlone ∧ s.rd DBG_STAT.FROST = 0 ∧ s.rd CHN_STAT.CC_RESTART = 0 ∧ s.isHead = true) ∧
    (∃ (s : State), s.idlePort 1 ∧ s.rd DBG_STAT.FROST = 0 ∧ s.rd CHN_STAT.CC_RESTART = 0 ∧ s.isHead = true) ∧
    (∃ (s : State) (r : _), let got (k : Nat) (r : RxFrame) : Prop := s.chn.rx.find? (fun r => r.frame.mgmt k) = some r;
      s.idlePort 1 ∧ s.rd DBG_STAT.FROST = 0 ∧ s.rd CHN_STAT.CC_RESTART = 0 ∧ got 0 r ∧ s.isHead = false ∧ r.port = 0 ∧ 1 ≤
      bits r.frame.h2 7 0 ∧ bits r.frame.h2 7 0 < 250) ∧
    (∃ (s : State) (r : _), let got (k : Nat) (r : RxFrame) : Prop := s.chn.rx.find? (fun r => r.frame.mgmt k) = some r;
      s.chnAlone ∧ s.rd DBG_STAT.FROST = 0 ∧ s.rd CHN_STAT.CC_RESTART = 0 ∧ got 0 r ∧ s.isHead = true ∧ r.port = 0) ∧
    (∃ (s : State) (r : _), let got (k : Nat) (r : RxFrame) : Prop := s.chn.rx.find? (fun r => r.frame.mgmt k) = some r;
      s.rd DBG_STAT.FROST = 0 ∧ s.rd CHN_STAT.CC_RESTART = 0 ∧ got 1 r ∧ s.isHead = false) :=
  ⟨⟨State.reset, by decide +kernel⟩,
    ⟨(wNode 1 1 0 State.reset), by unfold State.chnAlone; decide +kernel, by decide +kernel⟩,
    ⟨(wNode 1 1 2 State.reset), by unfold State.idlePort; decide +kernel, by decide +kernel⟩,
    ⟨{ wNode 3 0 3 State.reset with chn.rx := [wRx 5 0 2 0 249 []] }, (wRx 5 0 2 0 249 []),
      by unfold State.idlePort; decide +kernel, by decide +kernel⟩,
    ⟨{ wNode 1 1 0 State.reset with chn.rx := [wRx 5 0 2 0 2 []] }, (wRx 5 0 2 0 2 []),
      by unfold State.chnAlone; decide +kernel, by decide +kernel⟩,
    ⟨{ wNode 3 0 3 State.reset with chn.rx := [wRx 5 1 2 0 0 []] }, (wRx 5 1 2 0 0 []), by decide +kernel⟩⟩

/-- O45. -/
theorem meets_ChainManagement_2 :
    (∃ (s : State) (r : _), let got (k : Nat) (r : RxFrame) : Prop := s.chn.rx.find? (fun r => r.frame.mgmt k) = some r;
      s.chnAlone ∧ s.rd DBG_STAT.FROST = 0 ∧ s.rd CHN_STAT.CC_RESTART = 0 ∧ got 1 r ∧ s.isHead = true ∧ r.frame.src ≠ 0) ∧
    (∃ (s : State) (r : _), let got (k : Nat) (r : RxFrame) : Prop := s.chn.rx.find? (fun r => r.frame.mgmt k) = some r;
      s.chnAlone ∧ s.rd DBG_STAT.FROST = 0 ∧ s.rd CHN_STAT.CC_RESTART = 0 ∧ got 1 r ∧ s.isHead = true ∧ r.frame.src = 0) ∧
    (∃ (s : State) (r : _), let got (k : Nat) (r : RxFrame) : Prop := s.chn.rx.find? (fun r => r.frame.mgmt k) = some r;
      s.rd DBG_STAT.FROST = 0 ∧ s.rd CHN_STAT.CC_RESTART = 0 ∧ got 2 r ∧ (s.isHead = false ∨ s.rd CHN_STAT.ENUM_BUSY = 0)) ∧
    (∃ (s : State) (r : _), let got (k : Nat) (r : RxFrame) : Prop := s.chn.rx.find? (fun r => r.frame.mgmt k) = some r;
      s.chnAlone ∧ s.rd DBG_STAT.FROST = 0 ∧ s.rd CHN_STAT.CC_RESTART = 0 ∧ got 2 r ∧ s.isHead = true ∧ s.rd
      CHN_STAT.ENUM_BUSY = 1) ∧
    (∃ (s : State) (r : _), let got (k : Nat) (r : RxFrame) : Prop := s.chn.rx.find? (fun r => r.frame.mgmt k) = some r;
      s.rd DBG_STAT.FROST = 0 ∧ s.rd CHN_STAT.CC_RESTART = 0 ∧ got 3 r ∧ bits r.frame.h2 39 8 ≤ s.chn.topoGen) ∧
    (∃ (s : State) (r : _), let got (k : Nat) (r : RxFrame) : Prop := s.chn.rx.find? (fun r => r.frame.mgmt k) = some r;
      s.rd DBG_STAT.FROST = 0 ∧ s.rd CHN_STAT.CC_RESTART = 0 ∧ got 3 r ∧ s.chn.topoGen < bits r.frame.h2 39 8 ∧ s.rd
      CHN_ADDR.COUNT = bits r.frame.arg 7 0) :=
  ⟨⟨{ wNode 1 1 0 State.reset with chn.rx := [wRx 5 1 2 0 0 []] }, (wRx 5 1 2 0 0 []),
      by unfold State.chnAlone; decide +kernel, by decide +kernel⟩,
    ⟨{ wNode 1 1 0 State.reset with chn.rx := [wRx 5 1 0 0 0 []] }, (wRx 5 1 0 0 0 []),
      by unfold State.chnAlone; decide +kernel, by decide +kernel⟩,
    ⟨{ wNode 3 0 3 State.reset with chn.rx := [wRx 5 2 2 0 0 []] }, (wRx 5 2 2 0 0 []), by decide +kernel⟩,
    ⟨({ wNode 1 1 0 State.reset with chn.rx := [wRx 5 2 2 0 0 []] }.wr CHN_STAT.ENUM_BUSY 1), (wRx 5 2 2 0 0 []),
      by unfold State.chnAlone; decide +kernel, by decide +kernel⟩,
    ⟨{ wNode 3 0 3 State.reset with chn.rx := [wRx 5 3 2 0 0 (List.replicate 32 0)] }, (wRx 5 3 2 0 0 (List.replicate 32
      0)), by decide +kernel⟩,
    ⟨{ wNode 3 0 3 State.reset with chn.rx := [wRx 5 3 2 5 256 (List.replicate 32 0)] }, (wRx 5 3 2 5 256 (List.replicate 32
      0)), by decide +kernel⟩⟩

/-- O45. -/
theorem meets_ChainManagement_3 :
    (∃ (s : State) (r : _), let got (k : Nat) (r : RxFrame) : Prop := s.chn.rx.find? (fun r => r.frame.mgmt k) = some r;
      s.rd DBG_STAT.FROST = 0 ∧ s.rd CHN_STAT.CC_RESTART = 0 ∧ got 4 r ∧ s.keyUsable = false) ∧
    (∃ (s : State) (r : _) (p : _),
      let got (k : Nat) (r : RxFrame) : Prop := s.chn.rx.find? (fun r => r.frame.mgmt k) = some r; s.idlePort p ∧ s.rd
      DBG_STAT.FROST = 0 ∧ s.rd CHN_STAT.CC_RESTART = 0 ∧ got 4 r ∧ s.keyUsable = true ∧ s.sec.cert ≠ [] ∧ r.frame.src ≠ 255
      ∧ s.routeTo r.frame.src = some p) ∧
    (∃ (s : State) (r : _), let got (k : Nat) (r : RxFrame) : Prop := s.chn.rx.find? (fun r => r.frame.mgmt k) = some r;
      s.rd DBG_STAT.FROST = 0 ∧ s.rd CHN_STAT.CC_RESTART = 0 ∧ got 5 r ∧ ((∀ x ∈ s.chn.nonces, x.1 ≠ r.frame.src))) ∧
    (∃ (s : State) (r : _) (nonce : _),
      let got (k : Nat) (r : RxFrame) : Prop := s.chn.rx.find? (fun r => r.frame.mgmt k) = some r; s.chnAlone ∧ s.rd
      DBG_STAT.FROST = 0 ∧ s.rd CHN_STAT.CC_RESTART = 0 ∧ got 5 r ∧ s.chn.nonces.find? (fun x => x.1 == r.frame.src) = some
      (r.frame.src, nonce) ∧ bits r.frame.arg 15 8 = 1 ∧ bits r.frame.arg 7 0 = 0 ∧ s.isHead = true ∧ r.frame.src < 251) ∧
    (∃ (s : State) (r : _), let got (k : Nat) (r : RxFrame) : Prop := s.chn.rx.find? (fun r => r.frame.mgmt k) = some r;
      s.rd DBG_STAT.FROST = 0 ∧ s.rd CHN_STAT.CC_RESTART = 0 ∧ got 6 r ∧ r.frame.h2 ≤ s.chn.trustGen) ∧
    (∃ (s : State) (r : _), let got (k : Nat) (r : RxFrame) : Prop := s.chn.rx.find? (fun r => r.frame.mgmt k) = some r;
      s.rd DBG_STAT.FROST = 0 ∧ s.rd CHN_STAT.CC_RESTART = 0 ∧ got 6 r ∧ s.chn.trustGen < r.frame.h2) :=
  ⟨⟨{ wNode 3 0 3 State.reset with chn.rx := [wRx 5 4 2 0 0 []] }, (wRx 5 4 2 0 0 []), by decide +kernel⟩,
    ⟨{ wNode 3 0 3 State.reset with chn.rx := [wRx 5 4 2 0 0 (List.replicate 32 0)], sec.n := 2, sec.cert := [7] }, (wRx 5 4
      2 0 0 (List.replicate 32 0)), 0, by unfold State.idlePort; decide +kernel, by decide +kernel⟩,
    ⟨{ wNode 3 0 3 State.reset with chn.rx := [wRx 5 5 2 0 0 []] }, (wRx 5 5 2 0 0 []), by decide +kernel⟩,
    ⟨{ wNode 1 1 0 State.reset with chn.rx := [wRx 5 5 250 256 0 []], chn.nonces := [(250, [7])] }, (wRx 5 5 250 256 0 []),
      [7], by unfold State.chnAlone; decide +kernel, by decide +kernel⟩,
    ⟨{ wNode 3 0 3 State.reset with chn.rx := [wRx 5 6 2 0 0 []] }, (wRx 5 6 2 0 0 []), by decide +kernel⟩,
    ⟨{ wNode 3 0 3 State.reset with chn.rx := [wRx 5 6 2 0 1 (List.replicate 32 0)] }, (wRx 5 6 2 0 1 (List.replicate 32
      0)), by decide +kernel⟩⟩

/-- O45. -/
theorem meets_ChainManagement_4 :
    (∃ (s : State) (r : _), let got (k : Nat) (r : RxFrame) : Prop := s.chn.rx.find? (fun r => r.frame.mgmt k) = some r;
      s.rd DBG_STAT.FROST = 0 ∧ s.rd CHN_STAT.CC_RESTART = 0 ∧ got 7 r ∧ s.trusted r.frame.src = false) ∧
    (∃ (s : State) (r : _), let got (k : Nat) (r : RxFrame) : Prop := s.chn.rx.find? (fun r => r.frame.mgmt k) = some r;
      s.rd DBG_STAT.FROST = 0 ∧ s.rd CHN_STAT.CC_RESTART = 0 ∧ got 7 r ∧ s.trusted r.frame.src = true ∧ bits r.frame.arg 7 0
      = s.chnAddr) ∧
    (∃ (s : State) (r : _), let got (k : Nat) (r : RxFrame) : Prop := s.chn.rx.find? (fun r => r.frame.mgmt k) = some r;
      s.rd DBG_STAT.FROST = 0 ∧ s.rd CHN_STAT.CC_RESTART = 0 ∧ got 8 r) ∧
    (∃ (s : State) (k : _) (t : _), s.rd DBG_STAT.FROST = 0 ∧ s.rd CHN_STAT.CC_RESTART = 0 ∧ s.chn.rst = some (k, t) ∧
      s.pwr.state = .run) :=
  ⟨⟨{ wNode 3 0 3 State.reset with chn.rx := [wRx 5 7 2 0 0 []] }, (wRx 5 7 2 0 0 []), by decide +kernel⟩,
    ⟨({ wNode 3 0 3 State.reset with chn.rx := [wRx 5 7 2 3 0 []] }.wr (CHN_TRUST.TRUST 0) 4), (wRx 5 7 2 3 0 []),
      by decide +kernel⟩,
    ⟨{ wNode 3 0 3 State.reset with chn.rx := [wRx 5 8 2 0 0 (List.replicate 8 0)] }, (wRx 5 8 2 0 0 (List.replicate 8 0)),
      by decide +kernel⟩,
    ⟨{ State.reset with chn.rst := some (1, 5) }, 1, 5, by decide +kernel⟩⟩

/-- O46. -/
theorem meets_ChainServices_1 :
    (∃ (s : State) (r : RxFrame), let none_ (want : RxFrame → Bool) : Prop := ∀ x ∈ s.chn.rx, want x = false;
      let k := ofBytes ((r.text.drop 96).take 1);
      let step (k : Nat) (x : RxFrame) : Bool := x.frame.mgmt 10 && bits x.frame.arg 7 0 == k;
      let post (x : RxFrame) : Bool := x.frame.cls == clsMsg && x.frame.sub == 0;
      let enq (x : RxFrame) : Bool := x.frame.cls == clsMsg && x.frame.sub == 1;
      let nak (x : RxFrame) : Bool := x.frame.cls == clsNak; let snap (x : RxFrame) : Bool := x.frame.cls == clsSnap;
      let reply (x : RxFrame) : Bool := x.frame.cls == clsDebug && x.frame.sub == 1;
      let batch (x : RxFrame) : Bool := x.frame.cls == clsDebug && x.frame.sub == 0; s.rd DBG_STAT.FROST = 0 ∧ s.rd
      CHN_STAT.CC_RESTART = 0 ∧ none_ (step 1) ∧ none_ (step 2) ∧ none_ (step 3) ∧ none_ post ∧ none_ enq ∧ none_ nak ∧
      none_ snap ∧ s.chn.snap = none ∧ none_ reply ∧ none_ batch) ∧
    (∃ (s : State) (r : RxFrame), let first (want : RxFrame → Bool) : Prop := s.chn.rx.find? want = some r;
      let a := r.frame.src; let k := ofBytes ((r.text.drop 96).take 1);
      let step (k : Nat) (x : RxFrame) : Bool := x.frame.mgmt 10 && bits x.frame.arg 7 0 == k;
      let grantable : Prop := s.trusted a = true ∧ r.frame.len = 98 ∧ k ≠ 0 ∧ s.keyUsable = true; s.rd DBG_STAT.FROST = 0 ∧
      s.rd CHN_STAT.CC_RESTART = 0 ∧ first (step 1) ∧ (¬grantable)) ∧
    (∃ (s : State) (r : RxFrame), let first (want : RxFrame → Bool) : Prop := s.chn.rx.find? want = some r;
      let a := r.frame.src; let k := ofBytes ((r.text.drop 96).take 1);
      let step (k : Nat) (x : RxFrame) : Bool := x.frame.mgmt 10 && bits x.frame.arg 7 0 == k;
      let grantable : Prop := s.trusted a = true ∧ r.frame.len = 98 ∧ k ≠ 0 ∧ s.keyUsable = true; s.rd DBG_STAT.FROST = 0 ∧
      s.rd CHN_STAT.CC_RESTART = 0 ∧ first (step 1) ∧ grantable ∧ ((∀ x ∈ s.chn.sess, x.peer ≠ a ∨ x.initiator = false)) ∧
      s.routeTo a = none ∧ a ≠ 255) ∧
    (∃ (s : State) (r : RxFrame) (x : _), let first (want : RxFrame → Bool) : Prop := s.chn.rx.find? want = some r;
      let a := r.frame.src; let k := ofBytes ((r.text.drop 96).take 1);
      let step (k : Nat) (x : RxFrame) : Bool := x.frame.mgmt 10 && bits x.frame.arg 7 0 == k;
      let grantable : Prop := s.trusted a = true ∧ r.frame.len = 98 ∧ k ≠ 0 ∧ s.keyUsable = true; s.rd DBG_STAT.FROST = 0 ∧
      s.rd CHN_STAT.CC_RESTART = 0 ∧ first (step 1) ∧ grantable ∧ s.chn.sess.find?
      (fun y => y.peer == a && y.initiator && y.num == k) = some x ∧ s.chnAddr < a) ∧
    (∃ (s : State) (r : RxFrame), let first (want : RxFrame → Bool) : Prop := s.chn.rx.find? want = some r;
      let a := r.frame.src; let k := ofBytes ((r.text.drop 96).take 1);
      let step (k : Nat) (x : RxFrame) : Bool := x.frame.mgmt 10 && bits x.frame.arg 7 0 == k; s.rd DBG_STAT.FROST = 0 ∧
      s.rd CHN_STAT.CC_RESTART = 0 ∧ first (step 2) ∧ s.findSess a true = none) ∧
    (∃ (s : State) (r : RxFrame) (x : _), let first (want : RxFrame → Bool) : Prop := s.chn.rx.find? want = some r;
      let a := r.frame.src; let k := ofBytes ((r.text.drop 96).take 1);
      let step (k : Nat) (x : RxFrame) : Bool := x.frame.mgmt 10 && bits x.frame.arg 7 0 == k; s.rd DBG_STAT.FROST = 0 ∧
      s.rd CHN_STAT.CC_RESTART = 0 ∧ first (step 2) ∧ s.findSess a true = some x ∧ s.trusted x.peer = true ∧ r.frame.len =
      161 ∧ s.keyUsable = true ∧ s.routeTo x.peer = none ∧ x.peer ≠ 255) :=
  ⟨⟨State.reset, (wRx 1 0 2 0 0 []), by decide +kernel⟩,
    ⟨{ wNode 3 0 3 State.reset with chn.rx := [wRx 5 10 2 1 0 []] }, (wRx 5 10 2 1 0 []), by decide +kernel⟩,
    ⟨({ wNode 3 0 0 State.reset with chn.rx := [wRx 5 10 2 1 0 (List.replicate 98 1)], sec.n := 2 }.wr (CHN_TRUST.TRUST 0)
      4), (wRx 5 10 2 1 0 (List.replicate 98 1)), by decide +kernel⟩,
    ⟨({ wNode 1 0 0 State.reset with chn.rx := [wRx 5 10 2 1 0 (List.replicate 98 1)], sec.n := 2, chn.sess := [⟨2, true, 1, 0, 0, []⟩] }.wr
      (CHN_TRUST.TRUST 0) 4), (wRx 5 10 2 1 0 (List.replicate 98 1)), ⟨2, true, 1, 0, 0, []⟩, by decide +kernel⟩,
    ⟨{ wNode 3 0 3 State.reset with chn.rx := [wRx 5 10 2 2 0 []] }, (wRx 5 10 2 2 0 []), by decide +kernel⟩,
    ⟨({ wNode 3 0 0 State.reset with chn.rx := [wRx 5 10 2 2 0 (List.replicate 161 1)], sec.n := 2, chn.sess := [⟨2, true, 1, 0, 0, []⟩] }.wr
      (CHN_TRUST.TRUST 0) 4), (wRx 5 10 2 2 0 (List.replicate 161 1)), ⟨2, true, 1, 0, 0, []⟩, by decide +kernel⟩⟩

/-- O46. -/
theorem meets_ChainServices_2 :
    (∃ (s : State) (r : RxFrame), let first (want : RxFrame → Bool) : Prop := s.chn.rx.find? want = some r;
      let a := r.frame.src; let k := ofBytes ((r.text.drop 96).take 1);
      let step (k : Nat) (x : RxFrame) : Bool := x.frame.mgmt 10 && bits x.frame.arg 7 0 == k; s.rd DBG_STAT.FROST = 0 ∧
      s.rd CHN_STAT.CC_RESTART = 0 ∧ first (step 3) ∧ s.findSess a false = none) ∧
    (∃ (s : State) (r : RxFrame) (x : _), let first (want : RxFrame → Bool) : Prop := s.chn.rx.find? want = some r;
      let a := r.frame.src; let k := ofBytes ((r.text.drop 96).take 1);
      let step (k : Nat) (x : RxFrame) : Bool := x.frame.mgmt 10 && bits x.frame.arg 7 0 == k; s.rd DBG_STAT.FROST = 0 ∧
      s.rd CHN_STAT.CC_RESTART = 0 ∧ first (step 3) ∧ s.findSess a false = some x ∧ s.trusted x.peer = true ∧ r.frame.len =
      64) ∧
    (∃ (s : State) (r : RxFrame) (p : _), let first (want : RxFrame → Bool) : Prop := s.chn.rx.find? want = some r;
      let post (x : RxFrame) : Bool := x.frame.cls == clsMsg && x.frame.sub == 0; let a := r.frame.src;
      let n := bits r.frame.arg 5 0; s.idlePort p ∧ s.rd DBG_STAT.FROST = 0 ∧ s.rd CHN_STAT.CC_RESTART = 0 ∧ first post ∧
      s.aclCovers 0 a n = false ∧ s.routeTo a = some p ∧ a ≠ 255 ∧ a ≠ 0 ∧ r.frame.dst ≠ 255) ∧
    (∃ (s : State) (r : RxFrame) (p : _), let first (want : RxFrame → Bool) : Prop := s.chn.rx.find? want = some r;
      let post (x : RxFrame) : Bool := x.frame.cls == clsMsg && x.frame.sub == 0; let a := r.frame.src;
      let n := bits r.frame.arg 5 0; s.idlePort p ∧ s.rd DBG_STAT.FROST = 0 ∧ s.rd CHN_STAT.CC_RESTART = 0 ∧ first post ∧
      s.aclCovers 0 a n = true ∧ 32 ≤ n ∧ r.frame.enc = false ∧ s.routeTo a = some p ∧ a ≠ 255 ∧ a ≠ 0 ∧ r.frame.dst ≠ 255) ∧
    (∃ (s : State) (r : RxFrame), let first (want : RxFrame → Bool) : Prop := s.chn.rx.find? want = some r;
      let post (x : RxFrame) : Bool := x.frame.cls == clsMsg && x.frame.sub == 0; let a := r.frame.src;
      let n := bits r.frame.arg 5 0; s.rd DBG_STAT.FROST = 0 ∧ s.rd CHN_STAT.CC_RESTART = 0 ∧ first post ∧ s.aclCovers 0 a n
      = true ∧ (n < 32 ∨ r.frame.enc = true) ∧ s.rd (MBX_CFG.SENDER n) = 1) ∧
    (∃ (s : State) (r : RxFrame) (p : _), let first (want : RxFrame → Bool) : Prop := s.chn.rx.find? want = some r;
      let enq (x : RxFrame) : Bool := x.frame.cls == clsMsg && x.frame.sub == 1; let a := r.frame.src;
      let q := bits r.frame.arg 19 0; s.idlePort p ∧ s.rd DBG_STAT.FROST = 0 ∧ s.rd CHN_STAT.CC_RESTART = 0 ∧ first enq ∧
      s.aclCovers 1 a q = false ∧ s.routeTo a = some p ∧ a ≠ 255 ∧ a ≠ 0 ∧ r.frame.dst ≠ 255) :=
  ⟨⟨{ wNode 3 0 3 State.reset with chn.rx := [wRx 5 10 2 3 0 []] }, (wRx 5 10 2 3 0 []), by decide +kernel⟩,
    ⟨({ wNode 3 0 0 State.reset with chn.rx := [wRx 5 10 2 3 0 (List.replicate 64 1)], chn.sess := [⟨2, false, 1, 0, 0, []⟩] }.wr
      (CHN_TRUST.TRUST 0) 4), (wRx 5 10 2 3 0 (List.replicate 64 1)), ⟨2, false, 1, 0, 0, []⟩, by decide +kernel⟩,
    ⟨{ wNode 3 0 3 State.reset with chn.rx := [wRx 2 0 2 31 0 []] }, (wRx 2 0 2 31 0 []), 0,
      by unfold State.idlePort; decide +kernel, by decide +kernel⟩,
    ⟨(((({ wNode 3 0 3 State.reset with chn.rx := [wRx 2 0 2 32 0 []] }.wr (CHN_ACL_A.VALID 15) 1).wr (CHN_ACL_A.KIND 15)
      0).wr (CHN_ACL_A.SRC_HI 15) 2).wr (CHN_ACL_B.CNT 15) 63), (wRx 2 0 2 32 0 []), 0,
      by unfold State.idlePort; decide +kernel, by decide +kernel⟩,
    ⟨((((({ wNode 3 0 3 State.reset with chn.rx := [wRx 2 0 2 31 0 (List.replicate 64 1)] }.wr (CHN_ACL_A.VALID 15) 1).wr
      (CHN_ACL_A.KIND 15) 0).wr (CHN_ACL_A.SRC_HI 15) 2).wr (CHN_ACL_B.CNT 15) 63).wr (MBX_CFG.SENDER 31) 1), (wRx 2 0 2 31
      0 (List.replicate 64 1)), by decide +kernel⟩,
    ⟨{ wNode 3 0 3 State.reset with chn.rx := [wRx 2 1 2 1 0 []] }, (wRx 2 1 2 1 0 []), 0,
      by unfold State.idlePort; decide +kernel, by decide +kernel⟩⟩

/-- O46. -/
theorem meets_ChainServices_3 :
    (∃ (s : State) (r : RxFrame) (d : _), let first (want : RxFrame → Bool) : Prop := s.chn.rx.find? want = some r;
      let enq (x : RxFrame) : Bool := x.frame.cls == clsMsg && x.frame.sub == 1; let a := r.frame.src;
      let q := bits r.frame.arg 19 0; s.queueAt q d ∧ s.rd DBG_STAT.FROST = 0 ∧ s.rd CHN_STAT.CC_RESTART = 0 ∧ first enq ∧
      s.aclCovers 1 a q = true ∧ r.frame.len = 64 ∧ r.text.length = 64 ∧ d.depth < d.n ∧ s.queCached q = true) ∧
    (∃ (s : State) (r : RxFrame), let first (want : RxFrame → Bool) : Prop := s.chn.rx.find? want = some r;
      let nak (x : RxFrame) : Bool := x.frame.cls == clsNak; s.rd DBG_STAT.FROST = 0 ∧ s.rd CHN_STAT.CC_RESTART = 0 ∧ first
      nak) ∧
    (∃ (s : State) (r : RxFrame), let first (want : RxFrame → Bool) : Prop := s.chn.rx.find? want = some r;
      let snap (x : RxFrame) : Bool := x.frame.cls == clsSnap; s.rd DBG_STAT.FROST = 0 ∧ s.rd CHN_STAT.CC_RESTART = 0 ∧
      first snap ∧ r.frame.h2 ≤ s.now) ∧
    (∃ (s : State) (r : RxFrame), let first (want : RxFrame → Bool) : Prop := s.chn.rx.find? want = some r;
      let snap (x : RxFrame) : Bool := x.frame.cls == clsSnap; s.rd DBG_STAT.FROST = 0 ∧ s.rd CHN_STAT.CC_RESTART = 0 ∧
      first snap ∧ s.now < r.frame.h2) ∧
    (∃ (s : State) (at_ : _) (i : _), s.rd DBG_STAT.FROST = 0 ∧ s.rd CHN_STAT.CC_RESTART = 0 ∧ s.chn.snap = some (at_, i)) ∧
    (∃ (s : State) (r : RxFrame), let first (want : RxFrame → Bool) : Prop := s.chn.rx.find? want = some r;
      let reply (x : RxFrame) : Bool := x.frame.cls == clsDebug && x.frame.sub == 1; s.rd DBG_STAT.FROST = 0 ∧ s.rd
      CHN_STAT.CC_RESTART = 0 ∧ first reply) :=
  ⟨⟨(((({ wQueue 1 15 (wNode 3 0 3 State.reset) with chn.rx := [wRx 2 1 2 1 0 (List.replicate 64 7)] }.wr (CHN_ACL_A.VALID
      15) 1).wr (CHN_ACL_A.KIND 15) 1).wr (CHN_ACL_A.SRC_HI 15) 2).wr (CHN_ACL_B.CNT 15) 63), (wRx 2 1 2 1 0 (List.replicate
      64 7)), (wDesc 15), clean_queue (by decide +kernel), by decide +kernel⟩,
    ⟨{ wNode 3 0 3 State.reset with chn.rx := [wRx 15 0 2 0 0 []] }, (wRx 15 0 2 0 0 []), by decide +kernel⟩,
    ⟨{ wNode 3 0 3 State.reset with chn.rx := [wRx 3 0 2 0 0 []] }, (wRx 3 0 2 0 0 []), by decide +kernel⟩,
    ⟨{ wNode 3 0 3 State.reset with chn.rx := [wRx 3 0 2 0 1 []] }, (wRx 3 0 2 0 1 []), by decide +kernel⟩,
    ⟨{ State.reset with chn.snap := some (5, 1) }, 5, 1, by decide +kernel⟩,
    ⟨{ wNode 3 0 3 State.reset with chn.rx := [wRx 6 1 2 0 0 []] }, (wRx 6 1 2 0 0 []), by decide +kernel⟩⟩

/-- O46. -/
theorem meets_ChainServices_4 :
    (∃ (s : State) (r : RxFrame), let first (want : RxFrame → Bool) : Prop := s.chn.rx.find? want = some r;
      let batch (x : RxFrame) : Bool := x.frame.cls == clsDebug && x.frame.sub == 0; s.rd DBG_STAT.FROST = 0 ∧ s.rd
      CHN_STAT.CC_RESTART = 0 ∧ first batch ∧ r.frame.enc = false) ∧
    (∃ (s : State) (r : RxFrame), let first (want : RxFrame → Bool) : Prop := s.chn.rx.find? want = some r;
      let batch (x : RxFrame) : Bool := x.frame.cls == clsDebug && x.frame.sub == 0; let a := r.frame.src; s.rd
      DBG_STAT.FROST = 0 ∧ s.rd CHN_STAT.CC_RESTART = 0 ∧ first batch ∧ r.frame.enc = true ∧ r.text = [] ∧ ((∀ x ∈
      s.chn.keys, x.peer ≠ a ∨ x.num ≠ r.frame.h2 / 2 ^ 56))) :=
  ⟨⟨{ wNode 3 0 3 State.reset with chn.rx := [wRx 6 0 2 0 0 []] }, (wRx 6 0 2 0 0 []), by decide +kernel⟩,
    ⟨{ State.reset with chn.rx := [⟨0, ⟨6 + 16 + 3 * 2 ^ 8 + 2 * 2 ^ 16 + 2 ^ 56, 0, 0, []⟩, [], some 1, 0⟩] }, ⟨0, ⟨6 + 16
      + 3 * 2 ^ 8 + 2 * 2 ^ 16 + 2 ^ 56, 0, 0, []⟩, [], some 1, 0⟩, by decide +kernel⟩⟩

/-- O47. -/
theorem meets_RecipeTransfers_1 :
    (∃ (s : State) (r : RxFrame) (t : State), let none_ (k : Nat) : Prop := ∀ x ∈ s.chn.rx, x.recipe k = false; s.rd
      DBG_STAT.FROST = 0 ∧ s.rd CHN_STAT.CC_RESTART = 0 ∧ s.routeTo r.frame.src = none ∧ r.frame.src ≠ 255 ∧ r.frame.enc =
      false ∧ none_ 0 ∧ none_ 1 ∧ none_ 2 ∧ none_ 3 ∧ t.rd CHN_STAT.CC_RESTART = 1) ∧
    (∃ (s : State) (r : RxFrame), let first (k : Nat) : Prop := s.chn.rx.find? (fun x => x.recipe k) = some r; s.rd
      DBG_STAT.FROST = 0 ∧ s.rd CHN_STAT.CC_RESTART = 0 ∧ s.routeTo r.frame.src = none ∧ r.frame.src ≠ 255 ∧ r.frame.enc =
      false ∧ first 0 ∧ s.rcpOpen = false ∧ r.frame.dst ≠ 255 ∧ r.frame.src ≠ 0 ∧ r.frame.cls ≠ clsNak) ∧
    (∃ (s : State) (r : RxFrame), let first (k : Nat) : Prop := s.chn.rx.find? (fun x => x.recipe k) = some r; s.rd
      DBG_STAT.FROST = 0 ∧ s.rd CHN_STAT.CC_RESTART = 0 ∧ s.routeTo r.frame.src = none ∧ r.frame.src ≠ 255 ∧ r.frame.enc =
      false ∧ first 1 ∧ s.rcpOpen = false ∧ r.frame.dst ≠ 255 ∧ r.frame.src ≠ 0 ∧ r.frame.cls ≠ clsNak) ∧
    (∃ (s : State) (r : RxFrame), let first (k : Nat) : Prop := s.chn.rx.find? (fun x => x.recipe k) = some r; s.rd
      DBG_STAT.FROST = 0 ∧ s.rd CHN_STAT.CC_RESTART = 0 ∧ s.routeTo r.frame.src = none ∧ r.frame.src ≠ 255 ∧ r.frame.enc =
      false ∧ first 3 ∧ s.rcpOpen = false ∧ r.frame.dst ≠ 255 ∧ r.frame.src ≠ 0 ∧ r.frame.cls ≠ clsNak) ∧
    (∃ (s : State) (r : RxFrame), let first (k : Nat) : Prop := s.chn.rx.find? (fun x => x.recipe k) = some r; s.rd
      DBG_STAT.FROST = 0 ∧ s.rd CHN_STAT.CC_RESTART = 0 ∧ s.routeTo r.frame.src = none ∧ r.frame.src ≠ 255 ∧ r.frame.enc =
      false ∧ first 0 ∧ s.rcpOpen = true ∧ r.text.length = 40 ∧ s.inLull = false) ∧
    (∃ (s : State) (r : RxFrame), let first (k : Nat) : Prop := s.chn.rx.find? (fun x => x.recipe k) = some r;
      let len := ofBytes (r.text.take 8); s.rd DBG_STAT.FROST = 0 ∧ s.rd CHN_STAT.CC_RESTART = 0 ∧ s.routeTo r.frame.src =
      none ∧ r.frame.src ≠ 255 ∧ r.frame.enc = false ∧ first 0 ∧ s.rcpOpen = true ∧ r.text.length = 40 ∧ s.inLull = true ∧
      0x8000000 < len) :=
  ⟨⟨State.reset, (wRx 1 0 2 0 0 []), (State.reset.wr CHN_STAT.CC_RESTART 1), by decide +kernel⟩,
    ⟨{ wNode 3 0 0 State.reset with chn.rx := [wRx 4 0 2 0 0 []] }, (wRx 4 0 2 0 0 []), by decide +kernel⟩,
    ⟨{ wNode 3 0 0 State.reset with chn.rx := [wRx 4 1 2 0 0 []] }, (wRx 4 1 2 0 0 []), by decide +kernel⟩,
    ⟨{ wNode 3 0 0 State.reset with chn.rx := [wRx 4 3 2 0 0 []] }, (wRx 4 3 2 0 0 []), by decide +kernel⟩,
    ⟨({ wNode 3 0 0 State.reset with chn.rx := [wRx 4 0 2 0 0 (toBytes 8 1 ++ List.replicate 32 0)] }.wr CHN_CTL.RCP_EN 1),
      (wRx 4 0 2 0 0 (toBytes 8 1 ++ List.replicate 32 0)), by decide +kernel⟩,
    ⟨({ wNode 3 0 0 State.reset with chn.rx := [wRx 4 0 2 0 0 (toBytes 8 0x8000001 ++ List.replicate 32 0)] }.wr
      RST_STAT.LULL 1), (wRx 4 0 2 0 0 (toBytes 8 0x8000001 ++ List.replicate 32 0)), by decide +kernel⟩⟩

/-- O47. -/
theorem meets_RecipeTransfers_2 :
    (∃ (s : State) (r : RxFrame), let first (k : Nat) : Prop := s.chn.rx.find? (fun x => x.recipe k) = some r;
      let len := ofBytes (r.text.take 8); s.rd DBG_STAT.FROST = 0 ∧ s.rd CHN_STAT.CC_RESTART = 0 ∧ s.routeTo r.frame.src =
      none ∧ r.frame.src ≠ 255 ∧ r.frame.enc = false ∧ first 0 ∧ s.rcpOpen = true ∧ r.text.length = 40 ∧ s.inLull = true ∧
      len ≤ 0x8000000) ∧
    (∃ (s : State) (r : RxFrame), let first (k : Nat) : Prop := s.chn.rx.find? (fun x => x.recipe k) = some r; s.rd
      DBG_STAT.FROST = 0 ∧ s.rd CHN_STAT.CC_RESTART = 0 ∧ s.routeTo r.frame.src = none ∧ r.frame.src ≠ 255 ∧ r.frame.enc =
      false ∧ first 1 ∧ s.rcpOpen = true ∧ s.rcpMine r = false) ∧
    (∃ (s : State) (r : RxFrame), let first (k : Nat) : Prop := s.chn.rx.find? (fun x => x.recipe k) = some r;
      let c := r.frame.arg % 2 ^ 16; let want := min 2048 (s.chn.rcpLen - 2048 * c); s.rd DBG_STAT.FROST = 0 ∧ s.rd
      CHN_STAT.CC_RESTART = 0 ∧ s.routeTo r.frame.src = none ∧ r.frame.src ≠ 255 ∧ r.frame.enc = false ∧ first 1 ∧ s.rcpOpen
      = true ∧ s.rcpMine r = true ∧ (c ≠ s.rd CHN_RSTAT.NEXT ∨ want = 0 ∨ r.text.length ≠ want)) ∧
    (∃ (s : State) (r : RxFrame), let first (k : Nat) : Prop := s.chn.rx.find? (fun x => x.recipe k) = some r;
      let c := r.frame.arg % 2 ^ 16; let want := min 2048 (s.chn.rcpLen - 2048 * c);
      let bulk (n : Nat) : Prop := inBulk (s.stageBase) n = true ∧ s.pwr.asserted ≤ 1 ∧ s.bulk.redir = [] ∧ s.bulk.ueGran = [] ∧ ∀ g, bulkBase / 8 ≤ g → g < bulkEnd / 8 → s.sound g;
      bulk (2048 * c + want) ∧ s.rd DBG_STAT.FROST = 0 ∧ s.rd CHN_STAT.CC_RESTART = 0 ∧ s.routeTo r.frame.src = none ∧
      r.frame.src ≠ 255 ∧ r.frame.enc = false ∧ first 1 ∧ s.rcpOpen = true ∧ s.rcpMine r = true ∧ c = s.rd CHN_RSTAT.NEXT ∧
      want ≠ 0 ∧ r.text.length = want ∧ (s.chn.rcpRun + 1) % 16 ≠ 0) ∧
    (∃ (s : State) (r : RxFrame), let first (k : Nat) : Prop := s.chn.rx.find? (fun x => x.recipe k) = some r; s.rd
      DBG_STAT.FROST = 0 ∧ s.rd CHN_STAT.CC_RESTART = 0 ∧ s.routeTo r.frame.src = none ∧ r.frame.src ≠ 255 ∧ r.frame.enc =
      false ∧ first 2 ∧ 2 ≤ bits r.frame.arg 19 16) ∧
    (∃ (s : State) (r : RxFrame), let first (k : Nat) : Prop := s.chn.rx.find? (fun x => x.recipe k) = some r;
      let c := r.frame.arg % 2 ^ 16;
      let bulk (n : Nat) : Prop := inBulk (s.stageBase) n = true ∧ s.pwr.asserted ≤ 1 ∧ s.bulk.redir = [] ∧ s.bulk.ueGran = [] ∧ ∀ g, bulkBase / 8 ≤ g → g < bulkEnd / 8 → s.sound g;
      bulk 64 ∧ s.rd DBG_STAT.FROST = 0 ∧ s.rd CHN_STAT.CC_RESTART = 0 ∧ s.routeTo r.frame.src = none ∧ r.frame.src ≠ 255 ∧
      r.frame.enc = false ∧ first 2 ∧ bits r.frame.arg 19 16 < 2 ∧ fieldOf (s.bytes s.stageBase 64) 0x10 4 ≤ 2048 * c) :=
  ⟨⟨({ wNode 3 0 0 State.reset with chn.rx := [wRx 4 0 2 0 0 (toBytes 8 0x8000000 ++ List.replicate 32 0)] }.wr
      RST_STAT.LULL 1), (wRx 4 0 2 0 0 (toBytes 8 0x8000000 ++ List.replicate 32 0)), by decide +kernel⟩,
    ⟨({ wNode 3 0 0 State.reset with chn.rx := [wRx 4 1 2 0 0 []] }.wr CHN_CTL.RCP_EN 1), (wRx 4 1 2 0 0 []),
      by decide +kernel⟩,
    ⟨(({ wNode 3 0 0 State.reset with chn.rx := [wRx 4 1 2 1 0 (List.replicate 2048 7)], chn.rcpLen := 4096 }.wr
      CHN_CTL.RCP_EN 1).wr CHN_RSTAT.SRC 2), (wRx 4 1 2 1 0 (List.replicate 2048 7)), by decide +kernel⟩,
    ⟨((({ wNode 3 0 0 State.reset with chn.rx := [wRx 4 1 2 0 0 (List.replicate 64 7)], chn.rcpLen := 64 }.wr CHN_CTL.RCP_EN
      1).wr CHN_RSTAT.SRC 2).wr CHN_RSTAGE_HI.ADDR_HI 8), (wRx 4 1 2 0 0 (List.replicate 64 7)), ⟨by decide +kernel,
      by decide +kernel, by decide +kernel, by decide +kernel, fun g _ _ => clean_sound (by decide +kernel) g⟩,
      by decide +kernel⟩,
    ⟨{ wNode 3 0 0 State.reset with chn.rx := [wRx 4 2 2 131072 0 []] }, (wRx 4 2 2 131072 0 []), by decide +kernel⟩,
    ⟨({ wNode 3 0 0 State.reset with chn.rx := [wRx 4 2 2 0 0 []] }.wr CHN_RSTAGE_HI.ADDR_HI 8), (wRx 4 2 2 0 0 []),
      ⟨by decide +kernel, by decide +kernel, by decide +kernel, by decide +kernel,
      fun g _ _ => clean_sound (by decide +kernel) g⟩, by decide +kernel⟩⟩

/-- O47. -/
theorem meets_RecipeTransfers_3 :
    (∃ (s : State) (r : RxFrame), let first (k : Nat) : Prop := s.chn.rx.find? (fun x => x.recipe k) = some r;
      let c := r.frame.arg % 2 ^ 16;
      let bulk (n : Nat) : Prop := inBulk (s.stageBase) n = true ∧ s.pwr.asserted ≤ 1 ∧ s.bulk.redir = [] ∧ s.bulk.ueGran = [] ∧ ∀ g, bulkBase / 8 ≤ g → g < bulkEnd / 8 → s.sound g;
      bulk (2048 * c + 2048) ∧ s.rd DBG_STAT.FROST = 0 ∧ s.rd CHN_STAT.CC_RESTART = 0 ∧ s.routeTo r.frame.src = none ∧
      r.frame.src ≠ 255 ∧ r.frame.enc = false ∧ first 2 ∧ bits r.frame.arg 19 16 < 2 ∧ 2048 * c + 2048 ≤ fieldOf (s.bytes
      s.stageBase 64) 0x10 4) ∧
    (∃ (s : State) (r : RxFrame), let first (k : Nat) : Prop := s.chn.rx.find? (fun x => x.recipe k) = some r; s.rd
      DBG_STAT.FROST = 0 ∧ s.rd CHN_STAT.CC_RESTART = 0 ∧ s.routeTo r.frame.src = none ∧ r.frame.src ≠ 255 ∧ r.frame.enc =
      false ∧ first 3 ∧ s.rcpOpen = true ∧ s.rcpMine r = false) ∧
    (∃ (s : State) (r : RxFrame), let first (k : Nat) : Prop := s.chn.rx.find? (fun x => x.recipe k) = some r;
      let bulk (n : Nat) : Prop := inBulk (s.stageBase) n = true ∧ s.pwr.asserted ≤ 1 ∧ s.bulk.redir = [] ∧ s.bulk.ueGran = [] ∧ ∀ g, bulkBase / 8 ≤ g → g < bulkEnd / 8 → s.sound g;
      bulk s.chn.rcpLen ∧ s.rd DBG_STAT.FROST = 0 ∧ s.rd CHN_STAT.CC_RESTART = 0 ∧ s.routeTo r.frame.src = none ∧
      r.frame.src ≠ 255 ∧ r.frame.enc = false ∧ first 3 ∧ s.rcpOpen = true ∧ s.rcpMine r = true) :=
  ⟨⟨(({ wNode 3 0 0 State.reset with chn.rx := [wRx 4 2 2 0 0 []] }.wr CHN_RSTAGE_HI.ADDR_HI 8).setNum 0x800000010 4 2048),
      (wRx 4 2 2 0 0 []), ⟨by decide +kernel, by decide +kernel, by decide +kernel, by decide +kernel,
      fun g _ _ => clean_sound (by decide +kernel) g⟩, by decide +kernel⟩,
    ⟨({ wNode 3 0 0 State.reset with chn.rx := [wRx 4 3 2 0 0 []] }.wr CHN_CTL.RCP_EN 1), (wRx 4 3 2 0 0 []),
      by decide +kernel⟩,
    ⟨((({ wNode 3 0 0 State.reset with chn.rx := [wRx 4 3 2 0 0 []], chn.rcpLen := 64 }.wr CHN_CTL.RCP_EN 1).wr
      CHN_RSTAT.SRC 2).wr CHN_RSTAGE_HI.ADDR_HI 8), (wRx 4 3 2 0 0 []), ⟨by decide +kernel, by decide +kernel,
      by decide +kernel, by decide +kernel, fun g _ _ => clean_sound (by decide +kernel) g⟩, by decide +kernel⟩⟩

/-- O48. -/
theorem meets_ArchiveControl_1 :
    (∃ (s : State), let a := s.rd ARC_FW_BASE_LO.ADDR_LO * 4096 + s.rd ARC_FW_BASE_HI.ADDR_HI * 2 ^ 32;
      let n := min (s.rd ARC_FW_LEN.LEN) 0x80000;
      let image : Prop := inBulk a n = true ∧ s.pwr.asserted ≤ 1 ∧ s.bulk.redir = [] ∧ s.bulk.ueGran = [] ∧ ∀ g, bulkBase / 8 ≤ g → g < bulkEnd / 8 → s.sound g;
      image ∧ ((s.rd ARC_STAT.STATE = arcOff ∨ s.rd ARC_STAT.STATE = arcFault)) ∧ s.rd PWR_DOWN.ARC = 0) ∧
    (∃ (s : State) (probes : List DriveProbe), s.rd ARC_STAT.STATE ≠ arcOff ∧ s.rd ARC_STAT.STATE ≠ arcFault ∧ s.rd
      ARC_STAT.STATE = arcRecovering ∧ s.arcStill = false ∧ probes.Pairwise (fun x y => x.drive ≠ y.drive)) ∧
    (∃ (s : State) (p : DriveProbe) (d : Fin 4), let active : Prop := s.rd (ARC_DRV.STATE d) = drvActive;
      let hit := s.arc.reqs.filter (fun r => r.drive == d.val); s.rd ARC_STAT.STATE ≠ arcRecovering ∧ s.rd (ARC_DRV.STATE
      p.drive) ≠ drvFailed ∧ (s.rd ARC_STAT.STATE = arcOff ∨ s.rd ARC_STAT.STATE = arcFault) ∧ (¬active) ∧ s.arcStill =
      false ∧ hit = [] ∧ (s.drive d).dirty = false) ∧
    (∃ (s : State) (p : DriveProbe), s.rd ARC_STAT.STATE = arcReady ∧ s.arcStill = false ∧ s.rd (ARC_DRV.STATE p.drive) =
      drvFailed) ∧
    (∃ (s : State) (d : Fin 4), let active : Prop := s.rd (ARC_DRV.STATE d) = drvActive; active) ∧
    (∃ (s : State) (d : Fin 4) (r : _), let active : Prop := s.rd (ARC_DRV.STATE d) = drvActive; s.arcStill = false ∧
      s.arc.reqs.find? (fun r => r.drive == d.val) = some r ∧ r.retried = true ∧ active) :=
  ⟨⟨(State.reset.wr ARC_FW_BASE_HI.ADDR_HI 8), ⟨by decide +kernel, by decide +kernel, by decide +kernel, by decide +kernel,
      fun g _ _ => clean_sound (by decide +kernel) g⟩, by decide +kernel⟩,
    ⟨(State.reset.wr ARC_STAT.STATE arcRecovering), [⟨0, true, true, 3, 4, 1000⟩, ⟨3, false, false, 0, 0, 0⟩],
      by decide +kernel⟩,
    ⟨State.reset, ⟨3, true, true, 3, 4, 1000⟩, 3, by decide +kernel⟩,
    ⟨((State.reset.wr ARC_STAT.STATE arcReady).wr (ARC_DRV.STATE 3) drvFailed), ⟨3, true, true, 3, 4, 1000⟩,
      by decide +kernel⟩,
    ⟨(State.reset.wr (ARC_DRV.STATE 3) drvActive), 3, by decide +kernel⟩,
    ⟨{ (State.reset.wr (ARC_DRV.STATE 3) drvActive) with arc.reqs := [⟨3, 2, 1, true, true, []⟩] }, 3, ⟨3, 2, 1, true, true,
      []⟩, by decide +kernel⟩⟩

/-- O48. -/
theorem meets_ArchiveControl_2 :
    (∃ (s : State) (d : Fin 4) (r : _), s.arcStill = false ∧ s.arc.reqs.find? (fun r => r.drive == d.val) = some r ∧
      r.retried = false) ∧
    (∃ (s : State), s.rd ARC_STAT.STATE = arcReady ∧ s.arcStill = false) ∧
    (∃ (s : State) (d : Fin 4), let active : Prop := s.rd (ARC_DRV.STATE d) = drvActive; active ∧ s.arcStill = false ∧
      (s.drive d).dirty = true) :=
  ⟨⟨{ State.reset with arc.reqs := [⟨3, 2, 1, true, false, []⟩] }, 3, ⟨3, 2, 1, true, false, []⟩, by decide +kernel⟩,
    ⟨(State.reset.wr ARC_STAT.STATE arcReady), by decide +kernel⟩,
    ⟨{ (State.reset.wr (ARC_DRV.STATE 3) drvActive) with arc.drives := [(3, { ArcDrive.empty with dirty := true })] }, 3,
      by decide +kernel⟩⟩

/-- O49. -/
theorem meets_ArchiveRequests_1 :
    (∃ (s : State) (d : QDesc) (m : List Byte), let q := s.rd ARC_RQUEUE.QUEUE; let cq := s.rd ARC_CQUEUE.QUEUE;
      let works : Prop := s.rd ARC_STAT.STATE = arcReady ∧ s.arcStill = false;
      let takes : Prop := works ∧ s.arc.comps.length < 64 ∧ s.queueAt q d ∧ 0 < d.depth ∧ s.bytes (d.slotAddr d.head) 64 = m;
      let held : Prop := s.arc.comps ≠ [] ∨ cq ∉ s.que.attached; takes ∧ held ∧ msgNum m 0 1 ≠ 1 ∧ msgNum m 0 1 ≠ 2) ∧
    (∃ (s : State) (d : QDesc) (m : List Byte), let q := s.rd ARC_RQUEUE.QUEUE; let cq := s.rd ARC_CQUEUE.QUEUE;
      let works : Prop := s.rd ARC_STAT.STATE = arcReady ∧ s.arcStill = false;
      let takes : Prop := works ∧ s.arc.comps.length < 64 ∧ s.queueAt q d ∧ 0 < d.depth ∧ s.bytes (d.slotAddr d.head) 64 = m;
      let held : Prop := s.arc.comps ≠ [] ∨ cq ∉ s.que.attached; let len := msgNum m 4 4; let buf := msgNum m 8 8; takes ∧
      held ∧ msgNum m 0 1 = 1 ∧ (16777152 < len ∨ (s.arcInWindow buf len = false ∧ arcInLattice buf len = false))) ∧
    (∃ (s : State) (d : QDesc) (m : List Byte), let q := s.rd ARC_RQUEUE.QUEUE; let cq := s.rd ARC_CQUEUE.QUEUE;
      let works : Prop := s.rd ARC_STAT.STATE = arcReady ∧ s.arcStill = false;
      let takes : Prop := works ∧ s.arc.comps.length < 64 ∧ s.queueAt q d ∧ 0 < d.depth ∧ s.bytes (d.slotAddr d.head) 64 = m;
      let held : Prop := s.arc.comps ≠ [] ∨ cq ∉ s.que.attached; let len := msgNum m 4 4; let buf := msgNum m 8 8; takes ∧
      held ∧ msgNum m 0 1 = 1 ∧ len ≤ 16777152 ∧ s.arcInWindow buf len = true ∧ s.arcNext = none) ∧
    (∃ (s : State) (d : QDesc) (m : List Byte) (x : _), let q := s.rd ARC_RQUEUE.QUEUE;
      let works : Prop := s.rd ARC_STAT.STATE = arcReady ∧ s.arcStill = false;
      let takes : Prop := works ∧ s.arc.comps.length < 64 ∧ s.queueAt q d ∧ 0 < d.depth ∧ s.bytes (d.slotAddr d.head) 64 = m;
      let len := msgNum m 4 4; let buf := msgNum m 8 8; let n := s.arc.nextSeq;
      let apart (n : Nat) : Prop := buf + n ≤ s.queDescAddr q ∨ s.queDescAddr q + 32 ≤ buf;
      let b := (64 + len + 4095) / 4096; takes ∧ msgNum m 0 1 = 1 ∧ len ≤ 16777152 ∧ s.arcInWindow buf len = true ∧ apart
      len ∧ s.arcNext = some x ∧ (s.arc.reqs.filter (fun r => r.drive == x)).length < 256 ∧ 2 + b ≤ (s.drive x).cap) ∧
    (∃ (s : State) (d : QDesc) (m : List Byte), let q := s.rd ARC_RQUEUE.QUEUE; let cq := s.rd ARC_CQUEUE.QUEUE;
      let works : Prop := s.rd ARC_STAT.STATE = arcReady ∧ s.arcStill = false;
      let takes : Prop := works ∧ s.arc.comps.length < 64 ∧ s.queueAt q d ∧ 0 < d.depth ∧ s.bytes (d.slotAddr d.head) 64 = m;
      let held : Prop := s.arc.comps ≠ [] ∨ cq ∉ s.que.attached; let len := msgNum m 4 4; let buf := msgNum m 8 8; takes ∧
      held ∧ msgNum m 0 1 = 2 ∧ s.arcInWindow buf len = false) ∧
    (∃ (s : State) (d : QDesc) (m : List Byte), let q := s.rd ARC_RQUEUE.QUEUE; let cq := s.rd ARC_CQUEUE.QUEUE;
      let works : Prop := s.rd ARC_STAT.STATE = arcReady ∧ s.arcStill = false;
      let takes : Prop := works ∧ s.arc.comps.length < 64 ∧ s.queueAt q d ∧ 0 < d.depth ∧ s.bytes (d.slotAddr d.head) 64 = m;
      let held : Prop := s.arc.comps ≠ [] ∨ cq ∉ s.que.attached; let len := msgNum m 4 4; let buf := msgNum m 8 8;
      let seq := msgNum m 48 8; takes ∧ held ∧ msgNum m 0 1 = 2 ∧ s.arcInWindow buf len = true ∧ s.arcRecs.find?
      (fun x => x.2.seq == seq) = none) :=
  ⟨⟨(wArc (wMsg 3 0 0 0) State.reset), (wDesc 1), (wMsg 3 0 0 0), ⟨by decide +kernel, by decide +kernel, clean_queue
      (by decide +kernel), by decide +kernel, by decide +kernel⟩, by decide +kernel⟩,
    ⟨(wArc (wMsg 1 16777153 0x800010000 0) State.reset), (wDesc 1), (wMsg 1 16777153 0x800010000 0), ⟨by decide +kernel,
      by decide +kernel, clean_queue (by decide +kernel), by decide +kernel, by decide +kernel⟩, by decide +kernel⟩,
    ⟨(wArc (wMsg 1 100 0x800010000 0) State.reset), (wDesc 1), (wMsg 1 100 0x800010000 0), ⟨by decide +kernel,
      by decide +kernel, clean_queue (by decide +kernel), by decide +kernel, by decide +kernel⟩, by decide +kernel⟩,
    ⟨{ ((wArc (wMsg 1 100 0x800010000 0) State.reset).wr (ARC_DRV.STATE 0) drvActive) with arc.drives := [(0, { ArcDrive.empty with cap := 100, recs := [⟨2, 1, 5, true⟩] })] },
      (wDesc 1), (wMsg 1 100 0x800010000 0), 0, ⟨by decide +kernel, by decide +kernel, clean_queue (by decide +kernel),
      by decide +kernel, by decide +kernel⟩, by decide +kernel⟩,
    ⟨(wArc (wMsg 2 100 0x80 0) State.reset), (wDesc 1), (wMsg 2 100 0x80 0), ⟨by decide +kernel, by decide +kernel,
      clean_queue (by decide +kernel), by decide +kernel, by decide +kernel⟩, by decide +kernel⟩,
    ⟨(wArc (wMsg 2 100 0x800010000 5) State.reset), (wDesc 1), (wMsg 2 100 0x800010000 5), ⟨by decide +kernel,
      by decide +kernel, clean_queue (by decide +kernel), by decide +kernel, by decide +kernel⟩, by decide +kernel⟩⟩

/-- O49. -/
theorem meets_ArchiveRequests_2 :
    (∃ (s : State) (d : QDesc) (m : List Byte) (x : _) (r : _), let q := s.rd ARC_RQUEUE.QUEUE;
      let cq := s.rd ARC_CQUEUE.QUEUE; let works : Prop := s.rd ARC_STAT.STATE = arcReady ∧ s.arcStill = false;
      let takes : Prop := works ∧ s.arc.comps.length < 64 ∧ s.queueAt q d ∧ 0 < d.depth ∧ s.bytes (d.slotAddr d.head) 64 = m;
      let held : Prop := s.arc.comps ≠ [] ∨ cq ∉ s.que.attached; let len := msgNum m 4 4; let buf := msgNum m 8 8;
      let seq := msgNum m 48 8; let size := 64 + s.num (arcAt x r.lba + 8) 4; takes ∧ held ∧ msgNum m 0 1 = 2 ∧
      s.arcInWindow buf len = true ∧ s.arcRecs.find? (fun x => x.2.seq == seq) = some (x, r) ∧ len < size) ∧
    (∃ (s : State) (x : Fin 4), let works : Prop := s.rd ARC_STAT.STATE = arcReady ∧ s.arcStill = false; (¬works) ∧ s.rd
      (ARC_DRV.STATE x) ≠ drvActive) ∧
    (∃ (s : State) (x : Fin 4), let cq := s.rd ARC_CQUEUE.QUEUE;
      let works : Prop := s.rd ARC_STAT.STATE = arcReady ∧ s.arcStill = false;
      let held : Prop := s.arc.comps ≠ [] ∨ cq ∉ s.que.attached; works ∧ held ∧ s.rd (ARC_DRV.STATE x) = drvActive) ∧
    (∃ (s : State) (d : QDesc) (m : List Byte), let cq := s.rd ARC_CQUEUE.QUEUE;
      let works : Prop := s.rd ARC_STAT.STATE = arcReady ∧ s.arcStill = false; s.queueAt cq d ∧ works ∧ s.arc.comps = [m] ∧
      m.length = 64 ∧ d.depth < d.n) ∧
    (∃ (s : State), let cq := s.rd ARC_CQUEUE.QUEUE;
      let works : Prop := s.rd ARC_STAT.STATE = arcReady ∧ s.arcStill = false; works ∧ cq ∉ s.que.attached) :=
  ⟨⟨{ ((wArc (wMsg 2 63 0x800010000 5) State.reset).wr (ARC_DRV.STATE 0) drvActive) with arc.drives := [(0, { ArcDrive.empty with cap := 100, recs := [⟨2, 1, 5, true⟩] })] },
      (wDesc 1), (wMsg 2 63 0x800010000 5), 0, ⟨2, 1, 5, true⟩, ⟨by decide +kernel, by decide +kernel, clean_queue
      (by decide +kernel), by decide +kernel, by decide +kernel⟩, by decide +kernel⟩,
    ⟨State.reset, 3, by decide +kernel⟩,
    ⟨((State.reset.wr ARC_STAT.STATE arcReady).wr (ARC_DRV.STATE 3) drvActive), 3, by decide +kernel⟩,
    ⟨{ (wArc [] State.reset).wr ARC_CQUEUE.QUEUE 1 with arc.comps := [List.replicate 64 7] }, (wDesc 1), (List.replicate 64
      7), clean_queue (by decide +kernel), by decide +kernel⟩,
    ⟨(State.reset.wr ARC_STAT.STATE arcReady), by decide +kernel⟩⟩

/-- O50. -/
theorem meets_PowerStates :
    (∃ (s : State),
      let may : Prop := s.rd SCH_STAT.STATE = 0 ∧ (∀ n, n < 8 → s.rd (MV_STAT.BUSY n) = 0) ∧ (s.rd ARC_STAT.STATE = 0 ∨ s.rd ARC_STAT.STATE = 4) ∧ s.rd DBG_STAT.HALTED = 0 ∧ s.pwr.state = .run;
      let slot : Prop := s.icu.latch ≠ 0 ∧ s.rd AOW_CTL.WAKE_EN = 1;
      let draws : Prop := s.pwr.mayU = true ∨ s.pwr.mayD = true; may ∧ (s.pwr.state ≠ .idle ∨ (¬slot ∧ s.pwr.wakeChain =
      false)) ∧ s.pwr.state ≠ .dormant ∧ (s.pwr.state ≠ .off ∨ ¬draws) ∧ (s.pwr.state = .run ∨ s.pwr.state = .idle) ∧
      s.pwr.state ≠ .off ∧ (¬draws)) ∧
    (∃ (s : State),
      let may : Prop := s.rd SCH_STAT.STATE = 0 ∧ (∀ n, n < 8 → s.rd (MV_STAT.BUSY n) = 0) ∧ (s.rd ARC_STAT.STATE = 0 ∨ s.rd ARC_STAT.STATE = 4) ∧ s.rd DBG_STAT.HALTED = 0 ∧ s.pwr.state = .run;
      (¬may)) ∧
    (∃ (s : State), let slot : Prop := s.icu.latch ≠ 0 ∧ s.rd AOW_CTL.WAKE_EN = 1; s.pwr.state = .idle ∧ (slot ∨
      s.pwr.wakeChain = true)) ∧
    (∃ (s : State), s.pwr.state = .dormant ∧ s.regsWf = true) ∧
    (∃ (s : State), let draws : Prop := s.pwr.mayU = true ∨ s.pwr.mayD = true; s.pwr.state = .off ∧ draws) ∧
    (∃ (s : State), let draws : Prop := s.pwr.mayU = true ∨ s.pwr.mayD = true; (s.pwr.state = .off ∨ s.pwr.state = .dormant)
      ∧ (s.pwr.state = .off ∨ draws)) :=
  ⟨⟨State.reset, by decide +kernel⟩,
    ⟨{ State.reset with pwr.state := .idle }, by decide +kernel⟩,
    ⟨{ { State.reset with pwr.state := .idle } with pwr.wakeChain := true }, by decide +kernel⟩,
    ⟨{ State.reset with pwr.state := .dormant }, by decide +kernel⟩,
    ⟨{ { State.reset with pwr.state := .off } with pwr.mayU := true }, by decide +kernel⟩,
    ⟨{ State.reset with pwr.state := .off }, by decide +kernel⟩⟩

/-- O51. -/
theorem meets_Resets_1 :
    (∃ (s : State), s.regsWf = true ∧ (s.pwr.state = .run ∨ s.pwr.state = .idle) ∧ s.pwr.req = 1) ∧
    (∃ (s : State), s.regsWf = true ∧ (s.pwr.state = .run ∨ s.pwr.state = .idle) ∧ s.pwr.req = 2) ∧
    (∃ (s : State), s.regsWf = true ∧ (s.pwr.state = .run ∨ s.pwr.state = .idle) ∧ s.pwr.req = 3) ∧
    (∃ (s : State) (key : BitVec 16), let awake : Prop := s.pwr.state = .run ∨ s.pwr.state = .idle;
      let draws : Prop := s.pwr.mayU = true ∨ s.pwr.mayD = true; s.regsWf = true ∧ (s.pwr.state = .run ∨ s.pwr.state =
      .idle) ∧ s.pwr.req ≠ 1 ∧ s.pwr.req ≠ 2 ∧ s.pwr.req ≠ 3 ∧ awake ∧ (¬draws) ∧ (s.rd RST_STAT.WIN = 0 ∨ s.pwr.state ≠
      .run ∨ s.frozen 1 = true) ∧ s.rd RST_STAT.WIN = 0 ∧ (s.rd RST_WDT.EN = 0 ∨ s.pwr.state ≠ .run ∨ s.frozen 0 = true) ∧
      key = 0x5A5A) ∧
    (∃ (s : State), let awake : Prop := s.pwr.state = .run ∨ s.pwr.state = .idle; (¬awake)) ∧
    (∃ (s : State), let awake : Prop := s.pwr.state = .run ∨ s.pwr.state = .idle;
      let draws : Prop := s.pwr.mayU = true ∨ s.pwr.mayD = true; awake ∧ draws) :=
  ⟨⟨{ State.reset with pwr.req := 1 }, by decide +kernel⟩,
    ⟨{ State.reset with pwr.req := 2 }, by decide +kernel⟩,
    ⟨{ State.reset with pwr.req := 3 }, by decide +kernel⟩,
    ⟨State.reset, 0x5A5A, by decide +kernel⟩,
    ⟨{ State.reset with pwr.state := .off }, by decide +kernel⟩,
    ⟨{ State.reset with pwr.mayD := true }, by decide +kernel⟩⟩

/-- O51. -/
theorem meets_Resets_2 :
    (∃ (s : State), s.rd RST_STAT.WIN = 1 ∧ s.pwr.state = .run ∧ s.frozen 1 = false) ∧
    (∃ (s : State), s.rd RST_WDT.EN = 1 ∧ s.pwr.state = .run ∧ s.frozen 0 = false) ∧
    (∃ (s : State) (key : BitVec 16), key ≠ 0x5A5A) :=
  ⟨⟨(State.reset.wr RST_STAT.WIN 1), by decide +kernel⟩,
    ⟨(State.reset.wr RST_WDT.EN 1), by decide +kernel⟩,
    ⟨State.reset, 1, by decide +kernel⟩⟩

/-- O52. -/
theorem meets_Starts :
    (∃ (s : State), let released : Prop := s.pwr.asserted ≠ 0 ∧ s.pwr.req = 0 ∧ (s.pwr.state = .run ∨ s.pwr.state = .idle);
      s.rd DBG_CTL.HALTRST = 0 ∧ (¬released)) ∧
    (∃ (s : State), let released : Prop := s.pwr.asserted ≠ 0 ∧ s.pwr.req = 0 ∧ (s.pwr.state = .run ∨ s.pwr.state = .idle);
      s.rd DBG_CTL.HALTRST = 0 ∧ released) :=
  ⟨⟨State.reset, by decide +kernel⟩,
    ⟨{ State.reset with pwr.asserted := 3 }, by decide +kernel⟩⟩

/-- O53. -/
theorem meets_FlashEngine_1 :
    (∃ (s : State) (value : BitVec 32), let w := value.toNat; let idle : Prop := s.rd RST_FL_CTL.BUSY = 0;
      let plain : Prop := bitb w 29 = false ∧ bitb w 28 = false; plain ∧ idle ∧ bitb w 24 = false ∧ bitb w 31 = false ∧ bitb
      w 29 = false ∧ s.pwr.flash = none) ∧
    (∃ (s : State) (value : BitVec 32), let w := value.toNat; let idle : Prop := s.rd RST_FL_CTL.BUSY = 0;
      let plain : Prop := bitb w 29 = false ∧ bitb w 28 = false; plain ∧ (¬idle)) ∧
    (∃ (s : State) (value : BitVec 32), let w := value.toNat; let idle : Prop := s.rd RST_FL_CTL.BUSY = 0;
      let plain : Prop := bitb w 29 = false ∧ bitb w 28 = false; plain ∧ idle ∧ bitb w 24 = true) ∧
    (∃ (s : State) (dev : Nat) (op : Nat) (fa : Nat) (ba : Nat) (len : Nat), s.pwr.flash = some (dev, op, fa, ba, len)) ∧
    (∃ (s : State) (dev : Nat) (fa : Nat) (ba : Nat) (len : Nat), s.pwr.flash = some (dev, 3, fa, ba, len) ∧ fa + len ≤ 2 ^
      27) ∧
    (∃ (s : State) (dev : Nat) (op : Nat) (fa : Nat) (ba : Nat) (len : Nat), s.pwr.flash = some (dev, op, fa, ba, len) ∧ (2
      ^ 27 < fa + len ∨ (op = 0 ∧ len % 64 ≠ 0) ∨ (op = 1 ∧ (fa % 256 ≠ 0 ∨ len % 256 ≠ 0)) ∨ (op = 2 ∧ (fa % 4096 ≠ 0 ∨ len
      % 4096 ≠ 0)))) :=
  ⟨⟨State.reset, 0, by decide +kernel⟩,
    ⟨(State.reset.wr RST_FL_CTL.BUSY 1), 0, by decide +kernel⟩,
    ⟨State.reset, 0x01000000, by decide +kernel⟩,
    ⟨{ State.reset with pwr.flash := some (1, 0, 0, 0x800000000, 64) }, 1, 0, 0, 0x800000000, 64, by decide +kernel⟩,
    ⟨{ State.reset with pwr.flash := some (1, 3, (2 ^ 27 - 256), 0x800000000, 256) }, 1, (2 ^ 27 - 256), 0x800000000, 256,
      by decide +kernel⟩,
    ⟨{ State.reset with pwr.flash := some (1, 0, 0, 0x800000000, 63) }, 1, 0, 0, 0x800000000, 63, by decide +kernel⟩⟩

/-- O53. -/
theorem meets_FlashEngine_2 :
    (∃ (s : State) (dev : Nat) (fa : Nat) (ba : Nat) (len : Nat), let fits : Prop := fa + len ≤ 2 ^ 27 ∧ dev < 2;
      let bulk : Prop := inBulk ba len = true ∧ s.pwr.asserted ≤ 1 ∧ s.bulk.redir = [] ∧ s.bulk.ueGran = [] ∧ ∀ g, bulkBase / 8 ≤ g → g < bulkEnd / 8 → s.sound g;
      bulk ∧ s.pwr.flash = some (dev, 0, fa, ba, len) ∧ fits ∧ len % 64 = 0) ∧
    (∃ (s : State) (dev : Nat) (fa : Nat) (ba : Nat) (len : Nat), let fits : Prop := fa + len ≤ 2 ^ 27 ∧ dev < 2;
      let bulk : Prop := inBulk ba len = true ∧ s.pwr.asserted ≤ 1 ∧ s.bulk.redir = [] ∧ s.bulk.ueGran = [] ∧ ∀ g, bulkBase / 8 ≤ g → g < bulkEnd / 8 → s.sound g;
      bulk ∧ s.pwr.flash = some (dev, 1, fa, ba, len) ∧ fits ∧ fa % 256 = 0 ∧ len % 256 = 0) ∧
    (∃ (s : State) (dev : Nat) (fa : Nat) (ba : Nat) (len : Nat), let fits : Prop := fa + len ≤ 2 ^ 27 ∧ dev < 2;
      s.pwr.flash = some (dev, 2, fa, ba, len) ∧ fits ∧ fa % 4096 = 0 ∧ len % 4096 = 0) :=
  ⟨⟨{ State.reset with pwr.flash := some (1, 0, (2 ^ 27 - 64), 0x800000000, 64) }, 1, (2 ^ 27 - 64), 0x800000000, 64,
      ⟨by decide +kernel, by decide +kernel, by decide +kernel, by decide +kernel,
      fun g _ _ => clean_sound (by decide +kernel) g⟩, by decide +kernel⟩,
    ⟨{ State.reset with pwr.flash := some (1, 1, (2 ^ 27 - 256), 0x800000000, 256) }, 1, (2 ^ 27 - 256), 0x800000000, 256,
      ⟨by decide +kernel, by decide +kernel, by decide +kernel, by decide +kernel,
      fun g _ _ => clean_sound (by decide +kernel) g⟩, by decide +kernel⟩,
    ⟨{ State.reset with pwr.flash := some (1, 2, (2 ^ 27 - 4096), 0, 4096) }, 1, (2 ^ 27 - 4096), 0, 4096,
      by decide +kernel⟩⟩

/-- O54. -/
theorem meets_Lifecycle :
    (∃ (s : State) (arg : Fin 4) (src : BitVec 4), let n := s.sec.n; let k := arg.val;
      let m := if s.pwr.fail = true then Nat.land src.toNat 9 else src.toNat; (s.pwr.state = .run ∨ s.pwr.state = .idle) ∧ s.lifecycle = 0 ∧ (s.lifecycle ≠ 1 ∨ s.sec.prog % 16 = 0) ∧ (s.lifecycle ≠ 2 ∨ 126 < n) ∧ s.lifecycle ≠ 3 ∧ (s.lifecycle = 0 ∨ s.lifecycle = 4) ∧ (s.lifecycle ≠ 1 ∨ bitb s.sec.prog k = true) ∧ ((∀ j, j < 4 → j ≠ k → s.slotUsable j = false)) ∧ (m = 0 ∨ s.lifecycle = 0)) ∧
    (∃ (s : State) (arg : Fin 4) (src : BitVec 4), let k := arg.val;
      let m := if s.pwr.fail = true then Nat.land src.toNat 9 else src.toNat; (s.pwr.state = .run ∨ s.pwr.state = .idle) ∧ s.lifecycle ≠ 0 ∧ (s.lifecycle = 1 ∨ s.lifecycle = 3) ∧ s.lifecycle = 1 ∧ bitb s.sec.prog k = false ∧ m ≠ 0) ∧
    (∃ (s : State), (s.pwr.state = .run ∨ s.pwr.state = .idle) ∧ s.lifecycle = 1 ∧ s.sec.prog % 16 ≠ 0) ∧
    (∃ (s : State), let n := s.sec.n; (s.pwr.state = .run ∨ s.pwr.state = .idle) ∧ s.lifecycle = 2 ∧ n ≤ 126) ∧
    (∃ (s : State), (s.pwr.state = .run ∨ s.pwr.state = .idle) ∧ s.lifecycle = 3) ∧
    (∃ (s : State) (arg : Fin 4), let k := arg.val; (s.pwr.state = .run ∨ s.pwr.state = .idle) ∧ ((∃ j, j < 4 ∧ j ≠ k ∧
      s.slotUsable j = true))) :=
  ⟨⟨State.reset, 3, 0, by decide +kernel⟩,
    ⟨{ State.reset with sec.n := 1 }, 3, 1, by decide +kernel⟩,
    ⟨{ { State.reset with sec.n := 1 } with sec.prog := 3 }, by decide +kernel⟩,
    ⟨{ State.reset with sec.n := 2 }, by decide +kernel⟩,
    ⟨{ State.reset with sec.n := 3 }, by decide +kernel⟩,
    ⟨{ State.reset with sec.prog := 3 }, 3, by decide +kernel⟩⟩

/-- O55. -/
theorem meets_DebugWire_1 :
    (∃ (s : State) (ps : List Nat), let powered : Prop := s.pwr.state = .run ∨ s.pwr.state = .idle;
      let active : Prop := powered ∧ s.rd DBG_STAT.LINK = 1;
      let even : Prop := ps.length = 8 ∧ (∀ p ∈ ps, 10 * p ≤ 11 * ps.headD 0 ∧ 9 * ps.headD 0 ≤ 10 * p) ∧ 16000 ≤ ps.foldl (· + ·) 0 ∧ ps.foldl (· + ·) 0 ≤ 112000;
      (¬active) ∧ powered ∧ s.rd DBG_STAT.LINK = 0 ∧ even) ∧
    (∃ (s : State) (crc : BitVec 8) (idx : BitVec 8) (v : BitVec 32) (a : BitVec 40),
      let powered : Prop := s.pwr.state = .run ∨ s.pwr.state = .idle; let active : Prop := powered ∧ s.rd DBG_STAT.LINK = 1;
      active ∧ crc8 (DCmd.drd idx.toNat).fields ≠ crc.toNat ∧ crc8 (DCmd.dwr idx.toNat v.toNat).fields ≠ crc.toNat ∧ crc8
      (DCmd.mrd a.toNat).fields ≠ crc.toNat ∧ crc8 (DCmd.mwr a.toNat v.toNat).fields ≠ crc.toNat ∧ crc8 (DCmd.mrdn).fields ≠
      crc.toNat ∧ crc8 (DCmd.mwrn v.toNat).fields ≠ crc.toNat ∧ crc8 (DCmd.rslt).fields ≠ crc.toNat) ∧
    (∃ (s : State) (crc : BitVec 8) (idx : BitVec 8), let powered : Prop := s.pwr.state = .run ∨ s.pwr.state = .idle;
      let active : Prop := powered ∧ s.rd DBG_STAT.LINK = 1;
      let good (c : DCmd) : Prop := active ∧ crc8 c.fields = crc.toNat; s.dbg.waits = true ∧ good (.drd idx.toNat)) ∧
    (∃ (s : State) (crc : BitVec 8) (idx : BitVec 8) (v : BitVec 32),
      let powered : Prop := s.pwr.state = .run ∨ s.pwr.state = .idle; let active : Prop := powered ∧ s.rd DBG_STAT.LINK = 1;
      let good (c : DCmd) : Prop := active ∧ crc8 c.fields = crc.toNat; s.dbg.waits = true ∧ good (.dwr idx.toNat v.toNat)) ∧
    (∃ (s : State) (crc : BitVec 8) (a : BitVec 40), let powered : Prop := s.pwr.state = .run ∨ s.pwr.state = .idle;
      let active : Prop := powered ∧ s.rd DBG_STAT.LINK = 1;
      let good (c : DCmd) : Prop := active ∧ crc8 c.fields = crc.toNat; s.dbg.waits = true ∧ good (.mrd a.toNat)) ∧
    (∃ (s : State) (crc : BitVec 8) (v : BitVec 32) (a : BitVec 40),
      let powered : Prop := s.pwr.state = .run ∨ s.pwr.state = .idle; let active : Prop := powered ∧ s.rd DBG_STAT.LINK = 1;
      let good (c : DCmd) : Prop := active ∧ crc8 c.fields = crc.toNat; s.dbg.waits = true ∧ good (.mwr a.toNat v.toNat)) :=
  ⟨⟨State.reset, (List.replicate 8 2000), by decide +kernel⟩,
    ⟨(State.reset.wr DBG_STAT.LINK 1), 0, 9, 7, 0x10000000, by decide +kernel⟩,
    ⟨{ (State.reset.wr DBG_STAT.LINK 1) with dbg.waits := true }, (BitVec.ofNat 8 (crc8 (DCmd.drd 9).fields)), 9,
      by decide +kernel⟩,
    ⟨{ (State.reset.wr DBG_STAT.LINK 1) with dbg.waits := true }, (BitVec.ofNat 8 (crc8 (DCmd.dwr 11 7).fields)), 11, 7,
      by decide +kernel⟩,
    ⟨{ (State.reset.wr DBG_STAT.LINK 1) with dbg.waits := true }, (BitVec.ofNat 8 (crc8 (DCmd.mrd 0x10000000).fields)),
      0x10000000, by decide +kernel⟩,
    ⟨{ (State.reset.wr DBG_STAT.LINK 1) with dbg.waits := true }, (BitVec.ofNat 8 (crc8 (DCmd.mwr 0x10000000 7).fields)), 7,
      0x10000000, by decide +kernel⟩⟩

/-- O55. -/
theorem meets_DebugWire_2 :
    (∃ (s : State) (crc : BitVec 8), let powered : Prop := s.pwr.state = .run ∨ s.pwr.state = .idle;
      let active : Prop := powered ∧ s.rd DBG_STAT.LINK = 1;
      let good (c : DCmd) : Prop := active ∧ crc8 c.fields = crc.toNat; s.dbg.waits = true ∧ good .mrdn) ∧
    (∃ (s : State) (crc : BitVec 8) (v : BitVec 32), let powered : Prop := s.pwr.state = .run ∨ s.pwr.state = .idle;
      let active : Prop := powered ∧ s.rd DBG_STAT.LINK = 1;
      let good (c : DCmd) : Prop := active ∧ crc8 c.fields = crc.toNat; s.dbg.waits = true ∧ good (.mwrn v.toNat)) ∧
    (∃ (s : State) (crc : BitVec 8) (idx : BitVec 8), let powered : Prop := s.pwr.state = .run ∨ s.pwr.state = .idle;
      let active : Prop := powered ∧ s.rd DBG_STAT.LINK = 1;
      let good (c : DCmd) : Prop := active ∧ crc8 c.fields = crc.toNat; s.dbg.waits = false ∧ s.dbgFree = false ∧ good (.drd
      idx.toNat) ∧ idx.toNat ∉ [0, 8, 9, 14] ∧ (idx.toNat < 16 ∨ 24 ≤ idx.toNat)) ∧
    (∃ (s : State) (crc : BitVec 8) (idx : BitVec 8) (v : BitVec 32),
      let powered : Prop := s.pwr.state = .run ∨ s.pwr.state = .idle; let active : Prop := powered ∧ s.rd DBG_STAT.LINK = 1;
      let good (c : DCmd) : Prop := active ∧ crc8 c.fields = crc.toNat; s.dbg.waits = false ∧ s.dbgFree = false ∧ good (.dwr
      idx.toNat v.toNat) ∧ idx.toNat ≠ 10 ∧ (idx.toNat < 32 ∨ 48 ≤ idx.toNat)) ∧
    (∃ (s : State) (crc : BitVec 8) (a : BitVec 40), let powered : Prop := s.pwr.state = .run ∨ s.pwr.state = .idle;
      let active : Prop := powered ∧ s.rd DBG_STAT.LINK = 1;
      let good (c : DCmd) : Prop := active ∧ crc8 c.fields = crc.toNat; s.dbg.waits = false ∧ s.dbgFree = false ∧ good (.mrd
      a.toNat)) ∧
    (∃ (s : State) (crc : BitVec 8) (v : BitVec 32) (a : BitVec 40),
      let powered : Prop := s.pwr.state = .run ∨ s.pwr.state = .idle; let active : Prop := powered ∧ s.rd DBG_STAT.LINK = 1;
      let good (c : DCmd) : Prop := active ∧ crc8 c.fields = crc.toNat; s.dbg.waits = false ∧ s.dbgFree = false ∧ good (.mwr
      a.toNat v.toNat)) :=
  ⟨⟨{ (State.reset.wr DBG_STAT.LINK 1) with dbg.waits := true }, (BitVec.ofNat 8 (crc8 (DCmd.mrdn).fields)),
      by decide +kernel⟩,
    ⟨{ (State.reset.wr DBG_STAT.LINK 1) with dbg.waits := true }, (BitVec.ofNat 8 (crc8 (DCmd.mwrn 7).fields)), 7,
      by decide +kernel⟩,
    ⟨{ (State.reset.wr DBG_STAT.LINK 1) with sec.n := 2 }, (BitVec.ofNat 8 (crc8 (DCmd.drd 15).fields)), 15,
      by decide +kernel⟩,
    ⟨{ (State.reset.wr DBG_STAT.LINK 1) with sec.n := 2 }, (BitVec.ofNat 8 (crc8 (DCmd.dwr 31 7).fields)), 31, 7,
      by decide +kernel⟩,
    ⟨{ (State.reset.wr DBG_STAT.LINK 1) with sec.n := 2 }, (BitVec.ofNat 8 (crc8 (DCmd.mrd 0x10000000).fields)), 0x10000000,
      by decide +kernel⟩,
    ⟨{ (State.reset.wr DBG_STAT.LINK 1) with sec.n := 2 }, (BitVec.ofNat 8 (crc8 (DCmd.mwr 0x10000000 7).fields)), 7,
      0x10000000, by decide +kernel⟩⟩

/-- O55. -/
theorem meets_DebugWire_3 :
    (∃ (s : State) (crc : BitVec 8), let powered : Prop := s.pwr.state = .run ∨ s.pwr.state = .idle;
      let active : Prop := powered ∧ s.rd DBG_STAT.LINK = 1;
      let good (c : DCmd) : Prop := active ∧ crc8 c.fields = crc.toNat; s.dbg.waits = false ∧ s.dbgFree = false ∧ good
      .mrdn) ∧
    (∃ (s : State) (crc : BitVec 8) (v : BitVec 32), let powered : Prop := s.pwr.state = .run ∨ s.pwr.state = .idle;
      let active : Prop := powered ∧ s.rd DBG_STAT.LINK = 1;
      let good (c : DCmd) : Prop := active ∧ crc8 c.fields = crc.toNat; s.dbg.waits = false ∧ s.dbgFree = false ∧ good
      (.mwrn v.toNat)) ∧
    (∃ (s : State) (crc : BitVec 8), let powered : Prop := s.pwr.state = .run ∨ s.pwr.state = .idle;
      let active : Prop := powered ∧ s.rd DBG_STAT.LINK = 1;
      let good (c : DCmd) : Prop := active ∧ crc8 c.fields = crc.toNat;
      let free (c : DCmd) : Prop := good c ∧ s.dbg.waits = false ∧ s.dbgFree = true; free (.drd 8)) ∧
    (∃ (s : State) (crc : BitVec 8), let powered : Prop := s.pwr.state = .run ∨ s.pwr.state = .idle;
      let active : Prop := powered ∧ s.rd DBG_STAT.LINK = 1;
      let good (c : DCmd) : Prop := active ∧ crc8 c.fields = crc.toNat;
      let free (c : DCmd) : Prop := good c ∧ s.dbg.waits = false ∧ s.dbgFree = true; free (.drd 9)) ∧
    (∃ (s : State) (crc : BitVec 8), let powered : Prop := s.pwr.state = .run ∨ s.pwr.state = .idle;
      let active : Prop := powered ∧ s.rd DBG_STAT.LINK = 1;
      let good (c : DCmd) : Prop := active ∧ crc8 c.fields = crc.toNat;
      let free (c : DCmd) : Prop := good c ∧ s.dbg.waits = false ∧ s.dbgFree = true; free (.drd 11)) ∧
    (∃ (s : State) (crc : BitVec 8), let powered : Prop := s.pwr.state = .run ∨ s.pwr.state = .idle;
      let active : Prop := powered ∧ s.rd DBG_STAT.LINK = 1;
      let good (c : DCmd) : Prop := active ∧ crc8 c.fields = crc.toNat;
      let free (c : DCmd) : Prop := good c ∧ s.dbg.waits = false ∧ s.dbgFree = true; free (.drd 5) ∧ s.rd DBG_STAT.HALTED =
      1 ∧ s.rd DBG_RSEL.FILE = 0 ∧ s.rd DBG_RSEL.NUM < 32) :=
  ⟨⟨{ (State.reset.wr DBG_STAT.LINK 1) with sec.n := 2 }, (BitVec.ofNat 8 (crc8 (DCmd.mrdn).fields)), by decide +kernel⟩,
    ⟨{ (State.reset.wr DBG_STAT.LINK 1) with sec.n := 2 }, (BitVec.ofNat 8 (crc8 (DCmd.mwrn 7).fields)), 7,
      by decide +kernel⟩,
    ⟨(State.reset.wr DBG_STAT.LINK 1), (BitVec.ofNat 8 (crc8 (DCmd.drd 8).fields)), by decide +kernel⟩,
    ⟨(State.reset.wr DBG_STAT.LINK 1), (BitVec.ofNat 8 (crc8 (DCmd.drd 9).fields)), by decide +kernel⟩,
    ⟨(State.reset.wr DBG_STAT.LINK 1), (BitVec.ofNat 8 (crc8 (DCmd.drd 11).fields)), by decide +kernel⟩,
    ⟨((State.reset.wr DBG_STAT.LINK 1).wr DBG_STAT.HALTED 1), (BitVec.ofNat 8 (crc8 (DCmd.drd 5).fields)),
      by decide +kernel⟩⟩

/-- O55. -/
theorem meets_DebugWire_4 :
    (∃ (s : State) (crc : BitVec 8), let powered : Prop := s.pwr.state = .run ∨ s.pwr.state = .idle;
      let active : Prop := powered ∧ s.rd DBG_STAT.LINK = 1;
      let good (c : DCmd) : Prop := active ∧ crc8 c.fields = crc.toNat;
      let free (c : DCmd) : Prop := good c ∧ s.dbg.waits = false ∧ s.dbgFree = true; free (.drd 4) ∧ s.rd DBG_STAT.HALTED =
      1 ∧ 7 ≤ s.rd DBG_RSEL.FILE) ∧
    (∃ (s : State) (crc : BitVec 8), let powered : Prop := s.pwr.state = .run ∨ s.pwr.state = .idle;
      let active : Prop := powered ∧ s.rd DBG_STAT.LINK = 1;
      let good (c : DCmd) : Prop := active ∧ crc8 c.fields = crc.toNat;
      let free (c : DCmd) : Prop := good c ∧ s.dbg.waits = false ∧ s.dbgFree = true; free (.drd 4) ∧ s.rd DBG_STAT.HALTED =
      0) ∧
    (∃ (s : State) (crc : BitVec 8) (v : BitVec 32), let powered : Prop := s.pwr.state = .run ∨ s.pwr.state = .idle;
      let active : Prop := powered ∧ s.rd DBG_STAT.LINK = 1;
      let good (c : DCmd) : Prop := active ∧ crc8 c.fields = crc.toNat;
      let free (c : DCmd) : Prop := good c ∧ s.dbg.waits = false ∧ s.dbgFree = true; free (.dwr 3 v.toNat)) ∧
    (∃ (s : State) (crc : BitVec 8) (v : BitVec 32), let powered : Prop := s.pwr.state = .run ∨ s.pwr.state = .idle;
      let active : Prop := powered ∧ s.rd DBG_STAT.LINK = 1;
      let good (c : DCmd) : Prop := active ∧ crc8 c.fields = crc.toNat;
      let free (c : DCmd) : Prop := good c ∧ s.dbg.waits = false ∧ s.dbgFree = true; free (.dwr 11 v.toNat)) ∧
    (∃ (s : State) (crc : BitVec 8) (a : BitVec 40), let powered : Prop := s.pwr.state = .run ∨ s.pwr.state = .idle;
      let active : Prop := powered ∧ s.rd DBG_STAT.LINK = 1;
      let good (c : DCmd) : Prop := active ∧ crc8 c.fields = crc.toNat;
      let free (c : DCmd) : Prop := good c ∧ s.dbg.waits = false ∧ s.dbgFree = true;
      let here (x : Nat) : Prop := x % 4 = 0 ∧ s.inLocal 4 x; here a.toNat ∧ free (.mrd a.toNat)) ∧
    (∃ (s : State) (crc : BitVec 8), let powered : Prop := s.pwr.state = .run ∨ s.pwr.state = .idle;
      let active : Prop := powered ∧ s.rd DBG_STAT.LINK = 1;
      let good (c : DCmd) : Prop := active ∧ crc8 c.fields = crc.toNat;
      let free (c : DCmd) : Prop := good c ∧ s.dbg.waits = false ∧ s.dbgFree = true;
      let here (x : Nat) : Prop := x % 4 = 0 ∧ s.inLocal 4 x; here s.dbgMaddr ∧ free .mrdn) :=
  ⟨⟨(((State.reset.wr DBG_STAT.LINK 1).wr DBG_STAT.HALTED 1).wr DBG_RSEL.FILE 7), (BitVec.ofNat 8 (crc8 (DCmd.drd
      4).fields)), by decide +kernel⟩,
    ⟨(State.reset.wr DBG_STAT.LINK 1), (BitVec.ofNat 8 (crc8 (DCmd.drd 4).fields)), by decide +kernel⟩,
    ⟨(State.reset.wr DBG_STAT.LINK 1), (BitVec.ofNat 8 (crc8 (DCmd.dwr 3 7).fields)), 7, by decide +kernel⟩,
    ⟨(State.reset.wr DBG_STAT.LINK 1), (BitVec.ofNat 8 (crc8 (DCmd.dwr 11 7).fields)), 7, by decide +kernel⟩,
    ⟨(State.reset.wr DBG_STAT.LINK 1), (BitVec.ofNat 8 (crc8 (DCmd.mrd 0x10000000).fields)), 0x10000000, ⟨by decide +kernel,
      clean_local (by decide +kernel)⟩, by decide +kernel⟩,
    ⟨((State.reset.wr DBG_MADDR_LO.ADDR_LO 0x4000000).wr DBG_STAT.LINK 1), (BitVec.ofNat 8 (crc8 (DCmd.mrdn).fields)),
      ⟨by decide +kernel, clean_local (by decide +kernel)⟩, by decide +kernel⟩⟩

/-- O55. -/
theorem meets_DebugWire_5 :
    (∃ (s : State) (crc : BitVec 8) (v : BitVec 32) (a : BitVec 40),
      let powered : Prop := s.pwr.state = .run ∨ s.pwr.state = .idle; let active : Prop := powered ∧ s.rd DBG_STAT.LINK = 1;
      let good (c : DCmd) : Prop := active ∧ crc8 c.fields = crc.toNat;
      let free (c : DCmd) : Prop := good c ∧ s.dbg.waits = false ∧ s.dbgFree = true;
      let here (x : Nat) : Prop := x % 4 = 0 ∧ s.inLocal 4 x; here a.toNat ∧ free (.mwr a.toNat v.toNat)) ∧
    (∃ (s : State) (crc : BitVec 8) (v : BitVec 32), let powered : Prop := s.pwr.state = .run ∨ s.pwr.state = .idle;
      let active : Prop := powered ∧ s.rd DBG_STAT.LINK = 1;
      let good (c : DCmd) : Prop := active ∧ crc8 c.fields = crc.toNat;
      let free (c : DCmd) : Prop := good c ∧ s.dbg.waits = false ∧ s.dbgFree = true;
      let here (x : Nat) : Prop := x % 4 = 0 ∧ s.inLocal 4 x; here s.dbgMaddr ∧ free (.mwrn v.toNat)) ∧
    (∃ (s : State) (crc : BitVec 8) (a : BitVec 40), let powered : Prop := s.pwr.state = .run ∨ s.pwr.state = .idle;
      let active : Prop := powered ∧ s.rd DBG_STAT.LINK = 1;
      let good (c : DCmd) : Prop := active ∧ crc8 c.fields = crc.toNat;
      let free (c : DCmd) : Prop := good c ∧ s.dbg.waits = false ∧ s.dbgFree = true; free (.mrd a.toNat) ∧ a.toNat % 4 ≠ 0) ∧
    (∃ (s : State) (crc : BitVec 8), let powered : Prop := s.pwr.state = .run ∨ s.pwr.state = .idle;
      let active : Prop := powered ∧ s.rd DBG_STAT.LINK = 1;
      let good (c : DCmd) : Prop := active ∧ crc8 c.fields = crc.toNat; good .rslt ∧ s.dbg.waits = true ∧ s.dbgFree = true) ∧
    (∃ (s : State) (crc : BitVec 8), let powered : Prop := s.pwr.state = .run ∨ s.pwr.state = .idle;
      let active : Prop := powered ∧ s.rd DBG_STAT.LINK = 1;
      let good (c : DCmd) : Prop := active ∧ crc8 c.fields = crc.toNat;
      let free (c : DCmd) : Prop := good c ∧ s.dbg.waits = false ∧ s.dbgFree = true; free .rslt) ∧
    (∃ (s : State) (ps : List Nat), let powered : Prop := s.pwr.state = .run ∨ s.pwr.state = .idle;
      let even : Prop := ps.length = 8 ∧ (∀ p ∈ ps, 10 * p ≤ 11 * ps.headD 0 ∧ 9 * ps.headD 0 ≤ 10 * p) ∧ 16000 ≤ ps.foldl (· + ·) 0 ∧ ps.foldl (· + ·) 0 ≤ 112000;
      (¬powered ∨ s.rd DBG_STAT.LINK = 1 ∨ ¬even)) :=
  ⟨⟨(State.reset.wr DBG_STAT.LINK 1), (BitVec.ofNat 8 (crc8 (DCmd.mwr 0x10000000 7).fields)), 7, 0x10000000,
      ⟨by decide +kernel, clean_local (by decide +kernel)⟩, by decide +kernel⟩,
    ⟨((State.reset.wr DBG_MADDR_LO.ADDR_LO 0x4000000).wr DBG_STAT.LINK 1), (BitVec.ofNat 8 (crc8 (DCmd.mwrn 7).fields)), 7,
      ⟨by decide +kernel, clean_local (by decide +kernel)⟩, by decide +kernel⟩,
    ⟨(State.reset.wr DBG_STAT.LINK 1), (BitVec.ofNat 8 (crc8 (DCmd.mrd 0x10000002).fields)), 0x10000002, by decide +kernel⟩,
    ⟨{ (State.reset.wr DBG_STAT.LINK 1) with dbg.waits := true }, (BitVec.ofNat 8 (crc8 (DCmd.rslt).fields)),
      by decide +kernel⟩,
    ⟨(State.reset.wr DBG_STAT.LINK 1), (BitVec.ofNat 8 (crc8 (DCmd.rslt).fields)), by decide +kernel⟩,
    ⟨State.reset, [], by decide +kernel⟩⟩

/-- O55. -/
theorem meets_DebugWire_6 :
    ∃ (s : State), let powered : Prop := s.pwr.state = .run ∨ s.pwr.state = .idle; (¬powered) :=
  ⟨{ State.reset with pwr.state := .off }, by decide +kernel⟩

/-- O56. -/
theorem meets_RunControl_1 :
    (∃ (s : State) (value : BitVec 32), let w := value.toNat; let halted : Prop := s.rd DBG_STAT.HALTED = 1;
      let plain : Prop := bits w 31 29 = 0 ∧ bits w 24 22 = 0; let free : Prop := s.dbgFree = true ∧ plain;
      let mayStop : Prop := s.triClocked = true ∧ s.tri.slot = none ∧ s.tri.rpt = none; (s.pwr.state = .run ∨ s.pwr.state =
      .idle) ∧ (¬halted ∨ bit w 28 = s.rd DBG_CTL.MODE) ∧ free ∧ (¬halted) ∧ mayStop ∧ s.lifecycle ≠ 4 ∧ s.dbgFree = true ∧
      s.dbg.tx.length < 64 ∧ s.dbg.rx.length < 64 ∧ s.dbg.rx = []) ∧
    (∃ (s : State) (value : BitVec 32) (b : Byte), let w := value.toNat;
      let pauses (b : Nat) : Prop := s.rd DBG_CTL.MODE = 0 ∧ bit w 28 = 1 ∧ s.rd DBG_STAT.FROST = 0 ∧ bitb (s.rd DBG_FREEZE.BLOCKS) b = true;
      let halted : Prop := s.rd DBG_STAT.HALTED = 1; let n := s.rd DBG_RSEL.NUM; (s.pwr.state = .run ∨ s.pwr.state = .idle)
      ∧ halted ∧ pauses 1 ∧ pauses 0 ∧ s.dbgFree = true ∧ s.rd DBG_RSEL.FILE = 0 ∧ n < 32) ∧
    (∃ (s : State) (value : BitVec 32), let w := value.toNat; let plain : Prop := bits w 31 29 = 0 ∧ bits w 24 22 = 0;
      let free : Prop := s.dbgFree = true ∧ plain;
      let mayStop : Prop := s.triClocked = true ∧ s.tri.slot = none ∧ s.tri.rpt = none;
      let halted : Prop := s.rd DBG_STAT.HALTED = 1; (s.pwr.state = .run ∨ s.pwr.state = .idle) ∧ free ∧ (¬halted) ∧
      (¬mayStop)) ∧
    (∃ (s : State) (value : BitVec 32), let w := value.toNat; let plain : Prop := bits w 31 29 = 0 ∧ bits w 24 22 = 0;
      let free : Prop := s.dbgFree = true ∧ plain; let halted : Prop := s.rd DBG_STAT.HALTED = 1; (s.pwr.state = .run ∨
      s.pwr.state = .idle) ∧ free ∧ halted ∧ (s.tri.ev = false ∨ s.tri.wait = none)) ∧
    (∃ (s : State) (value : BitVec 32) (rd : Fin 32) (x : Nat), let w := value.toNat;
      let plain : Prop := bits w 31 29 = 0 ∧ bits w 24 22 = 0; let free : Prop := s.dbgFree = true ∧ plain;
      let halted : Prop := s.rd DBG_STAT.HALTED = 1; (s.pwr.state = .run ∨ s.pwr.state = .idle) ∧ free ∧ halted ∧ s.tri.wait
      = some (.event rd x) ∧ s.tri.ev = true ∧ s.pwr.state = .run ∧ s.pwr.asserted = 0 ∧ s.pwr.req = 0 ∧ s.rcv.paused =
      none) ∧
    (∃ (s : State), (s.pwr.state = .run ∨ s.pwr.state = .idle) ∧ s.dbgFree = false) :=
  ⟨⟨State.reset, 0, by decide +kernel⟩,
    ⟨(State.reset.wr DBG_STAT.HALTED 1), 0x10000000, 7, by decide +kernel⟩,
    ⟨{ State.reset with tri.rpt := some ⟨0, .other, 4⟩ }, 0, by decide +kernel⟩,
    ⟨(State.reset.wr DBG_STAT.HALTED 1), 0, by decide +kernel⟩,
    ⟨{ (State.reset.wr DBG_STAT.HALTED 1) with tri.wait := some (.event 1 (some 7)), tri.ev := true }, 0, 1, 7,
      by decide +kernel⟩,
    ⟨{ State.reset with sec.n := 2 }, by decide +kernel⟩⟩

/-- O56. -/
theorem meets_RunControl_2 :
    (∃ (s : State), (s.pwr.state = .run ∨ s.pwr.state = .idle) ∧ s.lifecycle = 4) ∧
    (∃ (s : State), let halted : Prop := s.rd DBG_STAT.HALTED = 1; (s.pwr.state = .run ∨ s.pwr.state = .idle) ∧ s.dbgFree =
      true ∧ halted ∧ 7 ≤ s.rd DBG_RSEL.FILE) ∧
    (∃ (s : State), (s.pwr.state = .run ∨ s.pwr.state = .idle) ∧ 64 ≤ s.dbg.tx.length) ∧
    (∃ (s : State) (b : Byte) (rest : _), (s.pwr.state = .run ∨ s.pwr.state = .idle) ∧ s.dbgFree = true ∧ s.dbg.tx = b ::
      rest) ∧
    (∃ (s : State) (b : Byte) (rest : _), (s.pwr.state = .run ∨ s.pwr.state = .idle) ∧ s.dbg.rx = b :: rest) ∧
    (∃ (s : State) (value : BitVec 32) (r : RxFrame), let w := value.toNat; let k := s.sourceSlice 0; (s.pwr.state = .run ∨
      s.pwr.state = .idle) ∧ s.rd DBG_STAT.FROST = 0 ∧ s.rd CHN_STAT.CC_RESTART = 0 ∧ s.chn.rx.find?
      (fun x => x.frame.cls == clsDebug && x.frame.sub == 0) = some r ∧ r.frame.enc = true ∧ ((∀ k ∈ s.chn.keys, k.peer ≠
      r.frame.src)) ∧ s.dbgFree = true ∧ r.text = [2, 13] ++ toBytes 4 w ∧ s.dbg.rx.length < 64) :=
  ⟨⟨{ State.reset with sec.retired := true }, by decide +kernel⟩,
    ⟨((State.reset.wr DBG_STAT.HALTED 1).wr DBG_RSEL.FILE 7), by decide +kernel⟩,
    ⟨{ State.reset with dbg.tx := List.replicate 64 7 }, by decide +kernel⟩,
    ⟨{ State.reset with dbg.tx := [7, 8] }, 7, [8], by decide +kernel⟩,
    ⟨{ State.reset with dbg.rx := [7, 8] }, 7, [8], by decide +kernel⟩,
    ⟨{ State.reset with chn.rx := [⟨0, ⟨6 + 16 + 3 * 2 ^ 8 + 2 * 2 ^ 16 + 2 ^ 56, 0, 0, []⟩, [2, 13] ++ toBytes 4 5, some 1, 0⟩] },
      5, ⟨0, ⟨6 + 16 + 3 * 2 ^ 8 + 2 * 2 ^ 16 + 2 ^ 56, 0, 0, []⟩, [2, 13] ++ toBytes 4 5, some 1, 0⟩, by decide +kernel⟩⟩

/-- O57. -/
theorem meets_StepLaw :
    ∃ (s : State), s.pending = [] :=
  ⟨State.reset, by decide +kernel⟩

/-- O60. -/
theorem meets_RibbonCompletes_1 :
    (∃ (s : State) (v : State) (chain : BitVec 12) (r : RibRun) (port : Fin 4) (dec : List StrandDec), let n := chain.toNat;
      let is (ph : RunPhase) : Prop := s.rib.runs.find? (fun x => x.chain == n && x.phase == ph) = some r;
      let turn (write : Bool) : Prop := s.untilPhase (fun k => mayIssue k (r.cls write) 0) = some v; let d := s.peekDesc n;
      let p := port.val; let caps := (upto 6).map (fun p => s.cctEntry (16 * dCwin d + slCidx d p)); ((∀ i, i < 8 →
      s.soundWord (8 * n + i))) ∧ s.live = true ∧ s.rd LAT_SPARE_COPY.ACTIVE = 0 ∧ is .launched ∧ turn false ∧ ((∀ x ∈ dec,
      x.bad = false)) ∧ descOk d r.soft = true ∧ ((∀ q, q < 6 → slMode d q ≠ modeOff → s.streamCheck d q (caps.getD q
      Cap.null) = none))) ∧
    (∃ (s : State) (v : State) (chain : BitVec 12) (r : RibRun) (dec : List StrandDec), let n := chain.toNat;
      let is (ph : RunPhase) : Prop := s.rib.runs.find? (fun x => x.chain == n && x.phase == ph) = some r;
      let turn (write : Bool) : Prop := s.untilPhase (fun k => mayIssue k (r.cls write) 0) = some v;
      let sz := etW (slEt r.desc 3) / 8; let at_ (o : Nat) : Nat := slBase r.desc 3 + o * sz;
      let el (o : Nat) : Nat := s.word (at_ o / 32) / 2 ^ (8 * (at_ o % 32)) % 2 ^ (8 * sz); let pc := bits (el 0) 8 0; ((∀
      o, o < slCols r.desc 3 → s.soundWord (at_ o / 32) ∧ elemOk (r.caps.getD 3 Cap.null) (at_ o) sz = true)) ∧ s.live =
      true ∧ s.rd LAT_SPARE_COPY.ACTIVE = 0 ∧ is .table ∧ turn false ∧ dec = [] ∧ sz ∣ slBase r.desc 3 ∧ 0 < sz ∧ 0 < slCols
      r.desc 3 ∧ pc + 1 ≤ slCols r.desc 3 ∧ camLen ((upto (pc + 1)).map el) pc ≤ slCols r.desc 3) ∧
    (∃ (s : State) (v : State) (chain : BitVec 12) (r : RibRun) (port : Fin 4), let n := chain.toNat;
      let is (ph : RunPhase) : Prop := s.rib.runs.find? (fun x => x.chain == n && x.phase == ph) = some r;
      let turn (write : Bool) : Prop := s.untilPhase (fun k => mayIssue k (r.cls write) 0) = some v; let p := port.val;
      s.live = true ∧ s.rd LAT_SPARE_COPY.ACTIVE = 0 ∧ is .running ∧ turn false ∧ r.mayPresent p = true ∧ r.waitsFor p =
      false) ∧
    (∃ (s : State) (v : State) (chain : BitVec 12) (r : RibRun) (w : Fin 2) (b : _), let n := chain.toNat;
      let is (ph : RunPhase) : Prop := s.rib.runs.find? (fun x => x.chain == n && x.phase == ph) = some r;
      let turn (write : Bool) : Prop := s.untilPhase (fun k => mayIssue k (r.cls write) 0) = some v; s.live = true ∧ s.rd
      LAT_SPARE_COPY.ACTIVE = 0 ∧ is .running ∧ turn true ∧ r.beats.find? (fun b => b.left.elem w.val) = some b ∧ b.beat <
      r.beat) ∧
    (∃ (s : State) (v : State) (chain : BitVec 12) (r : RibRun) (w : Fin 2) (diff : List StrandDiff) (b : _),
      let n := chain.toNat;
      let is (ph : RunPhase) : Prop := s.rib.runs.find? (fun x => x.chain == n && x.phase == ph) = some r;
      let turn (write : Bool) : Prop := s.untilPhase (fun k => mayIssue k (r.cls write) 0) = some v; ((∀ x ∈ r.proposals b
      w.val, x.word < latWords ∧ s.soundWord x.word)) ∧ s.live = true ∧ s.rd LAT_SPARE_COPY.ACTIVE = 0 ∧ is .running ∧ turn
      true ∧ r.beats = [b] ∧ b.left = [w.val] ∧ b.decs = [] ∧ diff = [] ∧ b.diffs = [[], []] ∧ slMode r.desc (4 + w.val) ≠
      modeQsink ∧ slMode r.desc (5 - w.val) = modeOff ∧ s.lat.halves = []) ∧
    (∃ (s : State) (v : State) (chain : BitVec 12) (r : RibRun) (diff : List StrandDiff), let n := chain.toNat;
      let is (ph : RunPhase) : Prop := s.rib.runs.find? (fun x => x.chain == n && x.phase == ph) = some r;
      let turn (write : Bool) : Prop := s.untilPhase (fun k => mayIssue k (r.cls write) 0) = some v; s.soundWord (8 * n + 1)
      ∧ s.live = true ∧ s.rd LAT_SPARE_COPY.ACTIVE = 0 ∧ is .stopping ∧ turn true ∧ r.qlast = [] ∧ ((∀ k, k < 3 → wbDiff
      diff k = 0)) ∧ s.sch.held = none ∧ s.lat.halves = []) :=
  ⟨⟨(wRib (wDescr 1 0 1 0 1) [RibRun.launch 4095 1 true none false] State.reset), (wRib (wDescr 1 0 1 0 1) [RibRun.launch
      4095 1 true none false] State.reset), 4095, (RibRun.launch 4095 1 true none false), 0, [],
      by unfold State.soundWord State.sound; decide +kernel, by decide +kernel⟩,
    ⟨(wRib (wDescr 1 0 1 0 1 + (7 + 2 * 16 + 0x100000 * 2 ^ 24 + 2 ^ 64 + 16 * 2 ^ 128) * 2 ^ (8 * 0xA0))
      [{ wRunning (wDescr 1 0 1 0 1 + (7 + 2 * 16 + 0x100000 * 2 ^ 24 + 2 ^ 64 + 16 * 2 ^ 128) * 2 ^ (8 * 0xA0)) 1 false with phase := .table }]
      State.reset), (wRib (wDescr 1 0 1 0 1 + (7 + 2 * 16 + 0x100000 * 2 ^ 24 + 2 ^ 64 + 16 * 2 ^ 128) * 2 ^ (8 * 0xA0))
      [{ wRunning (wDescr 1 0 1 0 1 + (7 + 2 * 16 + 0x100000 * 2 ^ 24 + 2 ^ 64 + 16 * 2 ^ 128) * 2 ^ (8 * 0xA0)) 1 false with phase := .table }]
      State.reset), 4095,
      ({ wRunning (wDescr 1 0 1 0 1 + (7 + 2 * 16 + 0x100000 * 2 ^ 24 + 2 ^ 64 + 16 * 2 ^ 128) * 2 ^ (8 * 0xA0)) 1 false with phase := .table }),
      [], by unfold State.soundWord State.sound; decide +kernel, by decide +kernel⟩,
    ⟨(wRib (wDescr 1 1 64 0 1) [(wRunning (wDescr 1 1 64 0 1) 1 false)] State.reset), (wRib (wDescr 1 1 64 0 1) [(wRunning
      (wDescr 1 1 64 0 1) 1 false)] State.reset), 4095, (wRunning (wDescr 1 1 64 0 1) 1 false), 0, by decide +kernel⟩,
    ⟨(wRib (wDescr 1 0 1 0 2)
      [{ wRunning (wDescr 1 0 1 0 2) 1 false with beat := 1, beats := [⟨0, [], false, 0, 0, 0, [0, 1], [[(0, 0, 7)], []], [[], []]⟩] }]
      State.reset), (wRib (wDescr 1 0 1 0 2)
      [{ wRunning (wDescr 1 0 1 0 2) 1 false with beat := 1, beats := [⟨0, [], false, 0, 0, 0, [0, 1], [[(0, 0, 7)], []], [[], []]⟩] }]
      State.reset), 4095,
      ({ wRunning (wDescr 1 0 1 0 2) 1 false with beat := 1, beats := [⟨0, [], false, 0, 0, 0, [0, 1], [[(0, 0, 7)], []], [[], []]⟩] }),
      0, ⟨0, [], false, 0, 0, 0, [0, 1], [[(0, 0, 7)], []], [[], []]⟩, by decide +kernel⟩,
    ⟨(wRib (wDescr 1 0 1 0 1)
      [{ wRunning (wDescr 1 0 1 0 1) 1 false with beat := 1, beats := [⟨0, [], false, 0, 0, 0, [0], [[(0, 0, 7)], []], [[], []]⟩] }]
      State.reset), (wRib (wDescr 1 0 1 0 1)
      [{ wRunning (wDescr 1 0 1 0 1) 1 false with beat := 1, beats := [⟨0, [], false, 0, 0, 0, [0], [[(0, 0, 7)], []], [[], []]⟩] }]
      State.reset), 4095,
      ({ wRunning (wDescr 1 0 1 0 1) 1 false with beat := 1, beats := [⟨0, [], false, 0, 0, 0, [0], [[(0, 0, 7)], []], [[], []]⟩] }),
      0, [], ⟨0, [], false, 0, 0, 0, [0], [[(0, 0, 7)], []], [[], []]⟩,
      by unfold State.soundWord State.sound; decide +kernel, by decide +kernel⟩,
    ⟨(wRib (wDescr 1 0 1 0 1)
      [{ wRunning (wDescr 1 0 1 0 1) 1 true with phase := .stopping, qlast := [], stop := ⟨2, 1, 2, 3, 4, 0, 5, 1⟩ }]
      State.reset), (wRib (wDescr 1 0 1 0 1)
      [{ wRunning (wDescr 1 0 1 0 1) 1 true with phase := .stopping, qlast := [], stop := ⟨2, 1, 2, 3, 4, 0, 5, 1⟩ }]
      State.reset), 4095,
      ({ wRunning (wDescr 1 0 1 0 1) 1 true with phase := .stopping, qlast := [], stop := ⟨2, 1, 2, 3, 4, 0, 5, 1⟩ }), [],
      by unfold State.soundWord State.sound; decide +kernel, by decide +kernel⟩⟩

/-- O60. -/
theorem meets_RibbonCompletes_2 :
    (∃ (s : State) (chain : BitVec 12) (w : Fin 2) (x : _) (qd : _), let n := chain.toNat;
      let mine (x : Nat × Nat × Nat × List Byte) : Bool := x.2.1 == 2 * n + w.val; s.queueAt x.2.2.1 qd ∧ s.live = true ∧
      s.rd LAT_SPARE_COPY.ACTIVE = 0 ∧ s.que.inbuf.find? mine = some x ∧ x.2.2.2.length = 64 ∧ qd.depth < qd.n ∧ s.queCached
      x.2.2.1 = true) ∧
    (∃ (s : State) (chain : BitVec 12) (r : RibRun) (w : Fin 2) (diff : List StrandDiff) (m : _) (qd : _),
      let n := chain.toNat;
      let is (ph : RunPhase) : Prop := s.rib.runs.find? (fun x => x.chain == n && x.phase == ph) = some r;
      let mine (x : Nat × Nat × Nat × List Byte) : Bool := x.2.1 == 2 * n + w.val; s.queueAt (slQueue r.desc (4 + w.val)) qd
      ∧ s.live = true ∧ s.rd LAT_SPARE_COPY.ACTIVE = 0 ∧ is .stopping ∧ s.que.inbuf.find? mine = none ∧ r.qlast.find?
      (fun y => y.1 == w.val) = some m ∧ diff = [] ∧ m.2.length = 64 ∧ qd.depth < qd.n ∧ s.queCached (slQueue r.desc (4 +
      w.val)) = true) :=
  ⟨⟨{ wQueue 1 15 State.reset with que.inbuf := [(0, 8190, 1, List.replicate 64 7)] }, 4095, 0, (0, 8190, 1, List.replicate
      64 7), (wDesc 15), clean_queue (by decide +kernel), by decide +kernel⟩,
    ⟨{ wQueue 1 15 State.reset with rib.runs := [{ wRunning (wDescr 1 0 1 0 1 + 5 * 2 ^ (8 * 0xC0)) 1 true with phase := .stopping, qlast := [(0, List.replicate 64 7)], stop := ⟨1, 1, 2, 3, 4, 0, 5, 1⟩ }] },
      4095,
      ({ wRunning (wDescr 1 0 1 0 1 + 5 * 2 ^ (8 * 0xC0)) 1 true with phase := .stopping, qlast := [(0, List.replicate 64 7)], stop := ⟨1, 1, 2, 3, 4, 0, 5, 1⟩ }),
      0, [], (0, List.replicate 64 7), (wDesc 15), clean_queue (by decide +kernel), by decide +kernel⟩⟩

/-! Witnesses written by hand: the runs of DSTEP (O13), the way into a handler and back (O20), the invariant (O58, O59). -/

/-- The state k DSTEPs later. -/
def wDsteps : Nat → State → State
  | 0, s => s
  | k + 1, s => match exec (.dstep 1 2 3 true) s with
    | .next t => wDsteps k t
    | _ => s

def dstepsRun : Nat → State → Bool
  | 0, _ => true
  | k + 1, s => s.issues && (match exec (.dstep 1 2 3 true) s with
    | .next t => dstepsRun k t
    | _ => false)

theorem runs_dsteps : ∀ k s, dstepsRun k s = true → runs (.dstep 1 2 3 true) k s (wDsteps k s)
  | 0, _, _ => rfl
  | k + 1, s, h => by
    simp only [dstepsRun, Bool.and_eq_true] at h
    obtain ⟨h1, h2⟩ := h
    refine ⟨h1, ?_⟩
    unfold wDsteps
    split at h2
    · rename_i t e
      exact ⟨t, e, by simpa only [e] using runs_dsteps k t h2⟩
    · cases h2

theorem meets_Division_runs : ∃ (s u : State) (rd rs rt : Fin 32) (w : Bool) (r : Nat),
    let n : Nat := if w then 32 else 64
    runs (.dstep rd rs rt w) (n / 2) s u ∧ distinct rd rs rt = true ∧ s.g rd = 0 ∧ (s.g rt).toNat % 2 ^ n ≠ 0 ∧
      r ≠ rd.val ∧ r ≠ rs.val :=
  ⟨(State.reset.setGN 2 7).setGN 3 (2 ^ 32 - 1), wDsteps 16 ((State.reset.setGN 2 7).setGN 3 (2 ^ 32 - 1)), 1, 2, 3, true, 31,
    runs_dsteps 16 _ (by decide +kernel), by decide +kernel⟩

theorem meets_Division_by_zero : ∃ (s u : State) (rd rs rt : Fin 32) (w : Bool),
    let n : Nat := if w then 32 else 64
    runs (.dstep rd rs rt w) (n / 2) s u ∧ distinct rd rs rt = true ∧ s.g rd = 0 ∧ (s.g rt).toNat % 2 ^ n = 0 :=
  ⟨State.reset.setGN 2 7, wDsteps 16 (State.reset.setGN 2 7), 1, 2, 3, true, runs_dsteps 16 _ (by decide +kernel), by decide +kernel⟩

theorem meets_FaultReturnRestores : ∃ (s t : State) (gi a h : Nat),
    let sa := s.saveArea (s.tri.stack.length + 1)
    (∀ g, sa / 8 ≤ g → g ≤ (sa + 239) / 8 → s.sound g) ∧ exec .ill s = .next t ∧ s.ready = true ∧ s.tri.mlUsed = 0 ∧
      s.escalated = false ∧ s.tri.stack.length ≤ 30 ∧ s.validEntry 2 = some (gi, a, h) ∧ t.issues = true :=
  ⟨wEntry 2 0x8000000010000000 State.reset, wAfter .ill (wEntry 2 0x8000000010000000 State.reset), 0, 0x10000000, 0,
    fun g _ _ => clean_sound (by decide +kernel) g, after_next (by decide +kernel), by decide +kernel⟩

theorem meets_ArchiveRequests_read : ∃ (s : State) (d : QDesc) (m : List Byte) (x : Nat) (r : ArcRec),
    let q := s.rd ARC_RQUEUE.QUEUE
    let len := msgNum m 4 4
    let buf := msgNum m 8 8
    let size := 64 + s.num (arcAt x r.lba + 8) 4
    s.queueAt q d ∧ s.rd ARC_STAT.STATE = arcReady ∧ s.arcStill = false ∧ s.arc.comps.length < 64 ∧ 0 < d.depth ∧
      s.bytes (d.slotAddr d.head) 64 = m ∧ s.rd ARC_CQUEUE.QUEUE ∉ s.que.attached ∧ msgNum m 0 1 = 2 ∧
      s.arcInWindow buf len = true ∧ s.arcRecs.find? (fun x => x.2.seq == msgNum m 48 8) = some (x, r) ∧ size ≤ len ∧
      (buf + size ≤ s.queDescAddr q ∨ s.queDescAddr q + 32 ≤ buf) :=
  ⟨{ ((wArc (wMsg 2 64 0x800010000 5) State.reset).wr (ARC_DRV.STATE 0) drvActive) with
      arc.drives := [(0, { ArcDrive.empty with cap := 100, recs := [⟨2, 1, 5, true⟩] })] },
    wDesc 1, wMsg 2 64 0x800010000 5, 0, ⟨2, 1, 5, true⟩, clean_queue (by decide +kernel), by decide +kernel⟩

theorem meets_SteadySteps : ∃ s t : State, s.steady ∧ step s = .next t :=
  ⟨{ State.reset with pending := [.add 1 2 3] }, _, by unfold State.steady; decide +kernel, rfl⟩

end Sys2Proof.Tests
end

section
/-! PROOFS. Registers: the bits of a register after a write of a field, and which fields a command sets. -/

namespace Sys2Proof.Machine

variable {s t : State}

/-! Bits of registers. -/

theorem bitb_eq_testBit (x i : Nat) : bitb x i = x.testBit i := by
  rw [Nat.testBit_eq_decide_div_mod_eq]; rfl

theorem bitb_eq_bits (x i : Nat) : bitb x i = (bits x i i == 1) := by
  simp [bitb, bits]

/-- A replaced field leaves every bit outside it. -/
theorem bitb_setBits_outside (x hi lo v i : Nat) (h : lo ≤ hi) (hi' : i < lo ∨ hi < i) :
    bitb (setBits x hi lo v) i = bitb x i := by
  rw [bitb_eq_bits, bitb_eq_bits]
  rcases hi' with h' | h'
  · rw [bits_setBits_below _ _ _ _ _ _ h h' (Nat.le_refl i)]
  · rw [bits_setBits_above _ _ _ _ _ _ h h']

/-- A write of a field leaves every bit outside it. -/
theorem State.bitb_wr_outside (f : Fld) (v a b : Nat) (hf : f.ok) (hb : ¬(f.addr = a ∧ f.lo ≤ b ∧ b ≤ f.hi)) :
    bitb ((s.wr f v).rdReg a) b = bitb (s.rdReg a) b := by
  unfold State.wr
  by_cases ha : a = f.addr
  · subst ha
    rw [State.rdReg_wrReg_same, Nat.mod_eq_of_lt (setBits_lt _ _ _ _ (s.rdReg_lt _) hf.1 hf.2),
      bitb_setBits_outside _ _ _ _ _ hf.1 (by omega)]
  · rw [State.rdReg_wrReg_other _ _ _ _ ha]

/-! Which fields a command sets. -/

theorem State.sets_refl (s : State) : s.sets s [] := ⟨fun _ h => absurd h (by simp), fun _ _ _ => rfl⟩

/-- What is set is a matter of the registers alone. -/
theorem State.sets.congr {s' t' : State} {l : List (Fld × Nat)} (h : s.sets t l) (hs : s'.regs = s.regs)
    (ht : t'.regs = t.regs) : s'.sets t' l := by
  have rs (a : Nat) : s'.rdReg a = s.rdReg a := by simp [State.rdReg, hs]
  have rt (a : Nat) : t'.rdReg a = t.rdReg a := by simp [State.rdReg, ht]
  refine ⟨fun p hp => (State.rd_congr ht p.1).trans (h.1 p hp), fun a b hb => ?_⟩
  rw [rs, rt, h.2 a b hb]

/-- Does a field lie apart from every field of l? -/
def Fld.apartFrom (f : Fld) (l : List (Fld × Nat)) : Bool := l.all (fun p => decide (f.apart p.1))

/-- One more field is written, apart from those before. -/
theorem State.sets.wr {l : List (Fld × Nat)} (h : s.sets t l) (f : Fld) (v x : Nat) (hf : f.ok)
    (hl : f.apartFrom l = true) (hx : v % 2 ^ (f.hi + 1 - f.lo) = x) : s.sets (t.wr f v) (l ++ [(f, x)]) := by
  simp only [Fld.apartFrom, List.all_eq_true, decide_eq_true_eq] at hl
  refine ⟨fun p hp => ?_, fun a b hb => ?_⟩
  · rcases List.mem_append.1 hp with hp | hp
    · rw [State.rd_wr_frame _ _ _ _ (hl p hp), h.1 p hp]
    · rw [List.mem_singleton.1 hp, State.rd_wr_same _ _ _ hf, hx]
  · rw [State.bitb_wr_outside f v a b hf (hb (f, x) (by simp)), h.2 a b (fun p hp => hb p (by simp [hp]))]

/-- A field written again. -/
theorem State.sets.wr_again {f : Fld} {y : Nat} (h : s.sets t [(f, y)]) (v x : Nat) (hf : f.ok)
    (hx : v % 2 ^ (f.hi + 1 - f.lo) = x) : s.sets (t.wr f v) [(f, x)] := by
  refine ⟨fun p hp => ?_, fun a b hb => ?_⟩
  · rw [List.mem_singleton.1 hp, State.rd_wr_same _ _ _ hf, hx]
  · rw [State.bitb_wr_outside f v a b hf (hb (f, x) (by simp)), h.2 a b (fun p hp => ?_)]
    rw [List.mem_singleton.1 hp]; exact hb (f, x) (by simp)

/-- One field is written. -/
theorem State.sets_wr (s : State) (f : Fld) (v x : Nat) (hf : f.ok) (hx : v % 2 ^ (f.hi + 1 - f.lo) = x) :
    s.sets (s.wr f v) [(f, x)] := s.sets_refl.wr f v x hf rfl hx

/-- A counter one higher, or at its greatest value, fits its field. -/
theorem State.more_mod (s : State) (f : Fld) : s.more f % 2 ^ (f.hi + 1 - f.lo) = s.more f := by
  have : 0 < 2 ^ (f.hi + 1 - f.lo) := Nat.pow_pos (by decide)
  unfold State.more
  exact Nat.mod_eq_of_lt (by omega)

theorem State.sets_bump (s : State) (f : Fld) (hf : f.ok) : s.sets (s.bump f) [(f, s.more f)] :=
  s.sets_wr f _ _ hf (s.more_mod f)

end Sys2Proof.Machine
end

section
/-! PROOFS. Matrix: the notes of the errors of a tc, arbitration and bus errors (R34, R38, R40). -/

namespace Sys2Proof.Machine

variable {s t : State}

/-! The matrix's notes of the errors of the present tc (R40). -/

/-- Nothing but registers and the matrix's notes differs. -/
def State.noted (s t : State) : Prop := t = { s with regs := t.regs, xw := t.xw }

theorem State.noted_refl (s : State) : s.noted s := rfl

theorem State.noted.wr (h : s.noted t) (f : Fld) (v : Nat) : s.noted (t.wr f v) := by
  unfold State.noted at h ⊢
  rw [h]; rfl

theorem State.noted.on (h : s.noted t) (f : Fld) : s.noted (t.on f) := h.wr f _

theorem State.noted.put (h : s.noted t) (f : Fld) (b : Bool) : s.noted (t.put f b) := h.wr f _

theorem State.noted.bump (h : s.noted t) (f : Fld) : s.noted (t.bump f) := h.wr f _

theorem State.noted.wr2 (h : s.noted t) (f g : Fld) (v : Nat) : s.noted (t.wr2 f g v) := (h.wr f _).wr g _

theorem State.noted.withXw (h : s.noted t) (x : XwS) : s.noted { t with xw := x } := by
  unfold State.noted at h ⊢
  rw [h]

theorem State.thisTc_eq (s : State) : s.thisTc = { s with xw := s.thisTc.xw } := by
  unfold State.thisTc; split <;> rfl

@[simp] theorem State.thisTc_regs (s : State) : s.thisTc.regs = s.regs := by rw [s.thisTc_eq]

theorem State.noted.thisTc (h : s.noted t) : s.noted t.thisTc := by
  rw [t.thisTc_eq]; exact h.withXw _

/-- A change of the notes is no change of a register. -/
theorem State.sets.withXw {l : List (Fld × Nat)} (h : s.sets t l) (x : XwS) : s.sets { t with xw := x } l := h.congr rfl rfl

theorem State.sets.thisTc {l : List (Fld × Nat)} (h : s.sets t l) : s.sets t.thisTc l := h.congr rfl t.thisTc_regs

/-- In a tc in which no error is noted as yet the notes are empty. -/
theorem State.thisTc_new (s : State) (h : s.xw.tc ≠ s.now) :
    s.thisTc.xw = { s.xw with tc := s.now, derrs := [], logged := false, berrs := 0 } := by
  unfold State.thisTc; rw [if_neg h]

/-- The notes of the present tc hang on the notes and the time alone. -/
theorem State.thisTc_xw (hx : t.xw = s.xw) (ht : t.time = s.time) : t.thisTc.xw = s.thisTc.xw := by
  unfold State.thisTc State.now
  rw [hx, ht]
  split
  · exact hx
  · rfl

theorem State.thisTc_bump_xw (s : State) (f : Fld) : (s.bump f).thisTc.xw = s.thisTc.xw :=
  State.thisTc_xw (s.bump_xw f) (s.bump_time f)

/-! Arbitration (R34) and bus errors (R38). -/

theorem State.arbitrated.regs (h : s.arbitrated t) : t.regs = s.regs := by
  unfold State.arbitrated at h; rw [h]

/-- Arbitration notes no error. -/
theorem State.arbitrated.thisTc (h : s.arbitrated t) :
    t.thisTc.xw.derrs = s.thisTc.xw.derrs ∧ t.thisTc.xw.berrs = s.thisTc.xw.berrs := by
  have e : t.xw.tc = s.xw.tc ∧ t.now = s.now ∧ t.xw.derrs = s.xw.derrs ∧ t.xw.berrs = s.xw.berrs := by
    unfold State.arbitrated at h; rw [h]; exact ⟨rfl, rfl, rfl, rfl⟩
  obtain ⟨htc, hnow, hd, hb⟩ := e
  unfold State.thisTc
  rw [htc, hnow]
  split
  · exact ⟨hd, hb⟩
  · exact ⟨rfl, rfl⟩

/-- What a transaction changes that its target answers at once: arbitration, registers, notes and the answer. -/
theorem State.arbitrated.noted {u : State} (h : s.arbitrated t) (hu : t.noted u) (r : Resp) :
    u.answer r = { s with regs := u.regs, credit := u.credit, xw := u.xw, resp := r } := by
  unfold State.arbitrated at h
  unfold State.noted at hu
  rw [State.answer, hu, h]

theorem State.arbitrated.sets {u : State} {l : List (Fld × Nat)} (h : s.arbitrated t) (hu : t.sets u l) (r : Resp) :
    s.sets (u.answer r) l := hu.congr h.regs.symm rfl

theorem State.arbitrated.more (h : s.arbitrated t) (f : Fld) : t.more f = s.more f := by
  unfold State.more; rw [State.rd_congr h.regs]

theorem State.noted_busErr (s : State) : s.noted s.busErr := (s.noted_refl.bump _).thisTc.withXw _

theorem State.sets_busErr (s : State) : s.sets s.busErr [(XW_BERR_CNT.COUNT, s.more XW_BERR_CNT.COUNT)] :=
  (s.sets_bump XW_BERR_CNT.COUNT (by decide)).thisTc.withXw _

theorem State.busErr_berrs (s : State) : s.busErr.xw.berrs = s.thisTc.xw.berrs + 1 := by
  simp only [State.busErr, State.thisTc_bump_xw]

/-- A transaction was answered by a bus error (R38): it is counted, and besides only arbitration and the notes differ. -/
def State.busErrored (s u : State) : Prop :=
  (s.sets u [(XW_BERR_CNT.COUNT, s.more XW_BERR_CNT.COUNT)] ∧ u.resp = .busError) ∧
    u = { s with regs := u.regs, credit := u.credit, xw := u.xw, resp := .busError }

theorem State.arbitrated.busErrored (h : s.arbitrated t) : s.busErrored (t.busErr.answer .busError) :=
  ⟨⟨h.more XW_BERR_CNT.COUNT ▸ h.sets t.sets_busErr _, rfl⟩, h.noted t.noted_busErr _⟩

end Sys2Proof.Machine
end

section
/-! PROOFS. Register writes: the command REGISTER_WRITE on the first peripheral bus (R8, R26, R27, R37, R38). -/

namespace Sys2Proof.Machine

variable {s t : State}

theorem State.arbitrated_toPort (s : State) (m a : Nat) : s.arbitrated (s.toPort m a) := s.toPortAmong_eq m a []

/-- The first peripheral bus lies whole at its addresses, whatever REMAP says (R23). -/
theorem State.region_periph0 (s : State) (a : Nat) (h1 : 0x40000000 ≤ a) (h2 : a < 0x40090000) : s.region a = .periph 0 := by
  unfold State.region regionOf
  iterate 8 rw [if_neg (by omega)]
  rw [if_pos h2]

/-- Only pages above the first bus belong to blocks that can be powered down (R444). -/
theorem State.pageDown_periph0 (s : State) (a : Nat) (h : a < 0x40090000) : s.pageDown a = false := by
  have h5 : ¬0x5000 ≤ a / 0x10000 := by omega
  have hc : (a / 0x10000 == 0x5004) = false := beq_eq_false_iff_ne.2 (by omega)
  have ha : (a / 0x10000 == 0x6001) = false := beq_eq_false_iff_ne.2 (by omega)
  simp [State.pageDown, h5, hc, ha]

/-- No page is in reset while none is asserted. -/
theorem State.inReset_periph0 (s : State) (a : Nat) (h1 : 0x40000000 ≤ a) (h2 : a < 0x40090000) (h0 : s.pwr.asserted = 0) :
    s.inReset a = false := by
  have hp : a / 0x10000 ≠ 0x6003 := by omega
  simp [State.inReset, s.region_periph0 a h1 h2, h0, reachesPage, hp]

/-- The page that times the reset is not in it (R422). -/
theorem State.inReset_rst (s : State) (a : Nat) (h : a / 0x10000 = 0x4000) : s.inReset a = false := by
  simp [State.inReset, s.region_periph0 a (by omega) (by omega), h]

/-- A cold reset reaches every other page of the first bus (R422). -/
theorem State.inReset_cold (s : State) (a : Nat) (h1 : 0x40010000 ≤ a) (h2 : a < 0x40090000) (h3 : 3 ≤ s.pwr.asserted) :
    s.inReset a = true := by
  have hp : a / 0x10000 ≠ 0x4000 := by omega
  have hd : a / 0x10000 ≠ 0x6003 := by omega
  simp [State.inReset, s.region_periph0 a (by omega) h2, reachesPage, hp, hd, h3]

/-- Pages without rules of their own for a master admit every access but a non-secure one of a secure register. -/
theorem State.admits_plain (s : State) (m : Nat) (sec : Bool) (a : Nat) (w : Bool) (r : RSpec) (h : a < 0x40090000)
    (hm : a / 0x10000 ≠ 0x4006) : s.admits m sec a w r = (!r.secure || sec) := by
  unfold State.admits
  rw [s.pageDown_periph0 a h]
  split
  · next e => exact absurd e hm
  · next e => omega
  · next e => omega
  · simp

theorem State.periphWrite_assigned (s : State) (m : Nat) (sec : Bool) (a : Nat) (bs : List Byte) (r : RSpec)
    (hb : bs.length = 4) (ha : a % 4 = 0) (hr : specAt a = some r) (hd : s.pageDown a = false)
    (had : s.admits m sec a true r = true) : s.periphWrite m sec a bs = (true, s.regWrite m a (ofBytes bs) r) := by
  simp [State.periphWrite, hb, ha, hr, hd, had]

theorem State.periphWrite_refused (s : State) (m : Nat) (sec : Bool) (a : Nat) (bs : List Byte) (r : RSpec)
    (hb : bs.length = 4) (ha : a % 4 = 0) (hr : specAt a = some r) (had : s.admits m sec a true r = false) :
    s.periphWrite m sec a bs = (false, s) := by
  simp [State.periphWrite, hb, ha, hr, had]

theorem State.periphWrite_unassigned (s : State) (m : Nat) (sec : Bool) (a : Nat) (bs : List Byte)
    (hb : bs.length = 4) (ha : a % 4 = 0) (hr : specAt a = none) (hd : s.pageDown a = false) :
    s.periphWrite m sec a bs = (true, s.decodeErr m a true) := by
  simp [State.periphWrite, hb, ha, hr, hd]

theorem State.periphWrite_misaligned (s : State) (m : Nat) (sec : Bool) (a : Nat) (bs : List Byte)
    (hb : bs.length = 4) (ha : a % 4 ≠ 0) : s.periphWrite m sec a bs = (false, s) := by
  simp [State.periphWrite, hb, ha]

/-- A write that reaches the first bus. -/
theorem State.busWrite_periph0 (s : State) (m : Nat) (sec : Bool) (a : Nat) (bs : List Byte) (h1 : 0x40000000 ≤ a)
    (h2 : a < 0x40090000) (hi : s.inReset a = false) : s.busWrite m sec a bs = (s.toPort m a).periphWrite m sec a bs := by
  simp [State.busWrite, hi, s.region_periph0 a h1 h2]

/-- A target in reset answers a bus error (R38). -/
theorem State.busWrite_inReset (s : State) (m : Nat) (sec : Bool) (a : Nat) (bs : List Byte) (hi : s.inReset a = true) :
    s.busWrite m sec a bs = (false, s.toPort m a) := by
  simp [State.busWrite, hi]

theorem chnPowered_iff (s : State) : s.chnPowered = true ↔ s.pwr.state = .run ∨ s.pwr.state = .idle := by
  simp [State.chnPowered]

/-- REGISTER_WRITE does nothing without power or across a 64 B boundary. -/
theorem execRegisterWrite_nothing (m : Fin 14) (sec : Bool) (addr : BitVec 40) (v : BitVec 32) (s : State)
    (h : ¬(s.pwr.state = .run ∨ s.pwr.state = .idle) ∨ transactionOk addr.toNat 4 = false) :
    exec (.registerWrite m sec addr v) s = .next s := by
  rw [← chnPowered_iff] at h
  rw [exec_registerWrite, execRegisterWrite, if_pos (by simpa using h)]; rfl

/-- REGISTER_WRITE of what its target takes. -/
theorem execRegisterWrite_done (m : Fin 14) (sec : Bool) (addr : BitVec 40) (v : BitVec 32) (s t : State)
    (hp : s.pwr.state = .run ∨ s.pwr.state = .idle) (hk : transactionOk addr.toNat 4 = true)
    (ht : s.busWrite m sec addr.toNat (toBytes 4 v.toNat) = (true, t)) :
    exec (.registerWrite m sec addr v) s = .next (t.answer .done) := by
  rw [← chnPowered_iff] at hp
  simp [execRegisterWrite, hp, hk, State.busPut, ht, next]

/-- REGISTER_WRITE of what its target refuses: a bus error (R38). -/
theorem execRegisterWrite_busError (m : Fin 14) (sec : Bool) (addr : BitVec 40) (v : BitVec 32) (s t : State)
    (hp : s.pwr.state = .run ∨ s.pwr.state = .idle) (hk : transactionOk addr.toNat 4 = true)
    (ht : s.busWrite m sec addr.toNat (toBytes 4 v.toNat) = (false, t)) :
    exec (.registerWrite m sec addr v) s = .next (t.busErr.answer .busError) := by
  rw [← chnPowered_iff] at hp
  simp [execRegisterWrite, hp, hk, State.busPut, ht, next]

/-- A word's bytes spell it. -/
theorem ofBytes_word (v : BitVec 32) : ofBytes (toBytes 4 v.toNat) = v.toNat := by
  rw [ofBytes_toBytes]; exact Nat.mod_eq_of_lt v.isLt

/-- An aligned word crosses no 64 B boundary. -/
theorem transactionOk_word (a : Nat) (h : a % 4 = 0) : transactionOk a 4 = true := by
  simp [transactionOk]; omega

end Sys2Proof.Machine
end

section
/-! PROOFS. Field types: what a register written by its fields' types holds (R8, R10). -/

namespace Sys2Proof.Machine

/-- The field's value after a write of v, by its type (R8). -/
def FSpec.after (f : FSpec) (old v : Nat) : Nat :=
  match f.ty with
  | .ro => bits old f.hi f.lo
  | .wo => bits old f.hi f.lo
  | .w1c => Nat.xor (Nat.lor (bits old f.hi f.lo) (bits v f.hi f.lo)) (bits v f.hi f.lo)
  | .w1s => Nat.lor (bits old f.hi f.lo) (bits v f.hi f.lo)
  | _ => bits v f.hi f.lo

/-- The same, bit by bit. -/
def FSpec.bitAfter (f : FSpec) (old v i : Nat) : Bool :=
  match f.ty with
  | .ro => bitb old i
  | .wo => bitb old i
  | .w1c => bitb old i && !bitb v i
  | .w1s => bitb old i || bitb v i
  | _ => bitb v i

theorem fieldWrite_eq (r : RSpec) (old v : Nat) :
    fieldWrite r old v = r.fields.foldl (fun acc f => acc + f.after old v * 2 ^ f.lo) 0 := rfl

theorem bits_lt (x hi lo : Nat) : bits x hi lo < 2 ^ (hi + 1 - lo) := Nat.mod_lt _ (Nat.pow_pos (by decide))

theorem testBit_bits (x hi lo j : Nat) : (bits x hi lo).testBit j = (decide (j < hi + 1 - lo) && x.testBit (j + lo)) := by
  rw [bits, Nat.testBit_mod_two_pow, Nat.testBit_div_two_pow]

theorem FSpec.after_lt (f : FSpec) (old v : Nat) : f.after old v < 2 ^ (f.hi + 1 - f.lo) := by
  have ho := bits_lt old f.hi f.lo
  have hv := bits_lt v f.hi f.lo
  unfold FSpec.after
  split
  · exact ho
  · exact ho
  · exact Nat.xor_lt_two_pow (Nat.or_lt_two_pow ho hv) hv
  · exact Nat.or_lt_two_pow ho hv
  · exact hv

theorem FSpec.testBit_after (f : FSpec) (old v i : Nat) (h1 : f.lo ≤ i) (h2 : i ≤ f.hi) :
    (f.after old v).testBit (i - f.lo) = f.bitAfter old v i := by
  have hw : i - f.lo < f.hi + 1 - f.lo := by omega
  have hb (x : Nat) : (bits x f.hi f.lo).testBit (i - f.lo) = bitb x i := by
    rw [testBit_bits, bitb_eq_testBit, Nat.sub_add_cancel h1]; simp [hw]
  unfold FSpec.after FSpec.bitAfter
  cases f.ty with
  | ro => exact hb old
  | wo => exact hb old
  | w1c =>
    refine (Nat.testBit_xor _ _ _).trans ?_
    rw [show Nat.lor _ _ = _ ||| _ from rfl, Nat.testBit_or, hb, hb]
    cases bitb old i <;> cases bitb v i <;> rfl
  | w1s => exact (Nat.testBit_or _ _ _).trans (by rw [hb, hb])
  | rw | rws | rwk => exact hb v

/-- The fields lie below bit `top`, each below the one before it. -/
def fieldsBelow : Nat → List FSpec → Bool
  | _, [] => true
  | top, f :: fs => decide (f.hi < top) && decide (f.lo ≤ f.hi) && fieldsBelow f.lo fs

theorem fieldsBelow_cons (top : Nat) (f : FSpec) (fs : List FSpec) :
    fieldsBelow top (f :: fs) = true ↔ f.hi < top ∧ f.lo ≤ f.hi ∧ fieldsBelow f.lo fs = true := by
  simp [fieldsBelow, and_assoc]

theorem fieldsBelow_hi {top : Nat} {fs : List FSpec} (h : fieldsBelow top fs = true) : ∀ f ∈ fs, f.hi < top := by
  induction fs generalizing top with
  | nil => simp
  | cons g fs ih =>
    obtain ⟨h1, h2, h3⟩ := (fieldsBelow_cons _ _ _).1 h
    intro f hf
    rcases List.mem_cons.1 hf with rfl | hf
    · exact h1
    · have := ih h3 f hf; omega

/-- Bits of a sum of fields that lie one below the other under a number k · 2^top: those of k above, each field's in its place,
and zero elsewhere. -/
theorem testBit_sumFields (val : FSpec → Nat) (hval : ∀ f, val f < 2 ^ (f.hi + 1 - f.lo)) (fs : List FSpec) :
    ∀ (top k : Nat), fieldsBelow top fs = true →
      let x := fs.foldl (fun acc f => acc + val f * 2 ^ f.lo) (2 ^ top * k)
      (∀ i, top ≤ i → x.testBit i = k.testBit (i - top)) ∧
      (∀ f ∈ fs, ∀ i, f.lo ≤ i → i ≤ f.hi → x.testBit i = (val f).testBit (i - f.lo)) ∧
      (∀ i, i < top → (∀ f ∈ fs, i < f.lo ∨ f.hi < i) → x.testBit i = false) := by
  induction fs with
  | nil =>
    intro top k _
    have hx (i : Nat) := Nat.testBit_two_pow_mul_add (i := top) k (Nat.two_pow_pos top) i
    simp only [Nat.add_zero, Nat.zero_testBit] at hx
    simp only [List.foldl_nil]
    refine ⟨fun i hi => ?_, by simp, fun i hi _ => ?_⟩
    · rw [hx, if_neg (by omega)]
    · rw [hx, if_pos hi]
  | cons f fs ih =>
    intro top k h
    obtain ⟨hhi, hlo, hfs⟩ := (fieldsBelow_cons _ _ _).1 h
    -- the number that stands above the remaining fields
    let k' := 2 ^ (top - f.lo) * k + val f
    have hk : 2 ^ top * k + val f * 2 ^ f.lo = 2 ^ f.lo * k' := by
      rw [Nat.mul_add, ← Nat.mul_assoc, ← Nat.pow_add, Nat.add_sub_cancel' (by omega), Nat.mul_comm (val f)]
    have hv : val f < 2 ^ (top - f.lo) :=
      Nat.lt_of_lt_of_le (hval f) (Nat.pow_le_pow_right (by decide) (by omega))
    have hk' (j : Nat) : k'.testBit j = if j < top - f.lo then (val f).testBit j else k.testBit (j - (top - f.lo)) :=
      Nat.testBit_two_pow_mul_add k hv j
    obtain ⟨iabove, iin, iout⟩ := ih f.lo k' hfs
    simp only [List.foldl_cons, hk]
    refine ⟨fun i hi => ?_, fun g hg i h1 h2 => ?_, fun i hi hout => ?_⟩
    · rw [iabove i (by omega), hk', if_neg (by omega)]; congr 1; omega
    · rcases List.mem_cons.1 hg with rfl | hg
      · rw [iabove i h1, hk', if_pos (by omega)]
      · exact iin g hg i h1 h2
    · by_cases hl : i < f.lo
      · exact iout i hl (fun g hg => hout g (by simp [hg]))
      · have hw : f.hi + 1 - f.lo ≤ i - f.lo := by have := hout f (by simp); omega
        rw [iabove i (by omega), hk', if_pos (by omega)]
        exact Nat.testBit_lt_two_pow (Nat.lt_of_lt_of_le (hval f) (Nat.pow_le_pow_right (by decide) hw))

/-- A register written by its fields' types: each field by its type (R8), the reserved bits zero (R10). -/
theorem bitb_fieldWrite (r : RSpec) (old v : Nat) (h : fieldsBelow 32 r.fields = true) :
    (∀ f ∈ r.fields, ∀ i, f.lo ≤ i → i ≤ f.hi → bitb (fieldWrite r old v) i = f.bitAfter old v i) ∧
      ∀ i, (∀ f ∈ r.fields, i < f.lo ∨ f.hi < i) → bitb (fieldWrite r old v) i = false := by
  obtain ⟨habove, hin, hout⟩ := testBit_sumFields (fun f => f.after old v) (fun f => f.after_lt old v) r.fields 32 0 h
  simp only [Nat.mul_zero, ← fieldWrite_eq, Nat.zero_testBit] at habove hin hout
  refine ⟨fun f hf i h1 h2 => ?_, fun i hi => ?_⟩
  · rw [bitb_eq_testBit, hin f hf i h1 h2, f.testBit_after old v i h1 h2]
  · rw [bitb_eq_testBit]
    by_cases hl : i < 32
    · exact hout i hl hi
    · exact habove i (by omega)

theorem fieldWrite_lt (r : RSpec) (old v : Nat) (h : fieldsBelow 32 r.fields = true) : fieldWrite r old v < 2 ^ 32 := by
  refine Nat.lt_pow_two_of_testBit _ fun i hi => ?_
  rw [← bitb_eq_testBit]
  refine (bitb_fieldWrite r old v h).2 i fun f hf => .inr ?_
  have := fieldsBelow_hi h f hf; omega

/-- The plain effect of a write, where VALID clears no OVF. -/
theorem State.rdReg_plainWrite (s : State) (a v : Nat) (r : RSpec) (hc : clearsOvf a = false)
    (h : fieldsBelow 32 r.fields = true) : (s.plainWrite a v r).rdReg a = fieldWrite r (s.rdReg a) v := by
  unfold State.plainWrite
  rw [State.rdReg_wrReg_same, hc]
  exact Nat.mod_eq_of_lt (fieldWrite_lt r _ v h)

theorem State.plainWrite_other (s : State) (a v : Nat) (r : RSpec) (b : Nat) (h : b ≠ a) :
    (s.plainWrite a v r).rdReg b = s.rdReg b := s.rdReg_wrReg_other a _ b h

end Sys2Proof.Machine
end

section
/-! PROOFS. Registers of the CLK_, AOW_ and XW_ pages, and the errors that XW_ logs and counts (R37, R40, R41). -/

namespace Sys2Proof.Machine

variable {s t : State}

/-! Registers of the CLK_, AOW_ and XW_ pages (R41, R333, R445). -/

/-- The pages CLK_, AOW_ and XW_. -/
abbrev plainPage (a : Nat) : Prop := a / 0x10000 = 0x4002 ∨ a / 0x10000 = 0x4004 ∨ a / 0x10000 = 0x4007

theorem plainPage_range {a : Nat} (h : plainPage a) : 0x40010000 ≤ a ∧ a < 0x40090000 ∧ a / 0x10000 ≠ 0x4006 := by
  unfold plainPage at h; omega

theorem plainPage_xw {a : Nat} (h : a / 0x10000 = 0x4007) : plainPage a := .inr (.inr h)

theorem plainPage_fields {a : Nat} {r : RSpec} (h : plainPage a) (hr : specAt a = some r) :
    fieldsBelow 32 r.fields = true := by
  have hm : r ∈ pageSpecs a := List.mem_of_find?_eq_some hr
  have hall : ∀ r ∈ specsClk ++ specsAow ++ specsXw, fieldsBelow 32 r.fields = true := by decide
  refine hall r ?_
  unfold pageSpecs at hm
  rcases h with h | h | h <;> simp only [h] at hm <;> simp [hm]

theorem plainPage_clearsOvf {a : Nat} (h : plainPage a) : clearsOvf a = false := by
  have hn : ∀ x ∈ [QUE_ERRINFO.addr, SCH_BREACH_INFO.addr, RIB_FAULT_INFO.addr, RIB_VOTE_INFO.addr, LAT_ECC_INFO.addr,
      LAT_BREACH_INFO.addr], ¬plainPage x := by decide
  have ha : a ∉ _ := fun hx => hn a hx h
  simpa [clearsOvf] using ha

/-- All registers of these pages but three of XW_ are written by their fields' types (R8, R41). -/
theorem State.regWrite_plainPage (s : State) (m a v : Nat) (r : RSpec) (h : plainPage a) (h1 : a ≠ XW_DERR_INFO.addr)
    (h2 : a ≠ XW_DERR_CNT.COUNT.addr) (h3 : a ≠ XW_BERR_CNT.COUNT.addr) : s.regWrite m a v r = s.plainWrite a v r := by
  unfold State.regWrite
  rcases h with h | h | h <;> simp only [h]
  unfold State.writeXw
  split
  · exact absurd (show a = 0x40070018 by omega) h1
  · exact absurd (show a = 0x4007001C by omega) h2
  · exact absurd (show a = 0x40070020 by omega) h3
  · rfl

/-- A write of a register of these pages that is served (R26, R27). -/
theorem busWrite_plainPage (s : State) (m : Nat) (sec : Bool) (a : Nat) (v : BitVec 32) (r : RSpec) (h : plainPage a)
    (h0 : s.pwr.asserted = 0) (ha : a % 4 = 0) (hr : specAt a = some r) (hs : r.secure = false ∨ sec = true) :
    s.busWrite m sec a (toBytes 4 v.toNat) = (true, (s.toPort m a).regWrite m a v.toNat r) := by
  obtain ⟨hlo, hhi, hm⟩ := plainPage_range h
  rw [s.busWrite_periph0 m sec a _ (by omega) hhi (s.inReset_periph0 a (by omega) hhi h0),
    State.periphWrite_assigned _ m sec a _ r (toBytes_length 4 _) ha hr (State.pageDown_periph0 _ a hhi) ?_, ofBytes_word]
  rw [State.admits_plain _ m sec a true r hhi hm]
  rcases hs with hs | hs <;> simp [hs]

theorem execRegisterWrite_plainPage (s : State) (m : Fin 14) (sec : Bool) (addr : BitVec 40) (v : BitVec 32) (r : RSpec)
    (hp : s.pwr.state = .run ∨ s.pwr.state = .idle) (h0 : s.pwr.asserted = 0) (h : plainPage addr.toNat)
    (ha : addr.toNat % 4 = 0) (hr : specAt addr.toNat = some r) (hs : r.secure = false ∨ sec = true) :
    exec (.registerWrite m sec addr v) s =
      .next (((s.toPort m addr.toNat).regWrite m addr.toNat v.toNat r).answer .done) :=
  execRegisterWrite_done m sec addr v s _ hp (transactionOk_word _ ha) (busWrite_plainPage s m sec _ v r h h0 ha hr hs)

/-! The errors that XW_ logs and counts (R37, R40, R41). -/

/-- With no decode error in the same tc, VALID written 1 clears it and OVF. -/
theorem State.sets_derrClear (s : State) (h : s.xw.tc ≠ s.now) :
    s.sets s.derrClear [(XW_DERR_INFO.VALID, 0), (XW_DERR_INFO.OVF, 0)] := by
  have e : s.derrClear = (s.thisTc.off XW_DERR_INFO.VALID).off XW_DERR_INFO.OVF := by
    simp [State.derrClear, s.thisTc_new h, leastErr]
  rw [e, State.off_wr, State.off_wr]
  exact (s.sets_refl.thisTc.wr XW_DERR_INFO.VALID 0 0 (by decide) rfl (by decide)).wr XW_DERR_INFO.OVF 0 0 (by decide) rfl
    (by decide)

/-- A counter is written and gains the errors of the same tc. -/
theorem State.sets_countWrite (s : State) (f : Fld) (v n : Nat) (hf : f.ok) (hv : v < 2 ^ (f.hi + 1 - f.lo)) :
    s.sets (s.countWrite f v n) [(f, min (v + n) (2 ^ (f.hi + 1 - f.lo) - 1))] := by
  have hw : (s.wr f v).rd f = v := by rw [State.rd_wr_same _ _ _ hf, Nat.mod_eq_of_lt hv]
  unfold State.countWrite
  rw [State.gain_wr, hw]
  exact (s.sets_wr f v v hf (Nat.mod_eq_of_lt hv)).wr_again _ _ hf (Nat.mod_eq_of_lt (by omega))

/-- What the log of decode errors takes. -/
def derrFields (m a : Nat) (write ovf : Bool) : List (Fld × Nat) :=
  [(XW_DERR_ADDR_LO.ADDR_LO, a % 2 ^ 32), (XW_DERR_ADDR_HI.ADDR_HI, a / 2 ^ 32 % 2 ^ 8), (XW_DERR_INFO.VALID, 1),
    (XW_DERR_INFO.OVF, b2n ovf), (XW_DERR_INFO.WRITE, b2n write), (XW_DERR_INFO.MASTER, m)]

theorem b2n_mod_two (b : Bool) : b2n b % 2 = b2n b := by cases b <;> rfl

/-- The log of decode errors takes one that has been counted (R41). -/
theorem State.sets.derrLog {x : Nat} (h : s.sets t [(XW_DERR_CNT.COUNT, x)]) (m a : Nat) (write ovf : Bool) (hm : m < 16) :
    s.sets (t.derrLog m a write ovf) ((XW_DERR_CNT.COUNT, x) :: derrFields m a write ovf) :=
  (((((h.wr XW_DERR_ADDR_LO.ADDR_LO a _ (by decide) rfl rfl).wr XW_DERR_ADDR_HI.ADDR_HI (a / 2 ^ 32) _ (by decide) rfl rfl).wr
    XW_DERR_INFO.VALID 1 1 (by decide) rfl rfl).wr XW_DERR_INFO.OVF (b2n ovf) _ (by decide) rfl (b2n_mod_two ovf)).wr
    XW_DERR_INFO.WRITE (b2n write) _ (by decide) rfl (b2n_mod_two write)).wr XW_DERR_INFO.MASTER m m (by decide) rfl
    (Nat.mod_eq_of_lt hm)

/-- A field of one bit is on or zero. -/
theorem State.isOn_bit (s : State) (f : Fld) (hf : f.hi = f.lo) : s.isOn f = decide (s.rd f = 1) := by
  have h := s.rd_lt f
  rw [hf, Nat.add_sub_cancel_left] at h
  rw [State.isOn, Bool.eq_iff_iff]
  simp; omega

theorem State.noted.derrLog (h : s.noted t) (m a : Nat) (write ovf : Bool) : s.noted (t.derrLog m a write ovf) :=
  ((((h.wr2 _ _ a).on _).put _ ovf).put _ write).wr _ m

theorem State.derrLog_xw (s : State) (m a : Nat) (write ovf : Bool) : (s.derrLog m a write ovf).xw = s.xw := by
  rw [State.derrLog, State.wr_xw, State.put_xw, State.put_xw, State.on_xw, State.wr2_xw]

/-- A decode error is counted and noted (R37, R40). -/
def State.derrCount (s : State) (m a : Nat) (write : Bool) : State :=
  let t := (s.bump XW_DERR_CNT.COUNT).thisTc
  { t with xw.derrs := t.xw.derrs ++ [(m, a, write)] }

/-- Then it is logged, or sets OVF. -/
theorem State.decodeErr_eq (s : State) (m a : Nat) (write : Bool) : s.decodeErr m a write =
    let t := s.derrCount m a write
    if !t.isOn XW_DERR_INFO.VALID then { t.derrLog m a write false with xw.logged := true }
    else if t.xw.logged && decide (m < t.rd XW_DERR_INFO.MASTER) then t.derrLog m a write true
    else t.on XW_DERR_INFO.OVF := rfl

theorem State.noted_derrCount (s : State) (m a : Nat) (write : Bool) : s.noted (s.derrCount m a write) :=
  (s.noted_refl.bump _).thisTc.withXw _

theorem State.sets_derrCount (s : State) (m a : Nat) (write : Bool) :
    s.sets (s.derrCount m a write) [(XW_DERR_CNT.COUNT, s.more XW_DERR_CNT.COUNT)] :=
  (s.sets_bump XW_DERR_CNT.COUNT (by decide)).thisTc.withXw _

theorem State.derrCount_xw (s : State) (m a : Nat) (write : Bool) :
    (s.derrCount m a write).xw = { s.thisTc.xw with derrs := s.thisTc.xw.derrs ++ [(m, a, write)] } := by
  simp only [State.derrCount, State.thisTc_bump_xw]

theorem State.derrCount_valid (s : State) (m a : Nat) (write : Bool) :
    (s.derrCount m a write).isOn XW_DERR_INFO.VALID = decide (s.rd XW_DERR_INFO.VALID = 1) := by
  have hr : (s.derrCount m a write).regs = (s.bump XW_DERR_CNT.COUNT).regs := State.thisTc_regs _
  rw [State.isOn_bit _ _ rfl, State.rd_congr hr, State.bump_wr, State.rd_wr_frame _ _ _ _ (by decide)]

/-- A decode error, the first of its tc: it is counted, and logged if VALID was 0; else it sets OVF (R37, R40). -/
theorem State.decodeErr_new (s : State) (m a : Nat) (write : Bool) (h : s.xw.tc ≠ s.now) (hm : m < 16) :
    s.noted (s.decodeErr m a write) ∧ (s.decodeErr m a write).xw.derrs = [(m, a, write)] ∧
    s.sets (s.decodeErr m a write) ((XW_DERR_CNT.COUNT, s.more XW_DERR_CNT.COUNT) ::
      if s.rd XW_DERR_INFO.VALID = 1 then [(XW_DERR_INFO.OVF, 1)] else derrFields m a write false) := by
  have hn := s.noted_derrCount m a write
  have hs := s.sets_derrCount m a write
  have hv := s.derrCount_valid m a write
  have hx := s.derrCount_xw m a write
  rw [s.thisTc_new h] at hx
  rw [s.decodeErr_eq]
  generalize s.derrCount m a write = t at hn hs hv hx
  dsimp only
  by_cases hvalid : s.rd XW_DERR_INFO.VALID = 1
  · have hon : t.isOn XW_DERR_INFO.VALID = true := by simp [hv, hvalid]
    have hl : t.xw.logged = false := by rw [hx]
    simp only [hon, hl, hvalid, if_true, Bool.not_true, Bool.false_and, Bool.false_eq_true, if_false]
    refine ⟨hn.on _, ?_, hs.wr XW_DERR_INFO.OVF 1 1 (by decide) rfl (by decide)⟩
    rw [State.on_xw, hx]; rfl
  · have hon : t.isOn XW_DERR_INFO.VALID = false := by simp [hv, hvalid]
    simp only [hon, hvalid, if_false, Bool.not_false, if_true]
    refine ⟨(hn.derrLog m a write false).withXw _, ?_, (hs.derrLog m a write false hm).withXw _⟩
    simp [State.derrLog_xw, hx]

theorem State.writeXw_derrInfo (s : State) (a v : Nat) (r : RSpec) (h : a % 0x10000 = 0x18) :
    s.writeXw a v r = s.when (bitb v 31) State.derrClear := by
  simp only [State.writeXw, h]

theorem State.writeXw_derrCnt (s : State) (a v : Nat) (r : RSpec) (h : a % 0x10000 = 0x1C) :
    s.writeXw a v r = s.thisTc.countWrite XW_DERR_CNT.COUNT v s.thisTc.xw.derrs.length := by
  simp only [State.writeXw, h]

theorem State.writeXw_berrCnt (s : State) (a v : Nat) (r : RSpec) (h : a % 0x10000 = 0x20) :
    s.writeXw a v r = s.thisTc.countWrite XW_BERR_CNT.COUNT v s.thisTc.xw.berrs := by
  simp only [State.writeXw, h]

end Sys2Proof.Machine
end

section
/-! PROOFS. Bulk: granules, transactions, re-reads and page retirement (R28 to R31, R499). -/

namespace Sys2Proof.Machine

variable {s t : State}

/-! The Recovery Controller's log (R214, R215). -/

/-- The log with an event recorded at slot h (R214). -/
def State.logWith (s : State) (code unit info arg h : Nat) : List (Nat × BitVec 128) :=
  SMap.set (fun _ => (0 : BitVec 128)) s.rcv.log (h % 64) (BitVec.ofNat 128
    (s.now % 2 ^ 64 + 2 ^ 64 * (info % 2 ^ 20 + unit % 16 * 2 ^ 20 + code % 256 * 2 ^ 24) + 2 ^ 96 * (arg % 2 ^ 32)))

theorem State.rd_withRcv (s : State) (r : RcvS) (f : Fld) : ({ s with rcv := r } : State).rd f = s.rd f := rfl

theorem State.rcLog_eq (s : State) (code unit info arg : Nat) : s.rcLog code unit info arg =
    ({ s with rcv.log := s.logWith code unit info arg (s.rd RCV_LOG_HEAD.HEAD) } : State).bumpWrap RCV_LOG_HEAD.HEAD := rfl

theorem State.rcLog_mem (s : State) (code unit info arg : Nat) : (s.rcLog code unit info arg).mem = s.mem := by
  rw [State.rcLog_eq, State.bumpWrap_mem]

theorem State.rcLog_bulk (s : State) (code unit info arg : Nat) : (s.rcLog code unit info arg).bulk = s.bulk := by
  rw [State.rcLog_eq, State.bumpWrap_bulk]

/-- An event recorded stands in the log. -/
theorem State.logs_rcLog (s : State) (code unit info arg : Nat) :
    s.logs (s.rcLog code unit info arg) code unit info arg := by
  rw [State.rcLog_eq]
  refine ⟨?_, fun x => ?_⟩
  · rw [State.bumpWrap_wr, State.rd_wr_same _ _ _ (by decide), State.rd_withRcv]; rfl
  · rw [State.bumpWrap_rcv]
    exact SMap.get_set _ s.rcv.log _ _ x

/-- DEG is another register than the log's head. -/
theorem State.logs.degrade {code unit info arg : Nat} (h : s.logs t code unit info arg) :
    s.logs t.degrade code unit info arg := by
  refine ⟨?_, fun x => ?_⟩
  · rw [State.degrade, State.on_wr, State.rd_wr_frame _ _ _ _ (by decide), h.1]
  · rw [State.degrade_rcv, h.2 x]

theorem State.degrade_deg (s : State) : s.degrade.rd RCV_STAT.DEG = 1 :=
  State.rd_wr_same _ RCV_STAT.DEG _ (by decide)

/-! Granules (R30, R65). -/

/-- What the decoder delivers hangs on the stored bytes and check bits alone. -/
theorem State.gran_congr (hm : t.mem = s.mem) (hs : t.syn = s.syn) (g : Nat) : t.gran g = s.gran g := by
  have hn : t.num (8 * g) 8 = s.num (8 * g) 8 := by
    unfold State.num; rw [State.bytes_congr _ _ fun x _ _ => State.byte_congr hm x]
  unfold State.gran; rw [hs, hn]

theorem State.clean_congr (hs : t.syn = s.syn) (hk : t.stuck = s.stuck) (g : Nat) (h : s.clean g) : t.clean g := by
  unfold State.clean; rw [hs, hk]; exact h

/-- Where no cell is stuck a granule is written with fresh check bits. -/
theorem State.putGran_unstuck (s : State) (g d : Nat) (h : SMap.get (fun _ => (0 : BitVec 72)) s.stuck g = 0) :
    s.putGran g d = { s.setNum (8 * g) 8 d with syn := SMap.erase g s.syn } := by
  unfold State.putGran; rw [h]; rfl

theorem State.putGran_sound (s : State) (g d : Nat) (h : SMap.get (fun _ => (0 : BitVec 72)) s.stuck g = 0) :
    (s.putGran g d).sound g := by
  rw [s.putGran_unstuck g d h]
  exact ⟨by simp [SMap.get_erase], h⟩

theorem State.bytes_setBytes (s : State) (a : Nat) (bs : List Byte) : (s.setBytes a bs).bytes a bs.length = bs := by
  refine List.ext_getElem (by simp) fun i h1 h2 => ?_
  rw [State.bytes_get _ _ _ _ h2, State.byte_setBytes_in _ _ _ _ (by omega)]
  congr 1; omega

theorem State.putGran_bytes (s : State) (g d : Nat) (h : SMap.get (fun _ => (0 : BitVec 72)) s.stuck g = 0) :
    (s.putGran g d).bytes (8 * g) 8 = toBytes 8 d := by
  rw [s.putGran_unstuck g d h]
  exact (State.bytes_congr _ _ fun _ _ _ => rfl).trans (s.bytes_setBytes (8 * g) (toBytes 8 d))

theorem State.putGran_bytesBut (s : State) (g d : Nat) (h : SMap.get (fun _ => (0 : BitVec 72)) s.stuck g = 0) :
    s.bytesBut (s.putGran g d) [(8 * g, 8)] := by
  intro a ha
  rw [s.putGran_unstuck g d h]
  exact s.byte_setBytes_out (8 * g) (toBytes 8 d) a (by simpa using ha (8 * g, 8) (by simp))

theorem State.putGran_regs (s : State) (g d : Nat) : (s.putGran g d).regs = s.regs := by
  unfold State.putGran; dsimp only; split <;> rfl

theorem State.putGran_bulk (s : State) (g d : Nat) : (s.putGran g d).bulk = s.bulk := by
  unfold State.putGran; dsimp only; split <;> rfl

/-- The granule of 8 aligned bytes. -/
theorem gransOf_aligned (a : Nat) (h : a % 8 = 0) : gransOf a 8 = [a / 8] := by
  have : (a + 7) / 8 - a / 8 = 0 := by omega
  simp [gransOf, this, upto]

/-- A read of a granule in which the decoder finds an error. -/
theorem State.eccRead_granule (s : State) (a : Nat) (h : a % 8 = 0) (hy : (s.gran (a / 8)).2 ≠ 0) :
    s.eccRead a 8 = (toBytes 8 (s.gran (a / 8)).1, [⟨a / 8, (s.gran (a / 8)).2, (s.gran (a / 8)).1⟩]) := by
  have ht : (toBytes 8 (s.gran (a / 8)).1).take 8 = toBytes 8 (s.gran (a / 8)).1 := List.take_of_length_le (by simp)
  simp [State.eccRead, gransOf_aligned a h, h, hy, ht]

theorem eccClass_zero : eccClass 0 = .ok := rfl

/-! Transactions on Bulk (R28 to R31, R499). -/

theorem transactionOk_iff (a n : Nat) : transactionOk a n = true ↔ 0 < n ∧ a % 64 + n ≤ 64 := by simp [transactionOk]

theorem inBulk_iff (a n : Nat) : inBulk a n = true ↔ bulkBase ≤ a ∧ a + n ≤ bulkSpareBase := by simp [inBulk]

theorem State.region_bulk (s : State) (a : Nat) (h1 : bulkBase ≤ a) (h2 : a < bulkSpareBase) : s.region a = .bulk a := by
  have h0 (k : Nat) (hk : k ≤ bulkBase) : ¬a < k := by omega
  unfold State.region regionOf
  iterate 18 rw [if_neg (h0 _ (by decide))]
  rw [if_pos h2]

theorem State.region_bulkSpare (s : State) (a : Nat) (h1 : bulkSpareBase ≤ a) (h2 : a < bulkEnd) :
    s.region a = .bulkSpare := by
  have h0 (k : Nat) (hk : k ≤ bulkSpareBase) : ¬a < k := by omega
  unfold State.region regionOf
  iterate 19 rw [if_neg (h0 _ (by decide))]
  rw [if_pos h2]

/-- A page that is not redirected stands at its own address (R30). -/
theorem State.bulkAt_plain (s : State) (a : Nat) (h : ∀ r ∈ s.bulk.redir, r.1 ≠ (a - bulkBase) / 4096) : s.bulkAt a = a := by
  have hn : s.bulk.redir.find? (fun r => r.1 == (a - bulkBase) / 4096) = none :=
    List.find?_eq_none.2 fun r hr => by simpa using h r hr
  unfold State.bulkAt; rw [hn]

/-- What crosses a 64 B boundary is no transaction (R33). -/
theorem execBulkAccess_across (m : Fin 14) (rivals : List (Fin 14)) (w : Bool) (addr : BitVec 40) (len : Fin 65)
    (data : List Byte) (s : State) (h : transactionOk addr.toNat (if w then data.length else len.val) = false) :
    exec (.bulkAccess ⟨m, rivals⟩ w addr len data []) s = .next s := by
  simp [execBulkAccess, h, next]

/-- The spare area answers a bus error (R30, R38). -/
theorem execBulkAccess_spare (m : Fin 14) (rivals : List (Fin 14)) (w : Bool) (addr : BitVec 40) (len : Fin 65)
    (data : List Byte) (s : State) (h1 : bulkSpareBase ≤ addr.toNat) (h2 : addr.toNat < bulkEnd)
    (hk : transactionOk addr.toNat (if w then data.length else len.val) = true) :
    exec (.bulkAccess ⟨m, rivals⟩ w addr len data []) s =
      .next ((s.toPortAmong m addr.toNat (rivals.map (·.val))).busErr.answer .busError) := by
  simp [execBulkAccess, hk, s.region_bulkSpare _ h1 h2, next]

section Usable

variable (m : Fin 14) (rivals : List (Fin 14)) (addr : BitVec 40) (len : Fin 65) (data : List Byte) {s p u : State}
  (hp : p = s.toPortAmong m addr.toNat (rivals.map (·.val))) (hr : s.pwr.asserted ≤ 1)
include hp hr

/-- Bulk is in no reset that is narrower than a warm one (R31, R422). -/
theorem inReset_bulk (h1 : bulkBase ≤ addr.toNat) (h2 : addr.toNat < bulkSpareBase) : p.inReset addr.toNat = false := by
  have ha : p.pwr = s.pwr := by
    have h := s.toPortAmong_eq m addr.toNat (rivals.map (·.val))
    unfold State.arbitrated at h; rw [hp, h]
  simp [State.inReset, p.region_bulk _ h1 h2, ha]; omega

/-- A read of usable Bulk. -/
theorem execBulkAccess_read (hb : inBulk addr.toNat len = true) (hk : transactionOk addr.toNat len = true)
    {bs : List Byte} (hu : p.bulkRead addr.toNat len = (some bs, u)) :
    exec (.bulkAccess ⟨m, rivals⟩ false addr len data []) s = .next (u.answer (.data bs)) := by
  obtain ⟨h1, h2⟩ := (inBulk_iff _ _).1 hb
  obtain ⟨h0, -⟩ := (transactionOk_iff _ _).1 hk
  have hi := inReset_bulk m rivals addr hp hr h1 (by omega)
  simp [execBulkAccess, hk, s.region_bulk _ h1 (by omega), ← hp, hi, hu, next]

/-- A read of usable Bulk that finds an uncorrectable granule (R38). -/
theorem execBulkAccess_readError (hb : inBulk addr.toNat len = true) (hk : transactionOk addr.toNat len = true)
    (hu : p.bulkRead addr.toNat len = (none, u)) :
    exec (.bulkAccess ⟨m, rivals⟩ false addr len data []) s = .next (u.busErr.answer .busError) := by
  obtain ⟨h1, h2⟩ := (inBulk_iff _ _).1 hb
  obtain ⟨h0, -⟩ := (transactionOk_iff _ _).1 hk
  have hi := inReset_bulk m rivals addr hp hr h1 (by omega)
  simp [execBulkAccess, hk, s.region_bulk _ h1 (by omega), ← hp, hi, hu, next]

/-- A write of usable Bulk. -/
theorem execBulkAccess_write (hb : inBulk addr.toNat data.length = true) (hk : transactionOk addr.toNat data.length = true)
    (hu : p.bulkWrite addr.toNat data = (true, u)) :
    exec (.bulkAccess ⟨m, rivals⟩ true addr len data []) s = .next (u.answer .done) := by
  obtain ⟨h1, h2⟩ := (inBulk_iff _ _).1 hb
  obtain ⟨h0, -⟩ := (transactionOk_iff _ _).1 hk
  have hi := inReset_bulk m rivals addr hp hr h1 (by omega)
  simp [execBulkAccess, hk, s.region_bulk _ h1 (by omega), ← hp, hi, hu, next]

end Usable

/-! What the Bulk controller reads and writes (R30). -/

/-- Sound granules are delivered as stored. -/
theorem State.bulkRead_clean (s : State) (a n : Nat) (hb : inBulk a n = true) (ha : s.bulkAt a = a)
    (h : ∀ g ∈ gransOf a n, s.clean g) : s.bulkRead a n = (some (s.bytes a n), s) := by
  simp [State.bulkRead, hb, ha, s.eccRead_clean a n h]

/-- A corrected granule is delivered corrected and written back. -/
theorem State.bulkRead_corrected (s : State) (a n : Nat) (hb : inBulk a n = true) (ha : s.bulkAt a = a) (hn : n = 8)
    (h8 : a % 8 = 0) (h : eccClass (s.gran (a / 8)).2 = .corrected) : s.bulkRead a n =
      (some (toBytes 8 (s.gran (a / 8)).1), s.bulkFix ⟨a / 8, (s.gran (a / 8)).2, (s.gran (a / 8)).1⟩) := by
  subst hn
  have hy : (s.gran (a / 8)).2 ≠ 0 := fun e => by rw [e, eccClass_zero] at h; cases h
  simp [State.bulkRead, hb, ha, s.eccRead_granule a h8 hy, GEv.ue, h]

/-- An uncorrectable granule is remembered, and nothing delivered. -/
theorem State.bulkRead_uncorrectable (s : State) (a n : Nat) (hb : inBulk a n = true) (ha : s.bulkAt a = a) (hn : n = 8)
    (h8 : a % 8 = 0) (h : eccClass (s.gran (a / 8)).2 = .uncorrectable) :
    s.bulkRead a n = (none, s.bulkNoteUe (a / 8)) := by
  subst hn
  have hy : (s.gran (a / 8)).2 ≠ 0 := fun e => by rw [e, eccClass_zero] at h; cases h
  have hg : a / 4096 * 512 + a / 8 % 512 = a / 8 := by omega
  simp [State.bulkRead, hb, ha, s.eccRead_granule a h8 hy, GEv.ue, h, hg]

/-- A granule written back, where no cell is stuck: it reads back, sound, and no other byte changes. -/
theorem State.bulkFix_granule (s : State) (e : GEv) (h : SMap.get (fun _ => (0 : BitVec 72)) s.stuck e.gran = 0) :
    (s.bulkFix e).bytes (8 * e.gran) 8 = toBytes 8 e.data ∧ (s.bulkFix e).sound e.gran ∧
      s.bytesBut (s.bulkFix e) [(8 * e.gran, 8)] := by
  have hbytes := s.putGran_bytes e.gran e.data h
  have hsound := s.putGran_sound e.gran e.data h
  have hbut := s.putGran_bytesBut e.gran e.data h
  unfold State.bulkFix
  generalize s.putGran e.gran e.data = t at hbytes hsound hbut ⊢
  exact ⟨(State.bytes_congr _ _ fun _ _ _ => rfl).trans hbytes, hsound, hbut⟩

/-- A granule written back awaits its re-read. -/
theorem State.bulkFix_reread (s : State) (e : GEv) : e.gran ∈ (s.bulkFix e).bulk.reread := by
  unfold State.bulkFix
  simp only [State.putGran_bulk]
  split
  · next h => simpa using h
  · simp

theorem State.bulkNoteUe_mem (s : State) (g : Nat) : g ∈ (s.bulkNoteUe g).bulk.ueGran := by
  unfold State.bulkNoteUe
  dsimp only
  split
  · next h => simpa using h
  · simp

/-- With no page to retire a write rewrites nothing but its bytes. -/
theorem State.bulkRewritten_none (s : State) (a n : Nat) (h : s.bulk.ueGran = []) : s.bulkRewritten a n = s := by
  have e : ({ s with bulk.ueGran := [] } : State) = s := by rw [← h]
  simp [State.bulkRewritten, h, e]

/-- A write of sound granules stores its bytes. -/
theorem State.bulkWrite_clean (s : State) (a : Nat) (bs : List Byte) (h0 : 0 < bs.length) (hb : inBulk a bs.length = true)
    (ha : s.bulkAt a = a) (hue : s.bulk.ueGran = []) (h : ∀ g ∈ gransOf a bs.length, s.clean g) :
    ∃ u, s.bulkWrite a bs = (true, u) ∧ s.stored u a bs := by
  obtain ⟨t, ht, hw⟩ := s.eccWrite_clean a bs h
  have hub : t.bulk.ueGran = [] := by rw [hw.rest]; exact hue
  refine ⟨t.clearTags a bs.length, ?_, ?_, fun i hi => ?_, fun x hx => ?_, fun x => ?_⟩
  · simp [State.bulkWrite, hb, ha, ht, t.bulkRewritten_none _ _ hub]
  · rw [State.clearTags_eq, hw.rest]
  · rw [State.clearTags_eq]; exact hw.inside i hi
  · rw [State.clearTags_eq]; exact hw.outside x hx
  · have : t.tagged x = s.tagged x := by rw [hw.rest]; rfl
    rw [State.clearTags_tagged _ _ _ _ h0, this]

/-! Re-reads and page retirement (R30). -/

/-- What each step of a fold keeps, the fold keeps. -/
theorem foldl_keeps {α β γ : Type} (f : α → β → α) (p : α → γ) (h : ∀ u x, p (f u x) = p u) (l : List β) (u : α) :
    p (l.foldl f u) = p u := by
  induction l generalizing u with
  | nil => rfl
  | cons x l ih => rw [List.foldl_cons, ih, h]

/-- Into a free spare page a page is copied and redirected, and no register changes. -/
theorem State.retirePage_free (s : State) (a : Nat) (h : s.bulk.nextFree < 512) :
    (s.retirePage a).bulk = { s.bulk with
      redir := ((a - bulkBase) / 4096, s.bulk.nextFree) :: s.bulk.redir, nextFree := s.bulk.nextFree + 1 } ∧
    (s.retirePage a).regs = s.regs := by
  have hstep (u : State) (c : Nat × BitVec 8) :
      let f : State := if eccClass (u.gran c.1).2 = .corrected then u.putGran c.1 (u.gran c.1).1 else u
      f.bulk = u.bulk ∧ f.regs = u.regs := by
    dsimp only
    split
    · exact ⟨u.putGran_bulk _ _, u.putGran_regs _ _⟩
    · exact ⟨rfl, rfl⟩
  unfold State.retirePage
  rw [if_pos h]
  exact ⟨foldl_keeps _ State.bulk (fun u c => (hstep u c).1) _ _, foldl_keeps _ State.regs (fun u c => (hstep u c).2) _ _⟩

theorem State.retirePage_full (s : State) (a : Nat) (h : 512 ≤ s.bulk.nextFree) :
    s.retirePage a = (s.rcLog 0x22 0 0 ((a - bulkBase) / 4096)).degrade := by
  unfold State.retirePage; rw [if_neg (by omega)]

/-- A page just redirected stands at its spare page. -/
theorem State.bulkAt_redirected (s : State) (a k : Nat) (l : List (Nat × Nat))
    (h : s.bulk.redir = ((a - bulkBase) / 4096, k) :: l) : s.bulkAt a = bulkSpareBase + k * 4096 + a % 4096 := by
  simp [State.bulkAt, h]

/-- The state in which granule g awaits its re-read no more. -/
def State.unmark (s : State) (g : Nat) : State := { s with bulk.reread := s.bulk.reread.erase g }

theorem State.unmark_gran (s : State) (g x : Nat) : (s.unmark g).gran x = s.gran x := State.gran_congr rfl rfl x

theorem State.unmark_rd (s : State) (g : Nat) (f : Fld) : (s.unmark g).rd f = s.rd f := rfl

/-- A re-read, by whether the granule awaits one and what the decoder finds in it. -/
theorem execBulkReRead_eq (addr : BitVec 40) (s : State) (hl : s.live = true) : exec (.bulkReRead addr) s =
    .next (if s.bulkAt addr.toNat / 8 ∈ s.bulk.reread then
      if (s.gran (s.bulkAt addr.toNat / 8)).2 = 0 then s.unmark (s.bulkAt addr.toNat / 8)
      else (s.unmark (s.bulkAt addr.toNat / 8)).retirePage addr.toNat
    else s) := by
  have hg := s.unmark_gran (s.bulkAt addr.toNat / 8) (s.bulkAt addr.toNat / 8)
  unfold State.unmark at hg ⊢
  simp only [exec_bulkReRead, execBulkReRead, State.whileLive, hl, if_true, List.elem_eq_mem, decide_eq_true_eq, hg, next]
  split <;> rfl

end Sys2Proof.Machine
end

section
/-! PROOFS. O38: Bulk transactions, re-reads and register writes. -/

namespace Sys2Proof.Machine

/-- Arbitration leaves memory, check bits and the Bulk controller as they were. -/
theorem State.arbitrated.memory {s p : State} (h : s.arbitrated p) :
    p.mem = s.mem ∧ p.syn = s.syn ∧ p.stuck = s.stuck ∧ p.bulk = s.bulk := by
  unfold State.arbitrated at h; rw [h]; exact ⟨rfl, rfl, rfl, rfl⟩

theorem State.arbitrated.stored {s p u : State} {a : Nat} {bs : List Byte} (h : s.arbitrated p) (hu : p.stored u a bs) :
    s.stored u a bs := by
  obtain ⟨hrest, hin, hout, htag⟩ := hu
  unfold State.arbitrated at h
  refine ⟨by rw [hrest, h], hin, fun x hx => ?_, fun x => ?_⟩
  · rw [hout x hx, h]; rfl
  · rw [htag x, h]; rfl

theorem State.arbitrated.bulkAt {s p : State} (h : s.arbitrated p) (a : Nat) : p.bulkAt a = s.bulkAt a := by
  unfold State.bulkAt; rw [h.memory.2.2.2]

theorem State.arbitrated.gran {s p : State} (h : s.arbitrated p) (g : Nat) : p.gran g = s.gran g :=
  State.gran_congr h.memory.1 h.memory.2.1 g

theorem State.arbitrated.clean {s p : State} (h : s.arbitrated p) {g : Nat} (hg : s.clean g) : p.clean g :=
  State.clean_congr h.memory.2.1 h.memory.2.2.1 g hg

/-- The granules of an access are clean where each of them is sound. -/
theorem State.clean_of_sound {s : State} {a n : Nat} (h : ∀ g, a / 8 ≤ g → g ≤ (a + n - 1) / 8 → s.sound g) :
    ∀ g ∈ gransOf a n, s.clean g := fun g hg =>
  have ⟨_, h1, h2⟩ := (gransOf_mem a n g).1 hg
  h g h1 h2

section Transactions

/-! Transactions on usable Bulk at addresses that are not redirected. -/

variable (m : Fin 14) (rivals : List (Fin 14)) (addr : BitVec 40) (len : Fin 65) (data : List Byte) (s : State)
  (hr : s.pwr.asserted ≤ 1) (hpage : ∀ r ∈ s.bulk.redir, r.1 ≠ (addr.toNat - bulkBase) / 4096)
include hr hpage

theorem bulkAccess_read_sound (hb : inBulk addr.toNat len = true) (hk : transactionOk addr.toNat len = true)
    (hs : ∀ g, addr.toNat / 8 ≤ g → g ≤ (addr.toNat + len - 1) / 8 → s.sound g) :
    ∃ u : State, exec (.bulkAccess ⟨m, rivals⟩ false addr len data []) s = .next u ∧
      u = { s with credit := u.credit, xw.turn := u.xw.turn, resp := .data (s.bytes addr.toNat len) } := by
  obtain ⟨p, hp⟩ : ∃ p, p = s.toPortAmong m addr.toNat (rivals.map (·.val)) := ⟨_, rfl⟩
  have harb : s.arbitrated p := hp ▸ s.toPortAmong_eq _ _ _
  have hread := p.bulkRead_clean addr.toNat len hb ((harb.bulkAt _).trans (s.bulkAt_plain _ hpage))
    fun g hg => harb.clean (State.clean_of_sound hs g hg)
  refine ⟨_, execBulkAccess_read m rivals addr len data hp hr hb hk hread, ?_⟩
  rw [State.bytes_congr addr.toNat len fun x _ _ => State.byte_congr harb.memory.1 x]
  unfold State.arbitrated at harb
  rw [State.answer, harb]

theorem bulkAccess_write_sound (hb : inBulk addr.toNat data.length = true) (hk : transactionOk addr.toNat data.length = true)
    (hs : ∀ g, addr.toNat / 8 ≤ g → g ≤ (addr.toNat + data.length - 1) / 8 → s.sound g) (hue : s.bulk.ueGran = []) :
    ∃ u : State, exec (.bulkAccess ⟨m, rivals⟩ true addr len data []) s = .next { u with resp := .done } ∧
      s.stored u addr.toNat data := by
  obtain ⟨p, hp⟩ : ∃ p, p = s.toPortAmong m addr.toNat (rivals.map (·.val)) := ⟨_, rfl⟩
  have harb : s.arbitrated p := hp ▸ s.toPortAmong_eq _ _ _
  obtain ⟨u, hu, hst⟩ := p.bulkWrite_clean addr.toNat data ((transactionOk_iff _ _).1 hk).1 hb
    ((harb.bulkAt _).trans (s.bulkAt_plain _ hpage)) (by rw [harb.memory.2.2.2]; exact hue)
    fun g hg => harb.clean (State.clean_of_sound hs g hg)
  exact ⟨u, execBulkAccess_write m rivals addr len data hp hr hb hk hu, harb.stored hst⟩

variable (hb : inBulk addr.toNat len = true) (hk : transactionOk addr.toNat len = true) (hn : len.val = 8)
  (h8 : addr.toNat % 8 = 0)
include hb hk hn h8

theorem bulkAccess_read_corrected (hc : eccClass (s.gran (addr.toNat / 8)).2 = .corrected)
    (hst : SMap.get (fun _ => (0 : BitVec 72)) s.stuck (addr.toNat / 8) = 0) :
    ∃ u : State, exec (.bulkAccess ⟨m, rivals⟩ false addr len data []) s = .next u ∧
      u.resp = .data (toBytes 8 (s.gran (addr.toNat / 8)).1) ∧
      u.bytes addr.toNat 8 = toBytes 8 (s.gran (addr.toNat / 8)).1 ∧ u.sound (addr.toNat / 8) ∧
      addr.toNat / 8 ∈ u.bulk.reread ∧ s.bytesBut u [(addr.toNat, 8)] := by
  obtain ⟨p, hp⟩ : ∃ p, p = s.toPortAmong m addr.toNat (rivals.map (·.val)) := ⟨_, rfl⟩
  have harb : s.arbitrated p := hp ▸ s.toPortAmong_eq _ _ _
  obtain ⟨hmem, -, hstuck, -⟩ := harb.memory
  have hg := harb.gran (addr.toNat / 8)
  have hst' : SMap.get (fun _ => (0 : BitVec 72)) p.stuck (addr.toNat / 8) = 0 := by rw [hstuck]; exact hst
  have hread := p.bulkRead_corrected addr.toNat len hb ((harb.bulkAt _).trans (s.bulkAt_plain _ hpage)) hn h8
    (hg ▸ hc)
  rw [hg] at hread
  -- the Bulk controller after the write-back
  obtain ⟨q, hq⟩ : ∃ q, q = p.bulkFix ⟨addr.toNat / 8, (s.gran (addr.toNat / 8)).2, (s.gran (addr.toNat / 8)).1⟩ := ⟨_, rfl⟩
  have hmark := p.bulkFix_reread ⟨addr.toNat / 8, (s.gran (addr.toNat / 8)).2, (s.gran (addr.toNat / 8)).1⟩
  obtain ⟨hbytes, hsound, hbut⟩ :=
    p.bulkFix_granule ⟨addr.toNat / 8, (s.gran (addr.toNat / 8)).2, (s.gran (addr.toNat / 8)).1⟩ hst'
  simp only [← hq, Nat.mul_div_cancel' (Nat.dvd_of_mod_eq_zero h8)] at hread hmark hbytes hsound hbut
  exact ⟨_, execBulkAccess_read m rivals addr len data hp hr hb hk hread, rfl,
    (State.bytes_congr _ _ fun _ _ _ => rfl).trans hbytes, hsound, hmark,
    fun x hx => (hbut x hx).trans (State.byte_congr hmem x)⟩

theorem bulkAccess_read_uncorrectable (hc : eccClass (s.gran (addr.toNat / 8)).2 = .uncorrectable) :
    ∃ u : State, exec (.bulkAccess ⟨m, rivals⟩ false addr len data []) s = .next u ∧
      (s.sets u [(XW_BERR_CNT.COUNT, s.more XW_BERR_CNT.COUNT)] ∧ u.resp = .busError) ∧
      addr.toNat / 8 ∈ u.bulk.ueGran ∧ u.mem = s.mem := by
  obtain ⟨p, hp⟩ : ∃ p, p = s.toPortAmong m addr.toNat (rivals.map (·.val)) := ⟨_, rfl⟩
  have harb : s.arbitrated p := hp ▸ s.toPortAmong_eq _ _ _
  have hg := harb.gran (addr.toNat / 8)
  have hread := p.bulkRead_uncorrectable addr.toNat len hb ((harb.bulkAt _).trans (s.bulkAt_plain _ hpage)) hn h8
    (hg ▸ hc)
  -- the remembered granule is no register
  obtain ⟨q, hq⟩ : ∃ q, q = p.bulkNoteUe (addr.toNat / 8) := ⟨_, rfl⟩
  have hqr : q.regs = s.regs := by rw [hq]; exact harb.regs
  have hqm : q.mem = s.mem := by rw [hq]; exact harb.memory.1
  have hmore : q.more XW_BERR_CNT.COUNT = s.more XW_BERR_CNT.COUNT := by unfold State.more; rw [State.rd_congr hqr]
  have hnoted := q.noted_busErr
  unfold State.noted at hnoted
  rw [← hq] at hread
  refine ⟨_, execBulkAccess_readError m rivals addr len data hp hr hb hk hread, ⟨?_, rfl⟩, ?_, ?_⟩
  · exact hmore ▸ q.sets_busErr.congr hqr.symm rfl
  · rw [State.answer, hnoted, hq]; exact p.bulkNoteUe_mem _
  · rw [State.answer, hnoted]; exact hqm

end Transactions

section ReReads

/-! Re-reads that find the granule faulty. -/

variable (addr : BitVec 40) (s : State) (hl : s.live = true) (hin : s.bulkAt addr.toNat / 8 ∈ s.bulk.reread)
  (hy : (s.gran (s.bulkAt addr.toNat / 8)).2 ≠ 0)
include hl hin hy

theorem bulkReRead_redirects (hfree : s.bulk.nextFree < 512) :
    ∃ u : State, exec (.bulkReRead addr) s = .next u ∧
      u.bulk.redir = ((addr.toNat - bulkBase) / 4096, s.bulk.nextFree) :: s.bulk.redir ∧
      u.bulk.nextFree = s.bulk.nextFree + 1 ∧
      u.bulkAt addr.toNat = bulkSpareBase + s.bulk.nextFree * 4096 + addr.toNat % 4096 ∧ u.regs = s.regs := by
  obtain ⟨hbulk, hregs⟩ := (s.unmark (s.bulkAt addr.toNat / 8)).retirePage_free addr.toNat hfree
  refine ⟨_, by rw [execBulkReRead_eq addr s hl, if_pos hin, if_neg hy], ?_, ?_, ?_, hregs⟩
  · rw [hbulk]; rfl
  · rw [hbulk]; rfl
  · exact State.bulkAt_redirected _ _ _ s.bulk.redir (by rw [hbulk]; rfl)

theorem bulkReRead_full (hfull : 512 ≤ s.bulk.nextFree) :
    ∃ u : State, exec (.bulkReRead addr) s = .next u ∧ s.logs u 0x22 0 0 ((addr.toNat - bulkBase) / 4096) ∧
      u.rd RCV_STAT.DEG = 1 ∧ u.mem = s.mem ∧ u.bulk.redir = s.bulk.redir := by
  obtain ⟨t, ht⟩ : ∃ t, t = s.unmark (s.bulkAt addr.toNat / 8) := ⟨_, rfl⟩
  obtain ⟨hhead, hlog⟩ := (t.logs_rcLog 0x22 0 0 ((addr.toNat - bulkBase) / 4096)).degrade
  have hrd : t.rd RCV_LOG_HEAD.HEAD = s.rd RCV_LOG_HEAD.HEAD := by rw [ht, State.unmark_rd]
  obtain ⟨hnow, hrcv, hmem, hredir⟩ :
      t.now = s.now ∧ t.rcv = s.rcv ∧ t.mem = s.mem ∧ t.bulk.redir = s.bulk.redir := by
    rw [ht]; exact ⟨rfl, rfl, rfl, rfl⟩
  rw [hrd] at hhead
  rw [hrd, hnow, hrcv] at hlog
  refine ⟨_, by rw [execBulkReRead_eq addr s hl, if_pos hin, if_neg hy, ← ht, t.retirePage_full _ (by rw [ht]; exact hfull)],
    ⟨hhead, hlog⟩, State.degrade_deg _, ?_, ?_⟩
  · rw [State.degrade_mem, State.rcLog_mem, hmem]
  · rw [State.degrade_bulk, State.rcLog_bulk, hredir]

end ReReads

section RegisterWrites

/-! Register writes. -/

variable (m : Fin 14) (sec : Bool) (addr : BitVec 40) (v : BitVec 32) (s : State)
  (hp : s.pwr.state = .run ∨ s.pwr.state = .idle)
include hp

/-- A register write that its target refuses. -/
theorem registerWrite_refused (hk : transactionOk addr.toNat 4 = true)
    (h : s.busWrite m sec addr.toNat (toBytes 4 v.toNat) = (false, s.toPort m addr.toNat)) :
    ∃ u : State, exec (.registerWrite m sec addr v) s = .next u ∧ s.busErrored u :=
  ⟨_, execRegisterWrite_busError m sec addr v s _ hp hk h, (s.arbitrated_toPort m addr.toNat).busErrored⟩

/-- In reset (R38). -/
theorem registerWrite_inReset (hpage : plainPage addr.toNat) (h3 : 3 ≤ s.pwr.asserted)
    (hk : transactionOk addr.toNat 4 = true) :
    ∃ u : State, exec (.registerWrite m sec addr v) s = .next u ∧ s.busErrored u := by
  obtain ⟨hlo, hhi, -⟩ := plainPage_range hpage
  exact registerWrite_refused m sec addr v s hp hk (s.busWrite_inReset m sec _ _ (s.inReset_cold _ hlo hhi h3))

/-- Misaligned (R27). -/
theorem registerWrite_misaligned (hpage : plainPage addr.toNat) (h4 : addr.toNat % 4 ≠ 0)
    (hk : transactionOk addr.toNat 4 = true) :
    ∃ u : State, exec (.registerWrite m sec addr v) s = .next u ∧ s.busErrored u := by
  obtain ⟨hlo, hhi, -⟩ := plainPage_range hpage
  refine registerWrite_refused m sec addr v s hp hk ?_
  cases hi : s.inReset addr.toNat with
  | true => exact s.busWrite_inReset m sec _ _ hi
  | false =>
    rw [s.busWrite_periph0 m sec _ _ (by omega) hhi hi, State.periphWrite_misaligned _ _ _ _ _ (toBytes_length 4 _) h4]

/-- A non-secure write of a secure register (R25). -/
theorem registerWrite_insecure (r : RSpec) (hpage : addr.toNat / 0x10000 = 0x4000) (h4 : addr.toNat % 4 = 0)
    (hr : specAt addr.toNat = some r) (hs : r.secure = true) (hsec : sec = false) :
    ∃ u : State, exec (.registerWrite m sec addr v) s = .next u ∧ s.busErrored u := by
  refine registerWrite_refused m sec addr v s hp (transactionOk_word _ h4) ?_
  rw [s.busWrite_periph0 m sec _ _ (by omega) (by omega) (s.inReset_rst _ hpage),
    State.periphWrite_refused _ _ _ _ _ r (toBytes_length 4 _) h4 hr]
  rw [State.admits_plain _ _ _ _ _ _ (by omega) (by omega), hs, hsec]; rfl

variable (h0 : s.pwr.asserted = 0)
include h0

/-- An unassigned offset is a decode error (R26, R37). -/
theorem registerWrite_unassigned (hpage : plainPage addr.toNat) (h4 : addr.toNat % 4 = 0) (hr : specAt addr.toNat = none)
    (htc : s.xw.tc ≠ s.now) :
    ∃ u : State, exec (.registerWrite m sec addr v) s = .next u ∧
      u = { s with regs := u.regs, credit := u.credit, xw := u.xw, resp := .done } ∧
      u.xw.derrs = [(m.val, addr.toNat, true)] ∧
      s.sets u ((XW_DERR_CNT.COUNT, s.more XW_DERR_CNT.COUNT) ::
        if s.rd XW_DERR_INFO.VALID = 1 then [(XW_DERR_INFO.OVF, 1)] else derrFields m addr.toNat true false) := by
  obtain ⟨hlo, hhi, -⟩ := plainPage_range hpage
  have harb := s.arbitrated_toPort m addr.toNat
  have hw : s.busWrite m sec addr.toNat (toBytes 4 v.toNat) =
      (true, (s.toPort m addr.toNat).decodeErr m addr.toNat true) := by
    rw [s.busWrite_periph0 m sec _ _ (by omega) hhi (s.inReset_periph0 _ (by omega) hhi h0),
      State.periphWrite_unassigned _ _ _ _ _ (toBytes_length 4 _) h4 hr (State.pageDown_periph0 _ _ hhi)]
  have htc' : (s.toPort m addr.toNat).xw.tc ≠ (s.toPort m addr.toNat).now := by
    unfold State.arbitrated at harb; rw [harb]; exact htc
  obtain ⟨hnoted, hderrs, hsets⟩ := (s.toPort m addr.toNat).decodeErr_new m addr.toNat true htc' (by omega)
  rw [harb.more, State.rd_congr harb.regs] at hsets
  exact ⟨_, execRegisterWrite_done m sec addr v s _ hp (transactionOk_word _ h4) hw, harb.noted hnoted _, hderrs,
    harb.sets hsets _⟩

/-- A register changes its fields by their types (R8). -/
theorem registerWrite_fields (r : RSpec) (hpage : plainPage addr.toNat) (h4 : addr.toNat % 4 = 0)
    (hr : specAt addr.toNat = some r) (hs : r.secure = false ∨ sec = true) (h1 : addr.toNat ≠ XW_DERR_INFO.addr)
    (h2 : addr.toNat ≠ XW_DERR_CNT.COUNT.addr) (h3 : addr.toNat ≠ XW_BERR_CNT.COUNT.addr) :
    ∃ u : State, exec (.registerWrite m sec addr v) s = .next u ∧
      u = { s with regs := u.regs, credit := u.credit, xw.turn := u.xw.turn, resp := .done } ∧
      s.regsBut u [addr.toNat] ∧
      (∀ f ∈ r.fields, ∀ i, f.lo ≤ i → i ≤ f.hi →
        bitb (u.rdReg addr.toNat) i = f.bitAfter (s.rdReg addr.toNat) v.toNat i) ∧
      ∀ i, (∀ f ∈ r.fields, i < f.lo ∨ f.hi < i) → bitb (u.rdReg addr.toNat) i = false := by
  have harb := s.arbitrated_toPort m addr.toNat
  have hx := execRegisterWrite_plainPage s m sec addr v r hp h0 hpage h4 hr hs
  rw [State.regWrite_plainPage _ _ _ _ _ hpage h1 h2 h3] at hx
  have hf := plainPage_fields hpage hr
  have hregs (b : Nat) : (s.toPort m addr.toNat).rdReg b = s.rdReg b := by unfold State.rdReg; rw [harb.regs]
  have hrd := (s.toPort m addr.toNat).rdReg_plainWrite addr.toNat v.toNat r (plainPage_clearsOvf hpage) hf
  rw [hregs] at hrd
  obtain ⟨hin, hout⟩ := bitb_fieldWrite r (s.rdReg addr.toNat) v.toNat hf
  refine ⟨_, hx, ?_, fun b hb => ?_, fun f hfm i hlo hhi => ?_, fun i hi => ?_⟩
  · unfold State.arbitrated at harb
    rw [State.plainWrite, State.answer, harb]; rfl
  · exact ((s.toPort m addr.toNat).plainWrite_other _ _ r b (by simpa using hb)).trans (hregs b)
  · exact (congrArg (bitb · i) hrd).trans (hin f hfm i hlo hhi)
  · exact (congrArg (bitb · i) hrd).trans (hout i hi)

/-- The three registers of XW_ that hold errors (R40, R41). -/
theorem registerWrite_xw (r : RSpec) (hpage : addr.toNat / 0x10000 = 0x4007) (h4 : addr.toNat % 4 = 0)
    (hr : specAt addr.toNat = some r) (hs : r.secure = false) :
    exec (.registerWrite m sec addr v) s =
      .next (((s.toPort m addr.toNat).writeXw addr.toNat v.toNat r).answer .done) := by
  rw [execRegisterWrite_plainPage s m sec addr v r hp h0 (plainPage_xw hpage) h4 hr (.inl hs)]
  simp only [State.regWrite, hpage]

end RegisterWrites

section XwErrors

variable (m : Fin 14) (sec : Bool) (addr : BitVec 40) (v : BitVec 32) (s : State)
  (hp : s.pwr.state = .run ∨ s.pwr.state = .idle) (h0 : s.pwr.asserted = 0)
include hp h0

/-- XW_DERR_INFO: VALID, written 1, clears with OVF (R41). -/
theorem registerWrite_derrInfo (ha : addr.toNat = XW_DERR_INFO.addr) (htc : s.xw.tc ≠ s.now) :
    ∃ u : State, exec (.registerWrite m sec addr v) s = .next u ∧
      s.sets u (if bitb v.toNat 31 then [(XW_DERR_INFO.VALID, 0), (XW_DERR_INFO.OVF, 0)] else []) := by
  have harb := s.arbitrated_toPort m addr.toNat
  have haddr : addr.toNat = 0x40070018 := ha
  obtain ⟨r, hr, hs⟩ : ∃ r, specAt XW_DERR_INFO.addr = some r ∧ r.secure = false := ⟨_, rfl, rfl⟩
  refine ⟨_, registerWrite_xw m sec addr v s hp h0 r (by omega) (by omega) (ha ▸ hr) hs, ?_⟩
  rw [State.writeXw_derrInfo _ _ _ _ (by omega)]
  cases bitb v.toNat 31 with
  | true =>
    refine harb.sets (State.sets_derrClear _ ?_) _
    unfold State.arbitrated at harb; rw [harb]; exact htc
  | false => exact harb.sets (State.sets_refl _) _

/-- XW_DERR_CNT and XW_BERR_CNT: the errors of the same tc are added (R41). -/
theorem registerWrite_derrCnt (ha : addr.toNat = XW_DERR_CNT.COUNT.addr) :
    ∃ u : State, exec (.registerWrite m sec addr v) s = .next u ∧
      s.sets u [(XW_DERR_CNT.COUNT, min (v.toNat + s.thisTc.xw.derrs.length) (2 ^ 32 - 1))] := by
  have harb := s.arbitrated_toPort m addr.toNat
  have haddr : addr.toNat = 0x4007001C := ha
  obtain ⟨r, hr, hs⟩ : ∃ r, specAt XW_DERR_CNT.COUNT.addr = some r ∧ r.secure = false := ⟨_, rfl, rfl⟩
  refine ⟨_, registerWrite_xw m sec addr v s hp h0 r (by omega) (by omega) (ha ▸ hr) hs, ?_⟩
  rw [State.writeXw_derrCnt _ _ _ _ (by omega), harb.thisTc.1]
  exact harb.sets ((State.sets_countWrite _ XW_DERR_CNT.COUNT _ _ (by decide) v.isLt).congr (State.thisTc_regs _).symm rfl) _

theorem registerWrite_berrCnt (ha : addr.toNat = XW_BERR_CNT.COUNT.addr) :
    ∃ u : State, exec (.registerWrite m sec addr v) s = .next u ∧
      s.sets u [(XW_BERR_CNT.COUNT, min (v.toNat + s.thisTc.xw.berrs) (2 ^ 32 - 1))] := by
  have harb := s.arbitrated_toPort m addr.toNat
  have haddr : addr.toNat = 0x40070020 := ha
  obtain ⟨r, hr, hs⟩ : ∃ r, specAt XW_BERR_CNT.COUNT.addr = some r ∧ r.secure = false := ⟨_, rfl, rfl⟩
  refine ⟨_, registerWrite_xw m sec addr v s hp h0 r (by omega) (by omega) (ha ▸ hr) hs, ?_⟩
  rw [State.writeXw_berrCnt _ _ _ _ (by omega), harb.thisTc.2]
  exact harb.sets ((State.sets_countWrite _ XW_BERR_CNT.COUNT _ _ (by decide) v.isLt).congr (State.thisTc_regs _).symm rfl) _

end XwErrors

/-- The spare area of Bulk answers a bus error (R30, R38). -/
theorem bulkAccess_spare (m : Fin 14) (rivals : List (Fin 14)) (w : Bool) (addr : BitVec 40) (len : Fin 65)
    (data : List Byte) (s : State) (h1 : bulkSpareBase ≤ addr.toNat) (h2 : addr.toNat < bulkEnd)
    (hk : transactionOk addr.toNat (if w then data.length else len.val) = true) :
    ∃ u : State, exec (.bulkAccess ⟨m, rivals⟩ w addr len data []) s = .next u ∧ s.busErrored u ∧
      u.xw.berrs = s.thisTc.xw.berrs + 1 := by
  have harb := s.toPortAmong_eq m addr.toNat (rivals.map (·.val))
  exact ⟨_, execBulkAccess_spare m rivals w addr len data s h1 h2 hk, harb.busErrored,
    (State.busErr_berrs _).trans (by rw [harb.thisTc.2])⟩

/-- Settles O38: a transaction on Bulk by what its granules hold, a re-read by what it finds, a register write by its address,
field types and security. -/
theorem busAccesses : Obligations.BusAccesses := by
  unfold Obligations.BusAccesses
  intro s m sec w addr len data rivals v
  dsimp only
  refine ⟨fun h => execBulkAccess_across m rivals w addr len data s h,
    fun h1 h2 hk => ?_, ?_, ?_, ?_, ?_, ?_, ?_, ?_, ?_,
    fun h => execRegisterWrite_nothing m sec addr v s h, ?_, ?_, ?_, ?_, ?_, ?_, ?_, ?_⟩
  · obtain ⟨u, hu, ⟨hberr, hrest⟩, hcount⟩ := bulkAccess_spare m rivals w addr len data s h1 h2 hk
    exact ⟨u, hu, hberr, hrest, hcount⟩
  · rintro ⟨hb, hk, hr, hpage⟩ hs rfl
    exact bulkAccess_read_sound m rivals addr len data s hr hpage hb hk hs
  · rintro ⟨hb, hk, hr, hpage⟩ hs rfl hue
    exact bulkAccess_write_sound m rivals addr len data s hr hpage hb hk hs hue
  · rintro ⟨hb, hk, hr, hpage⟩ rfl hn h8 hc hst
    exact bulkAccess_read_corrected m rivals addr len data s hr hpage hb hk hn h8 hc hst
  · rintro ⟨hb, hk, hr, hpage⟩ rfl hn h8 hc
    exact bulkAccess_read_uncorrectable m rivals addr len data s hr hpage hb hk hn h8 hc
  · intro hl hin
    rw [execBulkReRead_eq addr s hl, if_neg hin]
  · intro hl hin hs
    rw [execBulkReRead_eq addr s hl, if_pos hin, if_pos (by rw [s.gran_clean _ hs])]; rfl
  · exact fun hl hin hy hfree => bulkReRead_redirects addr s hl hin hy hfree
  · exact fun hl hin hy hfull => bulkReRead_full addr s hl hin hy hfull
  · rintro r ⟨hp, h0⟩ hpage h4 hr hs h1 h2 h3
    obtain ⟨u, hu, hrest, hbut, hin, hout⟩ := registerWrite_fields m sec addr v s hp h0 r hpage h4 hr hs h1 h2 h3
    exact ⟨u, hu, hrest, hbut, hin, hout⟩
  · rintro ⟨hp, h0⟩ ha htc
    exact registerWrite_derrInfo m sec addr v s hp h0 ha htc
  · rintro ⟨hp, h0⟩ ha
    exact registerWrite_derrCnt m sec addr v s hp h0 ha
  · rintro ⟨hp, h0⟩ ha
    exact registerWrite_berrCnt m sec addr v s hp h0 ha
  · rintro ⟨hp, h0⟩ hpage h4 hr htc
    exact registerWrite_unassigned m sec addr v s hp h0 hpage h4 hr htc
  · exact fun r hp hpage h4 hr hs hsec => registerWrite_insecure m sec addr v s hp r hpage h4 hr hs hsec
  · exact fun hp hpage h4 hb => registerWrite_misaligned m sec addr v s hp hpage h4 (by simp [transactionOk, hb])
  · exact fun hp hpage h3 hb => registerWrite_inReset m sec addr v s hp hpage h3 (by simp [transactionOk, hb])

end Sys2Proof.Machine
end
